-- ==== Sys2Proof/Word.lean ====
section
/-! DEFINITION. The words, dates and keyed tables the rest of the model is made of. -/

namespace Sys2Proof

/-- One byte on a link or a segment. -/
abbrev Byte := BitVec 8

/-- A 16-bit value: row and page versions, the commit number, menu codes. -/
abbrev Half := BitVec 16

/-- The host room code of R15: stored and echoed, never interpreted. -/
abbrev RoomCode := BitVec 24

/-- A 32-bit host value: organiser reference, badge reference. -/
abbrev HostRef := BitVec 32

/-- A label: characters as the host gave them (R33, R93). -/
abbrev Label := List Byte

/-- A calendar date as the host names it (R1): `year` 0-99 stands for 2000-2099. -/
structure Date where
  year : Nat
  month : Nat
  day : Nat
deriving DecidableEq, Repr

/-- R1. -/
inductive Weekday where
  | monday | tuesday | wednesday | thursday | friday | saturday | sunday
deriving DecidableEq, Repr

/-- A keyed table: (key, value) pairs in the one canonical form `Table.wf` (Machine/Ops.lean), keys strictly
rising and no entry for an empty place. -/
structure Table (α : Type) where
  entries : List (Nat × α)
deriving DecidableEq, Repr

end Sys2Proof
end

