-- ==== Sys2Proof/Syntax/Fields.lean ====
section
/-! DEFINITION. The named fields of requests, configuration items and station answers (spec 00, Messages and
records): a message is described by its named fields, and the byte layout of a body is not given (log 3, log 4). -/

namespace Sys2Proof

/-- R15. -/
inductive RoomKind where
  | single | part | combined
deriving DecidableEq, Repr

/-- R152: the point a turnover step is timed from; `finish` is END. -/
inductive Anchor where
  | start | finish | checkIn
deriving DecidableEq, Repr

/-- R152: the action of a step with its parameter. -/
inductive StepAction where
  | showOverlay (message : Nat)
  | clearOverlay
  | pickupCall
  | releaseBuffer
  | notify (code : Nat)
  | latch
deriving DecidableEq, Repr

/-- R152: one step of a template. -/
structure StepDef where
  anchor : Anchor
  offset : Int
  action : StepAction
deriving DecidableEq, Repr

/-- R152. -/
structure Template where
  buffer : Nat
  steps : List StepDef
deriving DecidableEq, Repr

/-- R90. -/
inductive StationType where
  | panel | terminal
deriving DecidableEq, Repr

/-- R192 STATION: `binding` is a room index for a panel, a kitchen id for a terminal. -/
structure StationItem where
  type : StationType
  binding : Nat
deriving DecidableEq, Repr

/-- R192 GROUP: mode LATCHED or IMMEDIATE, and the dark flag. -/
structure GroupItem where
  latched : Bool
  dark : Bool
deriving DecidableEq, Repr

/-- R192 SETTINGS. -/
structure Settings where
  holdMinutes : Nat
  pollPeriod : Nat
  graceDefault : Nat
deriving DecidableEq, Repr

/-- R192 KITCHEN: one value for all windows, or a 32-value profile. -/
inductive CapacityField where
  | one (covers : Nat)
  | profile (windows : List Nat)
deriving DecidableEq, Repr

/-- R192 KITCHEN. -/
structure KitchenItem where
  capacity : CapacityField
  cutOff : Nat
deriving DecidableEq, Repr

/-- R192 ROOM; `grace` is optional in a put and present once the put is taken. -/
structure RoomItem where
  code : RoomCode
  building : Nat
  floor : Nat
  seats : Nat
  bookable : Bool
  walkup : Bool
  checkin : Bool
  grace : Option Nat
  kitchen : Option Nat
  template : Option Nat
  group : Nat
  kind : RoomKind
  combined : Option Nat
deriving DecidableEq, Repr

/-- R192: a kind and its key; `unknown` stands for a kind that names nothing. -/
inductive ItemKey where
  | room (index : Nat)
  | combined (index : Nat)
  | kitchen (id : Nat)
  | template (id : Nat)
  | station (segment address : Nat)
  | group (id : Nat)
  | settings
  | unknown
deriving DecidableEq, Repr

/-- R192: an item with its fields. -/
inductive Item where
  | room (index : Nat) (item : RoomItem)
  | combined (index : Nat) (parts : List Nat)
  | kitchen (id : Nat) (item : KitchenItem)
  | template (id : Nat) (item : Template)
  | station (segment address : Nat) (item : StationItem)
  | group (id : Nat) (item : GroupItem)
  | settings (item : Settings)
deriving DecidableEq, Repr

/-- R193: an item to add or replace, a key to remove, or a body whose kind or fields name nothing (a type or a
mode that is none of its values). -/
inductive PutBody where
  | put (item : Item)
  | remove (key : ItemKey)
  | outOfRange
deriving DecidableEq, Repr

/-- R132: one line of an order. -/
structure OrderLine where
  menu : Half
  quantity : Nat
deriving DecidableEq, Repr

/-- R26. -/
structure CloseFields where
  room : Nat
  date : Date
  start : Nat
  count : Nat
  label : Option Label
  organiser : HostRef
deriving DecidableEq, Repr

/-- R37, R40: the fields of BOOK; HOLD adds its hold minutes, LOAD an id and a state. -/
structure BookFields where
  room : Nat
  date : Date
  start : Nat
  count : Nat
  attendees : Nat
  organiser : HostRef
  label : Option Label
deriving DecidableEq, Repr

/-- R41: the state a LOAD gives; `other` is any other value of the field. -/
inductive LoadState where
  | confirmed | checkedIn | inProgress | other
deriving DecidableEq, Repr

/-- R45. -/
structure MoveFields where
  id : Nat
  room : Nat
  date : Date
  start : Nat
  count : Nat
deriving DecidableEq, Repr

/-- R63. -/
structure SeriesFields where
  room : Nat
  start : Nat
  count : Nat
  mask : List Weekday
  first : Option Date
  last : Option Date
  organiser : HostRef
  attendees : Nat
  label : Option Label
deriving DecidableEq, Repr

/-- R29. -/
structure FindFields where
  date : Date
  start : Nat
  count : Nat
  minSeats : Nat
  building : Option Nat
  first : Option Nat
deriving DecidableEq, Repr

/-- R134. -/
structure OrderFields where
  booking : Nat
  slot : Option Nat
  lines : List OrderLine
  wait : Bool
deriving DecidableEq, Repr

/-- R72: the value of an edition field; `other` is any other value. -/
inductive EditionField where
  | live | draft | other
deriving DecidableEq, Repr

/-- The 41 requests of section 11.7 with their named fields, in the order of their codes 1-41. -/
inductive Request where
  | setClock (date : Date) (minute : Nat)
  | trimClock (amount : Int)
  | readClock
  | closeCells (f : CloseFields)
  | readRow (room : Nat) (date : Date) (first : Option Nat)
  | findFree (f : FindFields)
  | hold (f : BookFields) (minutes : Option Nat)
  | confirm (id : Nat)
  | book (f : BookFields)
  | load (f : BookFields) (id : Nat) (state : LoadState)
  | cancel (id : Nat)
  | move (f : MoveFields)
  | extend (id count : Nat)
  | endNow (id : Nat)
  | checkIn (id : Nat) (badge : Option HostRef)
  | readBooking (id : Nat)
  | seriesCreate (f : SeriesFields)
  | seriesCancel (id : Nat)
  | readSeries (id : Nat)
  | setEditions (read write : EditionField)
  | readEditions
  | publish
  | discard
  | resetStation (segment address : Nat)
  | readStation (segment address : Nat)
  | latchGroups (entries : List Bool)
  | readPage (room : Nat)
  | order (f : OrderFields)
  | orderChange (id : Nat) (lines : Option (List OrderLine)) (slot : Option Nat)
  | orderCancel (id : Nat)
  | readOrder (id : Nat)
  | readCapacity (kitchen : Nat) (date : Date) (first : Option Nat)
  | readWaitlist (kitchen : Nat)
  | readRun (run booking : Option Nat)
  | rebuildRow (room : Nat) (date : Date)
  | forgetBooking (id slot : Option Nat)
  | readScrub
  | readIdentity
  | restart
  | configPut (body : PutBody)
  | configGet (key : ItemKey) (next : Bool)
deriving DecidableEq, Repr

/-- R91: an event a station reports. -/
inductive StationEvent where
  | checkIn (badge : Option HostRef)
  | walkup (slots : Nat)
  | endMeeting
  | extend
  | cartArrived (order : Nat)
  | ticketTaken (order : Nat)
  | dispatched (order : Nat)
  | pickedUp (order : Nat)
deriving DecidableEq, Repr

/-- R91: the named fields the body of a station's answer stands for; `unreadable` is a body that is not the body
of its kind (a type that is neither PANEL nor TERMINAL, an event of no kind, a body too short). -/
inductive AnswerBody where
  | probe (type : StationType) (credits : Nat)
  | poll (credits shown : Nat) (events : List StationEvent)
  | ack
  | unreadable
deriving DecidableEq, Repr

/-- R167: an item of the check-coded store. -/
inductive StoreItem where
  | liveRow (room : Nat) (date : Date)
  | draftRow (room : Nat) (date : Date)
  | record (slot : Nat)
  | index (slot : Nat)
deriving DecidableEq, Repr

/-- R168: bits that flip in the words of one item: `soft` words with one bit in error, and whether a word has
become uncorrectable; `tagLost`, for a record, when its own tag word is not readable (R169). -/
structure Upset where
  item : StoreItem
  soft : Nat
  hard : Bool
  tagLost : Bool
deriving DecidableEq, Repr

/-- Which owner answered a panel event (R125). -/
inductive OutcomeSource where
  | bke | csc
deriving DecidableEq, Repr

end Sys2Proof
end

