-- ==== Sys2Proof/Syntax.lean ====
section
/-! DEFINITION. The commands: one constructor for each row of spec/opcode_table.json, in the table's order. An
operand stands only where the content comes from outside the part or the spec leaves open which of several
independent things comes next (log 1); everything else a step needs is in the state. -/

namespace Sys2Proof

/-- The steps of the part, each whole and indivisible (spec 95). -/
inductive Instr where
  /-- POWER_ON_RESET (R188): The reset pin or power-up brings every block to its reset state, and the configuration store loads the committed set. -/
  | powerOnReset
  /-- HELLO (R188): Once the configuration load has ended, the HMP posts HELLO and begins taking requests. -/
  | hello
  /-- FRAME_HEADER_RECEIVED (R181): When the first 8 bytes of a write select arrive, the HMP places the frame in the credited part or in the reserve. -/
  | frameHeaderReceived (header : List Byte)
  /-- LINK_WRITE_SELECT_END (R182): When a write select ends, the arriving frame is checked for receipt, space, tag clash and tag room, and is then accepted or discarded. -/
  | linkWriteSelectEnd (bytes : List Byte) (reading : Option Request)
  /-- LINK_READ_SELECT (R183): At the start of a read select the HMP chooses the head frame, a CREDIT frame or no frame, and sets its credit return byte. -/
  | linkReadSelect
  /-- LINK_READ_COMPLETE (R183): A completely read frame leaves the queue, returns its credits, and releases its tag when it is a reply. -/
  | linkReadComplete
  /-- TAKE_REQUEST (R185): The HMP takes the head request once HELLO is posted, a reply place is free and batch order allows, then decodes it and hands it to its owner. -/
  | takeRequest
  /-- READ_IDENTITY (R190): The HMP replies with the part identity, the counts and the link state. -/
  | readIdentity
  /-- RESTART (R189): A SOLE RESTART outside a commit becomes pending, and no further request is taken. -/
  | restart
  /-- RESTART_REPLY (R189): When every earlier request has its reply posted, the HMP posts OK to the pending RESTART and discards later notices. -/
  | restartReply
  /-- MINUTE_COMPLETION (R2): Every sixtieth crystal second advances the minute and the reach mark, and delivers that minute's time events. -/
  | minuteCompletion
  /-- DAY_OPENED (R12): When every recipient has taken its day open, the CTU posts DAY_OPENED. -/
  | dayOpened
  /-- SET_CLOCK (R7): The host sets campus time on an UNSET clock, and horizon open is delivered. -/
  | setClock
  /-- CLOCK_SET_COMPLETE (R8): When every recipient has taken its horizon open, the CTU posts CLOCK_STATE SET and the SET_CLOCK reply. -/
  | clockSetComplete
  /-- TRIM_CLOCK (R9): The host moves a running clock by ±1 to 30 minutes; a forward trim delivers the skipped minutes and a backward trim delivers nothing. -/
  | trimClock
  /-- TRIM_COMPLETE (R10): When every event of a forward trim has been taken, the CTU posts CLOCK_STATE TRIM and the reply. -/
  | trimComplete
  /-- READ_CLOCK (R13): The host reads the clock state, the time, the reach mark and the current slot. -/
  | readClock
  /-- BKE_HORIZON_OPEN (R18): The BKE copies the horizon and creates 14 free rows for every room. -/
  | bkeHorizonOpen
  /-- BKE_DAY_RETIRE (R30): In one claim the BKE removes the retired date's records and series and clears its rows, then takes day open. -/
  | bkeDayRetire
  /-- BKE_SLOT_BOUNDARY (R47): At a slot boundary the BKE starts meetings, ends meetings and closures, ends buffers and lapses held spans. -/
  | bkeSlotBoundary
  /-- HOLD_LAPSE (R38): At its hold expiry a held meeting is removed, its cells are freed and HOLD_LAPSED is posted. -/
  | holdLapse
  /-- NO_SHOW (R49): At its grace expiry a meeting still AWAITING_CHECKIN is released, and NO_SHOW is posted. -/
  | noShow
  /-- CLOSE_CELLS (R26): The host closes a span of a room with a closure record. -/
  | closeCells
  /-- READ_ROW (R28): The host reads one row in the read edition, with its cover list. -/
  | readRow
  /-- FIND_FREE (R29): The host searches for up to 8 rooms in which a span could be booked. -/
  | findFree
  /-- HOLD (R37): The host holds cells with a HELD meeting that has an expiry minute. -/
  | hold
  /-- CONFIRM (R39): The host confirms a held meeting to CONFIRMED. -/
  | confirm
  /-- BOOK (R40): The host creates a confirmed meeting directly, or a draft record in write edition DRAFT. -/
  | book
  /-- LOAD (R41): The host restores a booking with a given id and state. -/
  | load
  /-- CANCEL (R44): The host cancels a live record, or a record in the draft. -/
  | cancel
  /-- MOVE (R45): The host moves a meeting that has not started to a new room, date and span. -/
  | move
  /-- EXTEND (R52): The host lengthens a meeting by 1 to 4 slots. -/
  | extend
  /-- END_NOW (R53): The host ends a started meeting at the end of the current slot. -/
  | endNow
  /-- CHECK_IN (R48): The host checks in a meeting, or marks it EARLY. -/
  | checkIn
  /-- READ_BOOKING (R56): The host reads one booking record by id. -/
  | readBooking
  /-- PANEL_CHECK_IN (R54): The BKE takes a panel check-in claim and checks in the candidate meeting. -/
  | panelCheckIn
  /-- PANEL_WALKUP (R55): The BKE takes a panel walk-up claim and creates a CHECKED_IN meeting from the current slot. -/
  | panelWalkup
  /-- PANEL_END (R54): The BKE takes a panel end claim and applies END_NOW to the current meeting. -/
  | panelEnd
  /-- PANEL_EXTEND (R54): The BKE takes a panel extend claim and extends the current meeting by one slot. -/
  | panelExtend
  /-- RELEASE_BUFFER (R51): The BKE takes a run's release claim and releases a RESERVED buffer. -/
  | releaseBuffer
  /-- SERIES_CREATE (R63): The host creates a series, and its instances are materialised over the horizon. -/
  | seriesCreate
  /-- SERIES_CANCEL (R69): The host ends a series: confirmed instances are cancelled, and series ids are cleared. -/
  | seriesCancel
  /-- READ_SERIES (R71): The host reads a series and its instance list. -/
  | readSeries
  /-- SET_EDITIONS (R72): The host sets the read and write editions. -/
  | setEditions
  /-- READ_EDITIONS (R72): The host reads the editions and the draft counts. -/
  | readEditions
  /-- PUBLISH (R82): The host applies the draft to the live book when no draft row is stale. -/
  | publish
  /-- DISCARD (R85): The host removes the whole draft. -/
  | discard
  /-- ORDER (R134): The host asks for catering; the CSC checks the fields and hands the BKE a placement claim. -/
  | order
  /-- ORDER_PLACEMENT_CLAIM (R134): The BKE checks the booking, consults the CSC, and writes the placed order id. -/
  | orderPlacementClaim
  /-- ORDER_CHANGE (R136): The host changes an order's lines or delivery slot. -/
  | orderChange
  /-- ORDER_CANCEL (R137): The host withdraws a waitlisted or confirmed order. -/
  | orderCancel
  /-- READ_ORDER (R150): The host reads one order. -/
  | readOrder
  /-- READ_CAPACITY (R150): The host reads a kitchen's capacity entries and list lengths. -/
  | readCapacity
  /-- READ_WAITLIST (R150): The host reads a kitchen's waitlist. -/
  | readWaitlist
  /-- CSC_HORIZON_OPEN (R130): The CSC copies the horizon and creates the capacity entries, with today's past windows closed. -/
  | cscHorizonOpen
  /-- CSC_DAY_RETIRE (R148): The CSC reports unresolved orders, then removes the date's orders and capacity entries. -/
  | cscDayRetire
  /-- CSC_DAY_OPEN (R148): The CSC advances its horizon and creates the entries of the new day offset 13. -/
  | cscDayOpen
  /-- CSC_SLOT_BOUNDARY (R131): At an even boundary the CSC closes the window that has just ended. -/
  | cscSlotBoundary
  /-- CSC_MINUTE (R129): The CSC sets its minute from the minute event. -/
  | cscMinute
  /-- CUT_OFF (R139): At its cut-off minute a confirmed order is LOCKED and ticketed, and a waitlisted order is DECLINED. -/
  | cutOff
  /-- CSC_BOOKING_CHANGE (R145): The CSC applies the order effects of a booking cancel, release, forget, start, retime or move. -/
  | cscBookingChange
  /-- PICKUP_CALL (R141): The CSC takes a run's pickup claim and queues a PICKUP_CALL for a delivered order. -/
  | pickupCall
  /-- TERMINAL_LINK_CHANGE (R142): The CSC takes a terminal link change, offers pending work or marks the kitchen unreachable. -/
  | terminalLinkChange (segment : Nat)
  /-- TICKET_DELIVERED (R140): The CSC takes a ticket's delivery: the ticket becomes SENT, and an owed VOID is queued. -/
  | ticketDelivered (segment : Nat)
  /-- TICKET_NOT_DELIVERED (R140): A ticket handed back returns to the pending list, or is dropped for an order no longer locked. -/
  | ticketNotDelivered (segment : Nat)
  /-- CALL_DELIVERED (R141): The CSC takes a call's delivery, and the call is done. -/
  | callDelivered (segment : Nat)
  /-- CALL_NOT_DELIVERED (R141): A call handed back rejoins the head of the call list. -/
  | callNotDelivered (segment : Nat)
  /-- SLOT_FREE (R103): The CSC is told a terminal slot is free, and it offers the next ticket or call. -/
  | slotFree (segment : Nat)
  /-- TERMINAL_EVENT (R143): The CSC applies TICKET_TAKEN, DISPATCHED or PICKED_UP to the order, or ignores the event. -/
  | terminalEvent (segment : Nat)
  /-- CART_ARRIVED (R144): The CSC takes a panel's cart arrival: the order becomes DELIVERED, or the arrival is refused. -/
  | cartArrived
  /-- PPU_HORIZON_OPEN (R116): The PPU copies the horizon, sets the dark-period mark and builds every page. -/
  | ppuHorizonOpen
  /-- PPU_DAY_RETIRE (R116): The PPU clears release marks and overlays, and ends every latch wait. -/
  | ppuDayRetire
  /-- PPU_DAY_OPEN (R116): The PPU advances its horizon and builds every page for the new today. -/
  | ppuDayOpen
  /-- MORNING_BUILD (R117): At 05:45 the PPU clears the dark-period mark and builds every page as SHOW. -/
  | morningBuild
  /-- PRE_BOUNDARY (R117): The PPU moves LATCHED rooms to the coming slot and stages their pages. -/
  | preBoundary
  /-- PPU_SLOT_BOUNDARY (R117): The PPU clears release marks, builds pages and makes a latch claim for the LATCHED groups. -/
  | ppuSlotBoundary
  /-- DAY_END (R117): At 22:00 the PPU sets the dark-period mark and darkens the pages of dark groups. -/
  | dayEnd
  /-- PPU_MINUTE (R117): The PPU builds pages whose check-in window opens, and counts latch waits. -/
  | ppuMinute
  /-- LATCH_WAIT_EXPIRY (R120): A latch wait reaching two minute events sends SHOW to the lagging panels and hands its latch. -/
  | latchWaitExpiry
  /-- LATCH_GROUPS (R121): The host asks for a latch of LATCHED groups, and the reply comes when the wait ends. -/
  | latchGroups
  /-- READ_PAGE (R127): The host reads a room's page record and its panel views. -/
  | readPage
  /-- PPU_BOOKING_CHANGE (R118): The PPU applies a handed booking change of today and rebuilds the affected pages. -/
  | ppuBookingChange
  /-- PPU_ROW_STATE_CHANGE (R118): The PPU rebuilds a room's page when today's live row changes state. -/
  | ppuRowStateChange
  /-- PUBLISH_COMPLETION (R118): The PPU rebuilds the rooms named by a publish and makes a latch claim. -/
  | publishCompletion
  /-- SHOW_OVERLAY (R119): A run's overlay claim sets a page's overlay message, and the page is rebuilt. -/
  | showOverlay
  /-- CLEAR_OVERLAY (R119): A run's overlay claim clears a page's overlay, and the page is rebuilt. -/
  | clearOverlay
  /-- LATCH_STEP (R120): A run's LATCH step makes a latch claim for the room's group when that group is LATCHED. -/
  | latchStep
  /-- PANEL_LINK_CHANGE (R123): The PPU updates a panel view when the panel goes ONLINE or leaves ONLINE, sending SHOW when it is ONLINE. -/
  | panelLinkChange (segment : Nat)
  /-- PAGE_DELIVERED (R123): The PPU records a delivered STAGE or SHOW, and may end latch waits or hand a STAGE. -/
  | pageDelivered (segment : Nat)
  /-- PAGE_ITEM_REFUSED (R123): A refused page item clears awaiting delivery. -/
  | pageItemRefused (segment : Nat)
  /-- LATCH_BROADCAST_RECORD (R122): The PPU updates the shown versions of the panels listed in a latch broadcast and corrects lost stages. -/
  | latchBroadcastRecord (segment : Nat)
  /-- SHOWN_VERSION_REPORT (R124): The PPU compares a panel's reported shown version and re-sends SHOW on a mismatch. -/
  | shownVersionReport (segment : Nat)
  /-- PANEL_EVENT (R125): The PPU relays a panel event to the BKE or to the CSC. -/
  | panelEvent (segment : Nat)
  /-- PANEL_OUTCOME (R126): The PPU posts PANEL_ACTION and WALKUP for an accepted outcome, and hands a RESULT. -/
  | panelOutcome (source : OutcomeSource)
  /-- RESULT_NOT_SENT (R126): The PPU is told a RESULT was discarded and takes no further step. -/
  | resultNotSent (segment : Nat)
  /-- SQU_HORIZON_OPEN (R164): The SQU copies the horizon and sets its minute. -/
  | squHorizonOpen
  /-- SQU_DAY_RETIRE (R164): The SQU removes every run of the retired date. -/
  | squDayRetire
  /-- SQU_DAY_OPEN (R164): The SQU advances its horizon copy. -/
  | squDayOpen
  /-- SQU_MINUTE (R157): The SQU sets its minute, drops WAITING steps of ended runs and completes runs. -/
  | squMinute
  /-- STEP_FIRING (R157): A DUE step reaching its minute fires and hands its action. -/
  | stepFiring
  /-- CATCH_UP (R156): After placing, the SQU fires every late DUE step of the run. -/
  | catchUp
  /-- SQU_CHECKIN_REPORT (R160): A check-in report fixes the run's check-in minute and places the WAITING steps. -/
  | squCheckinReport
  /-- READ_RUN (R165): The host reads a run by run id or booking id. -/
  | readRun
  /-- PATROL_ITEM (R170): Every 8 ms the patrol reads one store item, corrects and counts errors, and advances. -/
  | patrolItem (upsets : List Upset)
  /-- STORE_ERROR_REPORT (R169): The BKE takes an uncorrectable item: it rebuilds rows, marks records DAMAGED or damages the draft. -/
  | storeErrorReport
  /-- REBUILD_COMPLETION (R173): A rebuild derives the row from its records and sets it GOOD or QUARANTINED. -/
  | rebuildCompletion (room : Nat) (date : Date)
  /-- REBUILD_ROW (R175): The host forces a rebuild, and the reply waits for its completion. -/
  | rebuildRow
  /-- FORGET_BOOKING (R176): The host removes a damaged record, and the rows it may have written are rebuilt. -/
  | forgetBooking
  /-- READ_SCRUB (R177): The host reads the patrol and error counters. -/
  | readScrub
  /-- ARBITER_CHOOSE (R104): An idle segment chooses its next transaction: latch, clear, round robin or discovery. -/
  | arbiterChoose (segment : Nat)
  /-- STATION_ANSWER (R95): An answer frame arriving within the wait is checked, and the attempt succeeds or fails. -/
  | stationAnswer (segment : Nat) (bytes : List Byte) (reading : AnswerBody)
  /-- REPLY_WAIT_EXPIRY (R95): The 20 ms wait runs out with no valid answer: the attempt fails, is retried, or leads to a fault. -/
  | replyWaitExpiry (segment : Nat)
  /-- POLL_DUE (R98): The poll period runs out for an ONLINE station, and its poll falls due. -/
  | pollDue (segment address : Nat)
  /-- PROBE_INTERVAL_EXPIRY (R97): A segment's 5 s probe interval runs out, and discovery may proceed. -/
  | probeIntervalExpiry (segment : Nat)
  /-- PAGE_ITEM (R101): The SBC takes a page item into a panel's page slot, or refuses it. -/
  | pageItem
  /-- RESULT_ITEM (R102): The SBC queues a result for a panel, or discards it when the session no longer matches. -/
  | resultItem
  /-- TICKET_OFFER (R103): The SBC takes a ticket into a terminal's ticket slot, or refuses it. -/
  | ticketOffer (kitchen : Nat)
  /-- CALL_OFFER (R103): The SBC takes a VOID or PICKUP_CALL into the call slot, or refuses it. -/
  | callOffer (kitchen : Nat)
  /-- LATCH_HANDED (R105): The SBC adds a latch's groups to the pending mask of every segment. -/
  | latchHanded
  /-- RESET_STATION (R106): The host resets a station to ABSENT with the clear mark set; the reset waits for any transaction in flight. -/
  | resetStation
  /-- READ_STATION (R107): The host reads a station record. -/
  | readStation
  /-- CONFIG_PUT (R193): The host stages a configuration put; a LAST put validates the set and starts the commit. -/
  | configPut
  /-- CONFIG_GET (R194): The host reads a committed configuration item. -/
  | configGet
  /-- COMMIT_WRITE (R196): The merged set is written to nonvolatile memory, and each block is handed its new tables. -/
  | commitWrite
  /-- BKE_CONFIG_TABLES (R17): The BKE takes its new directory: rows are added or dropped and buffers released. -/
  | bkeConfigTables
  /-- SBC_CONFIG_TABLES (R109): The SBC takes its new station set and poll period. -/
  | sbcConfigTables
  /-- PPU_CONFIG_TABLES (R128): The PPU takes its new rooms and groups and rebuilds every page. -/
  | ppuConfigTables
  /-- CSC_CONFIG_TABLES (R149): The CSC takes its new kitchens, capacities and cut-offs. -/
  | cscConfigTables
  /-- SQU_CONFIG_TABLES (R152): The SQU takes its new templates. -/
  | squConfigTables
  /-- COMMIT_END (R196): When every block has taken its tables, the guards are lifted, and CONFIG_APPLIED and the LAST reply are posted. -/
  | commitEnd
  /-- SECOND_COMPLETION (R2): Every 32,768 crystal cycles the CTU advances its second count, in either clock state. -/
  | secondCompletion
  /-- FRAME_SENT (R89): The last byte of a LATCH or CLEAR frame leaves the segment, and that no-answer transaction ends. -/
  | frameSent (segment : Nat)
deriving DecidableEq, Repr

end Sys2Proof
end

