-- ==== Sys2Proof/Config.lean ====
section
/-! DEFINITION. The numbers the spec fixes (00, Capacities and fixed numbers) and the values it leaves open: the part's
revision number, and the bytes that stand for the named fields of a frame's body. -/

namespace Sys2Proof.Config

/-- FREE VALUE (log 5): the revision number that HELLO and READ_IDENTITY carry; the spec gives no value. -/
opaque revision : Nat

/-- FREE VALUE (log 5): the bytes of one named field of a body, as the rule of that number lists it; the spec gives the
fields' order and not their widths and forms (R91, R180). -/
opaque fieldBytes {α : Type} (rule : Nat) (name : String) (value : α) : List Byte

/-- FREE VALUE (log 5): the byte of a detail other than 0, which the spec does not number (R180). -/
opaque detailByte {α : Type} (detail : α) : Byte

/-- Capacities of 00. -/
def maxRooms : Nat := 384
def maxCombined : Nat := 32
def slotsPerDay : Nat := 64
def horizonDays : Nat := 14
def maxRecords : Nat := 4096
def maxHolds : Nat := 64
def maxSeries : Nat := 127
def maxDraftRows : Nat := 256
def maxDraftRecords : Nat := 512
def maxOrders : Nat := 1023
def maxWaitlist : Nat := 16
def maxRuns : Nat := 511
def maxStaged : Nat := 512
def linkBlocks : Nat := 96
def replyPlaces : Nat := 96
def noticePlaces : Nat := 64
def maxTags : Nat := 96
def patrolItems : Nat := 9472

/-- R3: crystal cycles in a second; R97: the probe interval in seconds. -/
def crystal : Nat := 32768
def probeSeconds : Nat := 5

def rowPlaces : Nat := 5376

/-- The factory settings and the fixed early check-in minutes of R192. -/
def factory : Settings := { holdMinutes := 10, pollPeriod := 2, graceDefault := 10 }
def earlyMinutes : Nat := 10

end Sys2Proof.Config
end

