-- ==== Sys2Proof/Machine/Blocks.lean ====
section
/-! DEFINITION. The records that the nine blocks of the part hold, hand to each other and send to the host: one
structure for each table of spec 01 to 12 that lists fields. -/

namespace Sys2Proof.Machine

/-! ## Link vocabulary -/

/-- R180: reply statuses in the order of their values 0-12. -/
inductive Status where
  | ok | skipped | badRequest | notFound | conflict | full | tooLate | busy | refused | damaged | stale
  | clockUnset | inUse
deriving DecidableEq, Repr

/-- The detail codes written after a solidus; `none` is detail 0 (R180). -/
inductive Detail where
  | none | set | trim | room | state | seats | draft | span | buffer | quarantined | rebuilding | table | holds
  | runs | closure | terminal | started | notOpen | notStarted | walkup | id | early | checkedIn | unchanged
  | marked | series | empty | record | catering | commit | station | code | batch | tags | field | key | staged
  | combined | binding | stations | roomBooked | kitchen | capacity | ordered | orders | waitlist | waiting
  | confirmed | noKitchen | slot | sound | delivered
deriving DecidableEq, Repr

/-- R180 byte 6. -/
inductive Mark where
  | sole | first | middle | last
deriving DecidableEq, Repr

/-- R187. -/
inductive BatchState where
  | none | opened | failed
deriving DecidableEq, Repr

/-- What a reply must echo of its request: tag, code and batch mark (R180). -/
structure Ctx where
  tag : Nat
  code : Nat
  mark : Mark
deriving DecidableEq, Repr

/-- A request taken and handed to its owner (R185). -/
structure Handed where
  ctx : Ctx
  request : Request
deriving DecidableEq, Repr

/-- R188. -/
inductive ResetKind where
  | powerOn | restart
deriving DecidableEq, Repr

/-! ## Campus time -/

/-- R5: the current slot (and, by the same three cases, the current window). -/
inductive CurSlot where
  | beforeDay | slot (n : Nat) | afterDay
deriving DecidableEq, Repr

/-- R1: what is present exactly while the clock is RUNNING. -/
structure Clock where
  date : Date
  weekday : Weekday
  minute : Nat
  reach : Nat
  lastBoundary : Option Nat
deriving DecidableEq, Repr

/-- R6: a recipient's copy of the horizon, held by today's date and weekday. -/
structure Horizon where
  today : Date
  weekday : Weekday
deriving DecidableEq, Repr

/-- R4: the time events with the values they carry: horizon open today's weekday, the minute and the current slot; day
open the date opened as day offset 13 and its weekday; slot boundary `b` the slot begun and the slot ended. -/
inductive EventKind where
  | horizonOpen (weekday : Weekday) (minute : Nat) (slot : CurSlot)
  | dayRetire
  | dayOpen (opened : Date) (weekday : Weekday)
  | morningBuild
  | preBoundary (b : Nat)
  | slotBoundary (b : Nat) (begun ended : Option Nat)
  | dayEnd
  | minute (m : Nat)
deriving DecidableEq, Repr

/-- R4: a time event carries the date of the day it belongs to (for day open, the new today). -/
structure TimeEvent where
  date : Date
  kind : EventKind
deriving DecidableEq, Repr

/-! ## Book Engine -/

/-- R15: a working room record; `parts` is empty but for COMBINED. -/
structure Room where
  code : RoomCode
  building : Nat
  floor : Nat
  seats : Nat
  bookable : Bool
  walkup : Bool
  checkin : Bool
  grace : Nat
  kitchen : Option Nat
  template : Option Nat
  group : Nat
  kind : RoomKind
  parts : List Nat
  combined : Option Nat
deriving DecidableEq, Repr

/-- R19. -/
inductive Cell where
  | free | held | booked | tied | buffer | closed
deriving DecidableEq, Repr

/-- R18, R172. -/
inductive RowState where
  | good | rebuilding | quarantined
deriving DecidableEq, Repr

/-- R18: the row of one room on one horizon date; `cells` has 64 entries. -/
structure Row where
  room : Nat
  date : Date
  cells : List Cell
  state : RowState
  version : Half
deriving DecidableEq, Repr

/-- R33. -/
inductive RecKind where
  | meeting | closure
deriving DecidableEq, Repr

inductive Edition where
  | live | draft
deriving DecidableEq, Repr

inductive Origin where
  | host | panel | series | load
deriving DecidableEq, Repr

/-- R35; closures use CONFIRMED, ENDED and CANCELLED. -/
inductive BState where
  | held | confirmed | awaitingCheckin | checkedIn | inProgress | ended | released | cancelled
deriving DecidableEq, Repr

inductive CheckMark where
  | none | early | done
deriving DecidableEq, Repr

inductive BufState where
  | none | reserved | released
deriving DecidableEq, Repr

/-- R33: the fields of a SOUND booking record. -/
structure Record where
  id : Nat
  kind : RecKind
  edition : Edition
  room : Nat
  date : Date
  start : Nat
  count : Nat
  organiser : HostRef
  attendees : Nat
  label : Option Label
  origin : Origin
  series : Option Nat
  state : BState
  holdExpiry : Option Nat
  graceExpiry : Option Nat
  check : CheckMark
  bufSlots : Nat
  bufState : BufState
  order : Option Nat
  run : Option Nat
  cancelMark : Bool
deriving DecidableEq, Repr

/-- R33, R169: what remains of a DAMAGED record: its id when some word of it is readable, its room and date when
its index entry is. `listed` is the id by which the draft index lists it (R74, R86, log 58). `own` and `run` are the model's
own: the id and run id of the record as it was, which no request, reply or notice shows, and by which a forget finds what
it ends (R34, R36, R145, R163, R176, log 78). -/
structure Damaged where
  id : Option Nat
  place : Option (Nat × Date)
  listed : Option Nat
  own : Nat
  run : Option Nat
deriving DecidableEq, Repr

/-- R32, R33: the contents of an occupied record slot, by its condition. -/
inductive RecSlot where
  | sound (r : Record)
  | damaged (d : Damaged)
deriving DecidableEq, Repr

/-- R36: an entry of the hold list; `spent` marks an expiry whose minute event was already taken when the hold was
made (R37: a hold taken at minute 1439), so that the next minute event lapses it. -/
structure HoldEntry where
  id : Nat
  expiry : Nat
  spent : Bool
deriving DecidableEq, Repr

/-- R60. -/
structure Series where
  id : Nat
  room : Nat
  start : Nat
  count : Nat
  mask : List Weekday
  first : Date
  last : Option Date
  firstReached : Bool
  lastReached : Bool
  organiser : HostRef
  attendees : Nat
  label : Option Label
  made : Nat
  skipped : Nat
deriving DecidableEq, Repr

/-- R74, R75: a draft row with its store place and damaged mark; `freed` lists the marked records whose cells were freed
in it (R78, R79, R81). -/
structure DraftRow where
  room : Nat
  date : Date
  base : Half
  place : Nat
  cells : List Cell
  damaged : Bool
  freed : List Nat
deriving DecidableEq, Repr

/-- R74: the draft index. -/
structure Draft where
  rows : Table DraftRow
  records : List Nat
  marked : List Nat
  damaged : Bool
deriving DecidableEq, Repr

/-- R175: a REBUILD_ROW request waiting for a rebuild. -/
structure Waiter where
  ctx : Ctx
  room : Nat
  date : Date
deriving DecidableEq, Repr

structure Bke where
  rooms : Table Room
  holdMinutes : Nat
  horizon : Option Horizon
  rows : Table Row
  records : Table RecSlot
  lastId : Nat
  holds : List HoldEntry
  series : Table Series
  lastSeries : Nat
  readEdition : Edition
  writeEdition : Edition
  draft : Draft
  waiters : List Waiter
  guard : List Nat
deriving DecidableEq, Repr

/-! ## Book Store and Scrub Unit -/

/-- R168: the words in error of one item; `known` marks an uncorrectable word that has been found already (log 12). -/
structure ItemErr where
  item : StoreItem
  soft : Nat
  hard : Bool
  tagLost : Bool
  known : Bool
deriving DecidableEq, Repr

/-- R178. -/
inductive ReadPath where
  | demand | patrol | rebuild
deriving DecidableEq, Repr

structure Bss where
  corrected : Nat
  uncorrectable : Nat
  passes : Nat
  position : Nat
  errors : List ItemErr
deriving DecidableEq, Repr

/-! ## Sequence Unit -/

inductive StepMark where
  | waiting | due | fired | dropped
deriving DecidableEq, Repr

/-- R154. -/
structure RunStep where
  step : StepDef
  due : Option Nat
  mark : StepMark
  firedAt : Option Nat
deriving DecidableEq, Repr

inductive RunState where
  | armed | running | done | aborted
deriving DecidableEq, Repr

/-- R154; `fromCheckin` is the basis FROM_CHECKIN. -/
structure Run where
  id : Nat
  booking : Nat
  template : Nat
  date : Date
  room : Nat
  startMinute : Nat
  endMinute : Nat
  fromCheckin : Bool
  checkinMinute : Option Nat
  steps : List RunStep
  state : RunState
deriving DecidableEq, Repr

structure Squ where
  templates : Table Template
  runs : Table Run
  lastRun : Nat
  horizon : Option Horizon
  minute : Option Nat
  catchUps : List Nat
deriving DecidableEq, Repr

/-! ## Station Bus Controller: what other blocks also name -/

inductive StationState where
  | absent | online | faulted | mismatch
deriving DecidableEq, Repr

inductive StateCause where
  | found | mismatch | fault | reset | config
deriving DecidableEq, Repr

inductive CallKind where
  | void | pickupCall
deriving DecidableEq, Repr

/-- R91, R103, R141; `serial` is the order's own number of the model (R148, log 42). -/
structure Call where
  kind : CallKind
  order : Nat
  serial : Nat
deriving DecidableEq, Repr

/-! ## Catering Scheduler -/

/-- R130: remaining covers are `capacity - committed`. -/
structure CapEntry where
  kitchen : Nat
  date : Date
  window : Nat
  capacity : Nat
  committed : Nat
  closed : Bool
deriving DecidableEq, Repr

inductive OrderState where
  | waitlisted | confirmed | locked | ticketed | dispatched | delivered | cleared | cancelled | declined
  | writtenOff
deriving DecidableEq, Repr

inductive TicketMark where
  | none | pending | offered | sent
deriving DecidableEq, Repr

/-- R132: the booking as the CSC last took it; `state` none is REMOVED. -/
structure BookingCopy where
  date : Date
  room : Nat
  start : Nat
  count : Nat
  state : Option BState
  label : Option Label
deriving DecidableEq, Repr

/-- R132; `date` is the date on which the order's window and cut-off lie (the copy's date, or the new date of a MOVE
whose handed change the CSC has yet to take). `serial` is the model's own number of the placement, which tells an order
from a later one that takes its freed id (R148, log 42). -/
structure Order where
  id : Nat
  serial : Nat
  booking : Nat
  kitchen : Nat
  date : Date
  slot : Nat
  lines : List OrderLine
  cutOff : Nat
  fired : Bool
  state : OrderState
  ticket : TicketMark
  voidOwed : Bool
  copy : BookingCopy
deriving DecidableEq, Repr

/-- R129; `callOut` is the call taken into the terminal's call slot or in flight (R141), `known` the station state
the SBC last told (R151). -/
structure Kitchen where
  profile : List Nat
  cutOff : Nat
  terminal : Option (Nat × Nat)
  online : Bool
  session : BitVec 8
  unreachable : Bool
  ignored : Nat
  waitlist : List Nat
  tickets : List Nat
  calls : List Call
  callOut : Option Call
  known : Option StationState
deriving DecidableEq, Repr

/-- R129, R130, R132; `serial` is the number of the next placement (log 42). -/
structure Csc where
  kitchens : Table Kitchen
  horizon : Option Horizon
  minute : Option Nat
  lastOrder : Nat
  serial : Nat
  capacity : Table CapEntry
  orders : Table Order
  guard : List Nat
deriving DecidableEq, Repr

/-! ## Panel Page Unit -/

/-- R93, R113. -/
inductive Display where
  | notReady | dark | free | startingSoon | awaitingCheckin | inUse | released | closed | outOfService
deriving DecidableEq, Repr

/-- R110: the content of a page record, which is what the panel receives. -/
structure PageContent where
  display : Display
  walkup : Bool
  checkinOpen : Bool
  overlay : Nat
  group : Nat
  code : RoomCode
  endMinute : Option Nat
  nextMinute : Option Nat
  freeUntil : Option Nat
  label : Option Label
  nextLabel : Option Label
deriving DecidableEq, Repr

/-- R110: a page record, its inputs first. -/
structure Page where
  overlay : Nat
  release : Option Nat
  reference : CurSlot
  content : PageContent
  version : Half
deriving DecidableEq, Repr

inductive PageKind where
  | stage | display
deriving DecidableEq, Repr

/-- R111. -/
structure PanelView where
  segment : Nat
  address : Nat
  room : Nat
  session : BitVec 8
  online : Bool
  lastHanded : Option (Half × PageKind)
  awaiting : Bool
  staged : Option (Half × Nat)
  shown : Half
deriving DecidableEq, Repr

/-- R111, R120: a latch wait; `panels` are station keys, `ctx` the LATCH_GROUPS it answers. -/
structure LatchWait where
  groups : List Nat
  panels : List Nat
  minutes : Nat
  ctx : Option Ctx
deriving DecidableEq, Repr

/-- R110 to R112; `coming` is the pre-boundary taken whose slot boundary has yet to be taken. -/
structure Ppu where
  rooms : Table Room
  groups : Table GroupItem
  horizon : Option Horizon
  darkPeriod : Bool
  coming : Option Nat
  pages : Table Page
  views : Table PanelView
  waits : List LatchWait
deriving DecidableEq, Repr

/-! ## Station Bus Controller -/

/-- R101: a page item; the body is the content in the layout of R93. -/
structure PageItem where
  kind : PageKind
  version : Half
  content : PageContent
deriving DecidableEq, Repr

inductive PanelEventKind where
  | checkIn | walkup | endMeeting | extend | cartArrived
deriving DecidableEq, Repr

/-- R91 RESULT. -/
structure ResultItem where
  event : PanelEventKind
  status : Status
  detail : Detail
  booking : Option Nat
deriving DecidableEq, Repr

/-- R140: the contents of a ticket, with the serial of its order (log 42). -/
structure Ticket where
  order : Nat
  serial : Nat
  code : Option RoomCode
  date : Date
  minute : Nat
  covers : Nat
  lines : List OrderLine
  label : Option Label
deriving DecidableEq, Repr

/-- R90; `pollDue` marks that the poll period has run out since the interval start (R98). -/
structure Station where
  segment : Nat
  address : Nat
  type : StationType
  binding : Nat
  state : StationState
  cause : Option StateCause
  session : BitVec 8
  sequence : Bool
  advertised : Nat
  credits : Nat
  pageSlot : Option PageItem
  results : List ResultItem
  resultsAwaited : Nat
  ticketSlot : Option Ticket
  callSlot : Option Call
  clearMark : Bool
  failures : Nat
  faults : Nat
  lastPoll : Option Nat
  delivered : Half × Option PageKind
  shown : Half
  pollStart : Option Nat
  pollDue : Bool
deriving DecidableEq, Repr

/-- R91, R92: frame kinds. -/
inductive FrameKind where
  | probe | poll | stagePage | showPage | latch | result | ticket | void | pickupCall | clear | probeAnswer
  | pollAnswer | ack
deriving DecidableEq, Repr

/-- R89, R91: what a transaction carries. -/
inductive Work where
  | latch (groups : List Nat)
  | clear
  | probe
  | poll
  | page (item : PageItem)
  | result (item : ResultItem)
  | ticket (t : Ticket)
  | call (c : Call)
deriving DecidableEq, Repr

/-- R89, R95: a transaction in flight: the address (0 in a LATCH), its work, the attempt 1-4 and its sequence bit. -/
structure Transaction where
  address : Nat
  work : Work
  attempt : Nat
  sequence : Bool
deriving DecidableEq, Repr

/-- One segment controller (R89, R97, R104, R105); `probeSent` is the elapsed-time base at its last PROBE, from which
the probe interval runs. -/
structure Segment where
  inFlight : Option Transaction
  mask : List Nat
  lastServed : Option Nat
  pointer : Option Nat
  probeReady : Bool
  probeSent : Option Nat
deriving DecidableEq, Repr

structure Segments where
  seg0 : Segment
  seg1 : Segment
  seg2 : Segment
  seg3 : Segment
deriving DecidableEq, Repr

structure Sbc where
  stations : Table Station
  pollPeriod : Nat
  segments : Segments
deriving DecidableEq, Repr

/-! ## Configuration Store -/

/-- R192: the committed set. -/
structure ConfigSet where
  rooms : Table RoomItem
  combined : Table (List Nat)
  kitchens : Table KitchenItem
  templates : Table Template
  stations : Table StationItem
  groups : Table GroupItem
  settings : Settings
deriving DecidableEq, Repr

/-- The blocks that take working tables (R197). -/
inductive TableOwner where
  | bke | sbc | ppu | csc | squ
deriving DecidableEq, Repr

/-- R197: counts of items added, changed and removed for one kind. -/
structure Tally where
  added : Nat
  changed : Nat
  removed : Nat
deriving DecidableEq, Repr

/-- R196: a commit in progress. -/
structure Commit where
  ctx : Ctx
  merged : ConfigSet
  puts : Nat
  tallies : List Tally
  written : Bool
  waiting : List TableOwner
deriving DecidableEq, Repr

structure Cfs where
  committed : ConfigSet
  complete : Bool
  commitNumber : Half
  valid : Bool
  staged : List PutBody
  commit : Option Commit
deriving DecidableEq, Repr

/-! ## What replies and notices carry -/

/-- R26, R37, R40, R46, R77, R79, R80: a placed span as replies give it. -/
structure Placed where
  id : Nat
  room : Nat
  code : Option RoomCode
  date : Date
  start : Nat
  count : Nat
  bufSlots : Nat
deriving DecidableEq, Repr

/-- R28: one entry of the cover list. -/
structure Cover where
  id : Nat
  start : Nat
  count : Nat
  buffer : Bool
deriving DecidableEq, Repr

/-- R25: what a CONFLICT names, with the host room code of its room (R15). -/
structure Clash where
  room : Nat
  code : Option RoomCode
  slot : Nat
  cell : Cell
  booking : Option Nat
deriving DecidableEq, Repr

/-- R29. -/
structure FoundRoom where
  room : Nat
  code : RoomCode
  kind : RoomKind
  building : Nat
  floor : Nat
  seats : Nat
deriving DecidableEq, Repr

/-- R65, R66: a skipped series date with its reason. -/
structure Skip where
  date : Date
  status : Status
  detail : Detail
  clash : Option Clash
deriving DecidableEq, Repr

/-- R82: one stale room-day. -/
structure StaleDay where
  room : Nat
  code : Option RoomCode
  date : Date
  base : Half
  version : Half
  marked : Option Nat
deriving DecidableEq, Repr

/-- R188, R190: the part identity. -/
inductive PartName where
  | cb384
deriving DecidableEq, Repr

/-- R13, R14. -/
inductive ClockState where
  | running | unset
deriving DecidableEq, Repr

/-- R107: a call slot as READ_STATION shows it. -/
structure CallView where
  kind : CallKind
  order : Nat
deriving DecidableEq, Repr

/-- R107: what READ_STATION shows of a station record, with the host room code of a panel's room and the transaction in
flight with its attempt. -/
structure StationView where
  type : StationType
  binding : Nat
  code : Option RoomCode
  state : StationState
  cause : Option StateCause
  session : BitVec 8
  advertised : Nat
  credits : Nat
  pageSlot : Option (PageKind × Half)
  delivered : Half × Option PageKind
  shown : Half
  results : Nat
  resultsAwaited : Nat
  ticketSlot : Option Nat
  callSlot : Option CallView
  clearMark : Bool
  failures : Nat
  faults : Nat
  lastPoll : Option Nat
  inFlight : Option (FrameKind × Nat)
deriving DecidableEq, Repr

/-- R132: the fields of an order as replies show them. -/
structure OrderView where
  id : Nat
  booking : Nat
  kitchen : Nat
  slot : Nat
  window : Nat
  lines : List OrderLine
  covers : Nat
  cutOff : Nat
  fired : Bool
  state : OrderState
  ticket : TicketMark
  voidOwed : Bool
  copy : BookingCopy
deriving DecidableEq, Repr

/-- R135: what the reply to a placement shows of the order. -/
structure PlacedOrderView where
  id : Nat
  booking : Nat
  kitchen : Nat
  slot : Nat
  window : Nat
  covers : Nat
  state : OrderState
  cutOff : Nat
  remaining : Nat
deriving DecidableEq, Repr

/-- R150: what READ_CAPACITY shows of a kitchen; the three lengths are those of its waitlist, pending list and call
list. -/
structure KitchenView where
  cutOff : Nat
  terminal : Option (Nat × Nat)
  online : Bool
  unreachable : Bool
  waitlist : Nat
  tickets : Nat
  calls : Nat
  ignored : Nat
deriving DecidableEq, Repr

/-- R150: one entry of a READ_CAPACITY reply. -/
structure CapacityView where
  window : Nat
  capacity : Nat
  committed : Nat
  remaining : Nat
  closed : Bool
deriving DecidableEq, Repr

/-- R127: what READ_PAGE shows of one panel. -/
structure PanelShown where
  segment : Nat
  address : Nat
  online : Bool
  session : BitVec 8
  lastHanded : Option (Half × PageKind)
  awaiting : Bool
  staged : Option Half
  shown : Half
deriving DecidableEq, Repr

/-- The named fields of reply bodies after status and detail; each constructor cites its rule. `ReplyData.bytes` places
what the rule lists of them, in its order. -/
inductive ReplyData where
  | none
  /-- R8. -/
  | clockSet (date : Date) (weekday : Weekday) (minute : Nat) (slot : CurSlot)
  /-- R10, R11. -/
  | trimmed (minute : Nat) (slot : CurSlot)
  /-- R13. -/
  | clock (state : ClockState) (date : Option (Date × Weekday)) (minute : Option Nat) (second : Nat) (reach : Option Nat)
      (slot window : Option CurSlot) (day13 : Option Date)
  /-- R15, R25: the room named by DAMAGED and BUSY. -/
  | room (room : Nat) (code : Option RoomCode)
  /-- R15, R82: the room-day named by BUSY. -/
  | roomDay (room : Nat) (code : Option RoomCode) (date : Date)
  /-- R25. -/
  | clash (c : Clash)
  /-- R26, R77: a closure. -/
  | closed (p : Placed)
  /-- R46, R80; `run` for R46. -/
  | placed (p : Placed) (run : Option Nat)
  /-- R28. -/
  | row (room : Nat) (r : Room) (date : Date) (offset : Nat) (edition : Edition) (state : RowState) (version : Half)
      (base : Option Half) (cells : List Cell) (covers : List Cover) (more : Bool)
  /-- R28 step 5. -/
  | damagedIds (ids : List Nat) (total : Nat)
  /-- R29. -/
  | found (rooms : List FoundRoom) (skipped : Nat) (next : Option Nat)
  /-- R37. -/
  | hold (p : Placed) (expiry : Nat)
  /-- R40, R77. -/
  | booked (p : Placed) (state : BState) (run : Option Nat)
  /-- R39, R41. -/
  | reached (id : Nat) (state : BState) (run : Option Nat)
  /-- R44, R78: `none` is REMOVED. -/
  | cancelled (id : Nat) (state : Option BState)
  /-- R79. -/
  | draftMoved (old : Nat) (p : Placed)
  /-- R78: OK/MARKED. -/
  | marked (id : Nat)
  /-- R52. -/
  | extended (start count bufSlots : Nat)
  /-- R53. -/
  | endedEarly (start count : Nat) (bufState : BufState)
  /-- R56. -/
  | booking (r : Record) (code : Option RoomCode)
  /-- R15, R56: a DAMAGED record. -/
  | damaged (id : Option Nat) (place : Option (Nat × Date)) (code : Option RoomCode)
  /-- R65. -/
  | seriesMade (id room : Nat) (code : Option RoomCode) (lastReached : Bool) (made skipped : Nat) (ids : List Nat)
      (skips : List Skip) (more : Bool)
  /-- R69. -/
  | seriesCancelled (id cancelled running terminal : Nat) (ids : List Nat)
  /-- R71. -/
  | series (s : Series) (code : Option RoomCode) (dates : List (Nat × Date × Option Nat × Nat × Nat × BState))
  /-- R72. -/
  | editions (read write : Edition)
  /-- R72 READ_EDITIONS. -/
  | draftState (read write : Edition) (damaged : Bool) (rows records marked : Nat)
  /-- R82. -/
  | stale (total : Nat) (days : List StaleDay)
  /-- R83. -/
  | runsNeeded (needed free : Nat)
  /-- R84. -/
  | published (rows live runs cancelled lapsed : Nat) (lapsedIds : List Nat)
  /-- R85. -/
  | discarded (rows records marks : Nat)
  /-- R106. -/
  | stationReset (segment address : Nat) (before : StationState)
  /-- R107. -/
  | station (s : StationView)
  /-- R121. -/
  | latched (groups : List Nat)
  /-- R127. -/
  | page (room : Nat) (p : Page) (latched dark darkPeriod : Bool) (panels : List PanelShown)
  /-- R135. -/
  | order (o : PlacedOrderView)
  /-- R15, R136: with the host room code of the booking copy's room. -/
  | orderChanged (o : OrderView) (code : Option RoomCode)
  /-- R150. -/
  | readOrder (o : OrderView) (minute : Nat) (code : Option RoomCode)
  | capacity (k : KitchenView) (entries : List CapacityView) (more : Bool)
  | waitlist (orders : List (Nat × Nat × Date × Nat × Nat))
  /-- R165. -/
  | run (r : Run) (code : Option RoomCode) (offset : Option Nat)
  /-- R175. -/
  | rebuilt (room : Nat) (code : Option RoomCode) (date : Date) (state : RowState) (version : Half) (counted : Nat)
  /-- R15, R176. -/
  | forgotten (id : Option Nat) (place : Option (Nat × Date)) (code : Option RoomCode) (rows : Nat)
  /-- R177. -/
  | scrub (passes position : Nat) (item : Nat × Nat) (isRow : Bool) (corrected uncorrectable : Nat)
      (rebuilding quarantined damaged unknownPlace : Nat) (draftDamaged : Bool)
  /-- R190. -/
  | identity (part : PartName) (revision : Nat) (valid : Bool) (lastReset : ResetKind) (occupied awaiting : Nat)
      (credit : Int) (tags replies notices : Nat) (batch : BatchState) (dropped rejected overruns clashes : Nat)
  /-- R193. -/
  | putIndex (index : Nat)
  /-- R194: the item, the following key under NEXT; for SETTINGS the early minutes, state and commit number. -/
  | item (i : Item) (following : Option ItemKey) (settings : Option (Nat × Bool × Half))
deriving DecidableEq, Repr

/-- Status, detail and named fields of a reply (00, Reply statuses). -/
structure Answer where
  status : Status
  detail : Detail
  data : ReplyData
deriving DecidableEq, Repr

inductive FrameCheck where
  | kind | length | size | mark | tag | check
deriving DecidableEq, Repr

inductive ClockCause where
  | set | trim (amount : Int)
deriving DecidableEq, Repr

inductive LapseCause where
  | expired | ended
deriving DecidableEq, Repr

inductive NoShowCause where
  | grace | ended
deriving DecidableEq, Repr

inductive OrderCause where
  | host | scan | cutOff | terminal | cart | bookingCancel | bookingRelease | bookingEnd | bookingForget | move
  | retire
deriving DecidableEq, Repr

/-- R15, R151. -/
inductive OrderMark where
  | none | wrongRoom (panelRoom : Nat) (code : Option RoomCode) | unresolved
deriving DecidableEq, Repr

inductive StoreEffect where
  | rowRebuilding | rebuildRestarted | recordDamaged | draftDamaged
deriving DecidableEq, Repr

inductive ItemKind where
  | row | draftRow | record | index
deriving DecidableEq, Repr

inductive RowCause where
  | storeError | recordDamaged | hostRequest | forget | rebuilt | dayRetired
deriving DecidableEq, Repr

/-- R126: what PANEL_ACTION carries. -/
structure PanelAction where
  segment : Nat
  address : Nat
  room : Nat
  code : Option RoomCode
  event : StationEvent
  status : Status
  detail : Detail
  subject : Option Nat
  span : Option (Nat × Nat)
deriving DecidableEq, Repr

/-- The notices of section 11.7 with their named fields after the "dropped before" count, in the order of their
codes; CREDIT (65) is never queued (R183). -/
inductive Notice where
  /-- R188. -/
  | hello (part : PartName) (revision : Nat) (credit : Int) (valid : Bool) (kind : ResetKind)
  /-- R182. -/
  | frameRejected (received freed : Nat) (failed : FrameCheck)
  | overrun (tag code length occupied tags : Nat)
  | tagClash (tag code : Nat)
  /-- R14. -/
  | clockState (state : ClockState) (date : Date) (weekday : Weekday) (minute : Nat) (slot : CurSlot) (reach : Nat)
      (cause : ClockCause)
  | dayOpened (today : Date) (weekday : Weekday) (day13 : Date)
  /-- R38. -/
  | holdLapsed (id room : Nat) (code : Option RoomCode) (date : Date) (start count : Nat) (organiser : HostRef)
      (cause : LapseCause)
  /-- R49, R50. -/
  | noShow (id room : Nat) (code : Option RoomCode) (date : Date) (start count : Nat) (organiser : HostRef)
      (cause : NoShowCause)
  /-- R126. -/
  | walkup (id room : Nat) (code : Option RoomCode) (start count bufSlots segment address : Nat)
  | panelAction (a : PanelAction)
  /-- R66. -/
  | seriesSkip (series : Nat) (offset room : Nat) (code : Option RoomCode) (organiser : HostRef) (skip : Skip)
      (skipped : Nat)
  /-- R108: `new` none is REMOVED; `reported` for MISMATCH, `frame` for FAULT; `code` for a panel's room (R15). -/
  | stationState (segment address : Nat) (type : StationType) (binding : Nat) (code : Option RoomCode)
      (old : StationState) (new : Option StationState) (cause : StateCause) (faults : Nat) (reported : Option (StationType × Nat))
      (frame : Option FrameKind)
  /-- R151. -/
  | orderState (order booking kitchen : Nat) (date : Date) (slot window covers : Nat) (old : Option OrderState)
      (new : OrderState) (cause : OrderCause) (mark : OrderMark)
  | kitchenUnreachable (kitchen : Nat) (terminal : Option (Nat × Nat)) (known : Option StationState)
      (tickets calls : Nat)
  /-- R166. -/
  | runStep (run booking room : Nat) (code : Option RoomCode) (date : Date) (step stepCode : Nat) (anchor : Anchor)
      (offset : Int) (due fired : Nat) (catchUp : Bool)
  /-- R178. -/
  | storeError (path : ReadPath) (kind : ItemKind) (place : Option (Nat × Date)) (code : Option RoomCode)
      (offset : Option Nat) (id : Option Nat) (slot : Option Nat) (effect : StoreEffect) (count : Nat)
  | rowState (room : Nat) (code : Option RoomCode) (date : Date) (offset : Option Nat) (old new : RowState)
      (cause : RowCause) (version : Half) (counted : Option (Nat × Option Nat))
  /-- R197, R198: `applied` is false for DISCARDED, and the list of counts then empty (log 114). -/
  | configApplied (applied : Bool) (commitNumber : Half) (puts : Nat) (tallies : List Tally)
deriving DecidableEq, Repr

/-- R180, R182, R186: a frame in the outbound queue, as its named fields (log 5). -/
inductive OutFrame where
  | reply (ctx : Ctx) (answer : Answer)
  /-- R182: OVERRUN in its reply form: status FULL and the detail BUFFER or TAGS. -/
  | overrun (mark : Mark) (detail : Detail) (arrived code length occupied tags : Nat)
  | notice (droppedBefore : Nat) (n : Notice)
deriving DecidableEq, Repr

/-- R189. -/
inductive RestartState where
  | none | pending (ctx : Ctx) | answered
deriving DecidableEq, Repr

/-- R190: the occupied, awaiting-return and host credit counts as a READ_IDENTITY finds them when it is taken. -/
structure LinkCounts where
  occupied : Nat
  awaiting : Nat
  credit : Int
deriving DecidableEq, Repr

/-- The reply side of the HMP (11, R184 to R190). -/
structure Hmp where
  tags : List Nat
  out : List OutFrame
  held : List Ctx
  batch : BatchState
  dropped : Nat
  rejected : Nat
  overruns : Nat
  clashes : Nat
  helloPosted : Bool
  restart : RestartState
  resetKind : ResetKind
  taken : LinkCounts
deriving DecidableEq, Repr

/-! ## What the blocks hand to each other -/

/-- R43: the changes the PPU is told of. -/
inductive ChangeKind where
  | holdCreated | lapsed | confirmed | started | checkedIn | retimed | moved | ended | releasedGrace | releasedEnd
  | cancelled | buffer | walkup | closure
deriving DecidableEq, Repr

/-- R43, R118: `before` is the old room and date of a MOVE, `panel` the asking room of a panel-originated change. -/
structure BookingNews where
  kind : ChangeKind
  room : Nat
  date : Date
  before : Option (Nat × Date)
  panel : Option Nat
deriving DecidableEq, Repr

/-- R43, R84, R172. -/
inductive PpuNews where
  | change (n : BookingNews)
  | rowState (room : Nat)
  | published (rooms : List Nat)
deriving DecidableEq, Repr

/-- R43, R145, R146. -/
inductive CscChange where
  | started (state : BState)
  | extended (count : Nat)
  | endedEarly (count : Nat)
  | moved (room : Nat) (date : Date) (start count : Nat)
  | cancelled
  | released
  | forgotten
deriving DecidableEq, Repr

/-- R43, R145: a change names the booking id, by which the CSC finds the order (8.7). -/
structure CscNews where
  booking : Nat
  change : CscChange
deriving DecidableEq, Repr

/-- R160; `run` is the run id that the booking record holds when the report is handed. -/
structure CheckinReport where
  booking : Nat
  run : Option Nat
  minute : Nat
deriving DecidableEq, Repr

/-- R158: the actions handed to the PPU. -/
inductive PpuAction where
  | overlay (room message : Nat)
  | clearOverlay (room : Nat)
  | latch (room : Nat)
deriving DecidableEq, Repr

/-- R125: a relayed panel event with the station and session it came from. -/
structure PanelClaim where
  segment : Nat
  address : Nat
  session : BitVec 8
  room : Nat
  event : StationEvent
deriving DecidableEq, Repr

/-- R54, R55, R125: the outcome of a panel event; `placed` for an accepted WALKUP, END or EXTEND. -/
structure PanelAnswer where
  claim : PanelClaim
  status : Status
  detail : Detail
  subject : Option Nat
  placed : Option Placed
deriving DecidableEq, Repr

/-- R134: an order placement claim. -/
structure PlacementClaim where
  ctx : Ctx
  fields : OrderFields
deriving DecidableEq, Repr

/-- What the PPU hands the SBC. -/
inductive SbcItem where
  | page (segment address : Nat) (item : PageItem)
  | result (segment address : Nat) (session : BitVec 8) (item : ResultItem)
  | latch (groups : List Nat)
deriving DecidableEq, Repr

/-- R123: a change of a panel's link as the SBC tells it. -/
inductive LinkChange where
  | online (session : BitVec 8)
  | offline
  | removed
  | added (room : Nat)
  | rebound (room : Nat)
deriving DecidableEq, Repr

/-- What the SBC hands the PPU for one segment. -/
inductive PpuReport where
  | link (address : Nat) (change : LinkChange)
  | delivered (address : Nat) (version : Half) (kind : PageKind) (group : Nat)
  | refused (address : Nat)
  | broadcast (groups : List Nat) (panels : List (Nat × BitVec 8))
  | shown (address : Nat) (session : BitVec 8) (version : Half)
  | event (address : Nat) (session : BitVec 8) (room : Nat) (event : StationEvent)
  | unsent (address : Nat)
deriving DecidableEq, Repr

/-- What the SBC hands the CSC for one segment; `state` none is REMOVED or rebound away. -/
inductive CscReport where
  | link (kitchen : Nat) (session : Option (BitVec 8)) (state : Option StationState)
  | ticketDelivered (kitchen order serial : Nat)
  | ticketBack (kitchen order serial : Nat)
  | callDelivered (kitchen : Nat) (call : Call)
  | callBack (kitchen : Nat) (call : Call)
  | slotFree (kitchen : Nat) (ticket : Bool)
  | event (kitchen address : Nat) (session : BitVec 8) (event : StationEvent)
deriving DecidableEq, Repr

/-- R170: a patrol report. -/
structure StoreReport where
  item : StoreItem
deriving DecidableEq, Repr

/-- Everything handed from one block to another and not yet taken; each list first in, first out. -/
structure Mail where
  requests : List Handed
  bkeEvents : List TimeEvent
  ppuEvents : List TimeEvent
  cscEvents : List TimeEvent
  squEvents : List TimeEvent
  bkeToPpu : List PpuNews
  bkeToCsc : List CscNews
  bkeToSqu : List CheckinReport
  squToPpu : List PpuAction
  squToCsc : List Nat
  squToBke : List Nat
  ppuToBke : List PanelClaim
  ppuToCsc : List PanelClaim
  bkeToPanel : List PanelAnswer
  cscToPanel : List PanelAnswer
  cscToBke : List PlacementClaim
  ppuToSbc : List SbcItem
  sbcToPpu : List (Nat × PpuReport)
  sbcToCsc : List (Nat × CscReport)
  ticketOffers : List Nat
  callOffers : List Nat
  bssToBke : List StoreReport
deriving DecidableEq, Repr

/-- The Campus Time Unit (01); `setting` keeps the SET_CLOCK to answer with the clock as it set it (R8). -/
structure Ctu where
  clock : Option Clock
  second : Nat
  elapsed : Nat
  minutesDue : Nat
  setting : Option (Ctx × Clock)
  trimming : Option (Ctx × Int)
  opening : Bool
deriving DecidableEq, Repr

/-- The blocks whose claims share the book and the host's replies. -/
structure Book where
  hmp : Hmp
  mail : Mail
  cfs : Cfs
  bke : Bke
  bss : Bss
  squ : Squ
  csc : Csc
deriving DecidableEq, Repr

/-! ## Link side of the HMP -/

/-- R181: the write select in progress. -/
structure Arriving where
  header : List Byte
  credited : Bool
deriving DecidableEq, Repr

/-- R182: an accepted frame; `reading` is what its body region stands for (log 3). -/
structure InFrame where
  tag : Nat
  code : Nat
  mark : Mark
  length : Nat
  reading : Option Request
deriving DecidableEq, Repr

/-- R183: what a read select yields. -/
inductive Yield where
  | frame (f : OutFrame)
  | credit
  | nothing
deriving DecidableEq, Repr

structure ReadSelect where
  yield : Yield
  credit : Nat
deriving DecidableEq, Repr

structure Link where
  arriving : Option Arriving
  inbound : List InFrame
  occupied : Nat
  awaitingReturn : Nat
  hostCredit : Int
  reading : Option ReadSelect
deriving DecidableEq, Repr

end Sys2Proof.Machine
end

