-- ==== Sys2Proof/Machine/State.lean ====
section
/-! DEFINITION. The state of the part with its queue of waiting commands, the reasons a step can stop, and the
state right after a power-on reset of a part whose nonvolatile memory holds no set. -/

namespace Sys2Proof.Machine

/-- Nothing the spec describes stops the part: what it calls a refusal is a reply, what it calls damage a record or
row condition, and a silent station is FAULTED. So no command raises a fault; this type is empty (safe: nothing is
left out by it). -/
inductive Fault where
deriving DecidableEq, Repr

/-- The one refusal of the host's interface. -/
inductive Refusal where
  /-- Raised by the refused arms of `exec` alone, for a row of the table that has no meaning yet; no arm is refused,
  so no command raises it (safe). -/
  | notModelled (mnemonic : String)
deriving DecidableEq, Repr

/-- The part and the queue of commands. `link` is the link side of the HMP, `book` the blocks whose claims share
the book and the host's replies (HMP, BKE, BSS, SQU, CSC, CFS and everything handed between blocks). -/
structure State where
  pending : List Instr
  link : Link
  ctu : Ctu
  book : Book
  ppu : Ppu
  sbc : Sbc
deriving DecidableEq, Repr

/-- R181, R188: the link side after either reset. -/
def Link.reset : Link :=
  { arriving := none, inbound := [], occupied := 0, awaitingReturn := 0, hostCredit := Config.linkBlocks,
    reading := none }

/-- R1, R3: the CTU after either reset. -/
def Ctu.reset : Ctu :=
  { clock := none, second := 0, elapsed := 0, minutesDue := 0, setting := none, trimming := none, opening := false }

/-- R188: the reply side of the HMP after a reset of the given kind. -/
def Hmp.reset (kind : ResetKind) : Hmp :=
  { tags := [], out := [], held := [], batch := .none, dropped := 0, rejected := 0, overruns := 0, clashes := 0,
    helloPosted := false, restart := .none, resetKind := kind,
    taken := { occupied := 0, awaiting := 0, credit := Config.linkBlocks } }

/-- Nothing is handed between blocks after a reset (R1: events not yet taken are lost). -/
def Mail.reset : Mail :=
  { requests := [], bkeEvents := [], ppuEvents := [], cscEvents := [], squEvents := [], bkeToPpu := [],
    bkeToCsc := [], bkeToSqu := [], squToPpu := [], squToCsc := [], squToBke := [], ppuToBke := [],
    ppuToCsc := [], bkeToPanel := [], cscToPanel := [], cscToBke := [], ppuToSbc := [], sbcToPpu := [],
    sbcToCsc := [], ticketOffers := [], callOffers := [], bssToBke := [] }

/-- R74. -/
def Draft.empty : Draft := { rows := ⟨[]⟩, records := [], marked := [], damaged := false }

/-- R18, R32, R34, R36, R59, R72, R74: the BKE after either reset, with the working tables given. -/
def Bke.reset (rooms : Table Room) (holdMinutes : Nat) : Bke :=
  { rooms := rooms, holdMinutes := holdMinutes, horizon := none, rows := ⟨[]⟩, records := ⟨[]⟩, lastId := 0,
    holds := [], series := ⟨[]⟩, lastSeries := 0, readEdition := .live, writeEdition := .live,
    draft := Draft.empty, waiters := [], guard := [] }

/-- R167. -/
def Bss.reset : Bss := { corrected := 0, uncorrectable := 0, passes := 0, position := 0, errors := [] }

/-- R153. -/
def Squ.reset (templates : Table Template) : Squ :=
  { templates := templates, runs := ⟨[]⟩, lastRun := 0, horizon := none, minute := none, catchUps := [] }

/-- R129, R130, R132. The serial of the first placement is 0, the model's choice (DESIGN CHOICE, log 42). -/
def Csc.reset (kitchens : Table Kitchen) : Csc :=
  { kitchens := kitchens, horizon := none, minute := none, lastOrder := 0, serial := 0, capacity := ⟨[]⟩,
    orders := ⟨[]⟩, guard := [] }

/-- R110, R111. -/
def Ppu.reset (rooms : Table Room) (groups : Table GroupItem) (pages : Table Page) (views : Table PanelView) : Ppu :=
  { rooms := rooms, groups := groups, horizon := none, darkPeriod := false, coming := none, pages := pages,
    views := views, waits := [] }

/-- R89, R97, R104, R105: a segment controller after either reset; its probe interval counts as run out. -/
def Segment.reset : Segment :=
  { inFlight := none, mask := [], lastServed := none, pointer := none, probeReady := true, probeSent := none }

/-- R90. -/
def Sbc.reset (stations : Table Station) (pollPeriod : Nat) : Sbc :=
  { stations := stations, pollPeriod := pollPeriod,
    segments := { seg0 := Segment.reset, seg1 := Segment.reset, seg2 := Segment.reset, seg3 := Segment.reset } }

/-- R191, R192: no items, and the factory settings. -/
def ConfigSet.blank : ConfigSet :=
  { rooms := ⟨[]⟩, combined := ⟨[]⟩, kitchens := ⟨[]⟩, templates := ⟨[]⟩, stations := ⟨[]⟩, groups := ⟨[]⟩,
    settings := Config.factory }

/-- DESIGN CHOICE (log 6): nonvolatile memory that holds no set, as a part comes from the factory. -/
def Cfs.blank : Cfs :=
  { committed := ConfigSet.blank, complete := false, commitNumber := 0, valid := false, staged := [],
    commit := none }

/-- The part right after a power-on reset whose load found no set (R191: BLANK, every working table empty), before
HELLO is posted (R188). -/
def State.reset : State :=
  { pending := []
    link := Link.reset
    ctu := Ctu.reset
    book :=
      { hmp := Hmp.reset .powerOn, mail := Mail.reset, cfs := Cfs.blank,
        bke := Bke.reset ⟨[]⟩ Config.factory.holdMinutes, bss := Bss.reset, squ := Squ.reset ⟨[]⟩,
        csc := Csc.reset ⟨[]⟩ }
    ppu := Ppu.reset ⟨[]⟩ ⟨[]⟩ ⟨[]⟩ ⟨[]⟩
    sbc := Sbc.reset ⟨[]⟩ Config.factory.pollPeriod }

end Sys2Proof.Machine
end

