-- ==== Sys2Proof/Machine/Calendar.lean ====
section
/-! DEFINITION. Campus time: the calendar of R2 and R7, slots and boundaries (section 1.2), the horizon of R6. -/

namespace Sys2Proof

/-- R2: February has 29 days in years divisible by 4. -/
def leapYear (year : Nat) : Bool := year % 4 == 0

/-- R2; 0 for a month outside 1-12. -/
def monthLength (year month : Nat) : Nat :=
  match month with
  | 1 => 31 | 2 => if leapYear year then 29 else 28 | 3 => 31 | 4 => 30 | 5 => 31 | 6 => 30
  | 7 => 31 | 8 => 31 | 9 => 30 | 10 => 31 | 11 => 30 | 12 => 31 | _ => 0

/-- R1: a valid calendar date (year 00-99, month 1-12, day 1 to the month's length). -/
def Date.valid (d : Date) : Bool :=
  decide (d.year ≤ 99) && decide (1 ≤ d.month) && decide (d.month ≤ 12) && decide (1 ≤ d.day) &&
    decide (d.day ≤ monthLength d.year d.month)

/-- R2: the date after `d`; year 99 is followed by year 00. -/
def Date.next (d : Date) : Date :=
  if d.day < monthLength d.year d.month then { d with day := d.day + 1 }
  else if d.month < 12 then { d with month := d.month + 1, day := 1 }
  else { year := (d.year + 1) % 100, month := 1, day := 1 }

/-- R2: SUNDAY is followed by MONDAY. -/
def Weekday.next : Weekday → Weekday
  | .monday => .tuesday | .tuesday => .wednesday | .wednesday => .thursday | .thursday => .friday
  | .friday => .saturday | .saturday => .sunday | .sunday => .monday

/-- Days in the months of `year` before `month`. -/
def daysBeforeMonth (year : Nat) : Nat → Nat
  | 0 => 0
  | 1 => 0
  | m + 2 => daysBeforeMonth year (m + 1) + monthLength year (m + 1)

/-- R7: days from 1 January of year 00 under the month lengths of R2. -/
def Date.dayNumber (d : Date) : Nat :=
  365 * d.year + (d.year + 3) / 4 + daysBeforeMonth d.year d.month + (d.day - 1)

/-- R7: 1 January of year 00 is a SATURDAY. -/
def Date.weekday (d : Date) : Weekday :=
  match d.dayNumber % 7 with
  | 0 => .saturday | 1 => .sunday | 2 => .monday | 3 => .tuesday | 4 => .wednesday | 5 => .thursday | _ => .friday

/-- `n` days after `d`. -/
def Date.after (d : Date) : Nat → Date
  | 0 => d
  | n + 1 => d.next.after n

/-- A date as part of a key: dates are compared by equality only (R6). -/
def Date.key (d : Date) : Nat := (d.year * 16 + d.month) * 32 + d.day

end Sys2Proof

namespace Sys2Proof.Machine

/-- The `n` consecutive dates from `d` with their weekdays. -/
def daysFrom (d : Date) (w : Weekday) : Nat → List (Date × Weekday)
  | 0 => []
  | n + 1 => (d, w) :: daysFrom d.next w.next n

/-- R6: the 14 dates of a horizon copy with their weekdays, by rising day offset. -/
def Horizon.days (h : Horizon) : List (Date × Weekday) := daysFrom h.today h.weekday Config.horizonDays

def Horizon.dates (h : Horizon) : List Date := h.days.map (·.1)

/-- The place of `d` in a list of dates. -/
def placeOf (d : Date) : List Date → Option Nat
  | [] => none
  | x :: l => if x = d then some 0 else (placeOf d l).map (· + 1)

/-- R6: a date equal to one of the 14 has the day offset of that date; any other date is outside the horizon. -/
def Horizon.offset (h : Horizon) (d : Date) : Option Nat := placeOf d h.dates

/-- R6: the date of day offset 13. -/
def Horizon.last (h : Horizon) : Date := h.today.after 13

/-- R12: the weekday 13 days after a weekday. -/
def weekday13 (w : Weekday) : Weekday := w.next.next.next.next.next.next

/-- R6, R12: the horizon copy of a recipient that takes a day open with the new today and the weekday of the date opened
as day offset 13; two weeks separate that date from yesterday. -/
def Horizon.dayOpened (today : Date) (openedWeekday : Weekday) : Horizon :=
  { today := today, weekday := openedWeekday.next }

/-- Section 1.2: boundary `b` falls at minute 360 + 15b. -/
def boundaryMinute (b : Nat) : Nat := 360 + 15 * b

/-- R4: the boundary number when an event of the given first minute (360 or 359) is due at minute `x`. -/
def boundaryAt (first x : Nat) : Option Nat :=
  if first ≤ x ∧ (x - first) % 15 = 0 ∧ (x - first) / 15 ≤ 64 then some ((x - first) / 15) else none

/-- R4: slot boundary `b` with the slot it begins and the slot it ends (section 1.2). -/
def boundaryEvent (b : Nat) : EventKind :=
  .slotBoundary b (if b ≤ 63 then some b else none) (if 1 ≤ b then some (b - 1) else none)

/-- R5: the current slot, from the last slot boundary delivered today. -/
def slotOfBoundary : Option Nat → CurSlot
  | none => .beforeDay
  | some b => if b ≤ 63 then .slot b else .afterDay

/-- R5: the current window. -/
def windowOfBoundary : Option Nat → CurSlot
  | none => .beforeDay
  | some b => if b ≤ 63 then .slot (b / 2) else .afterDay

/-- The clock's last boundary delivered today; none in UNSET. -/
def Ctu.lastBoundary (t : Ctu) : Option Nat := t.clock.bind (·.lastBoundary)

/-- R5. -/
def Ctu.slot (t : Ctu) : CurSlot := slotOfBoundary t.lastBoundary

/-- The minute the CTU holds; 0 in UNSET, where no block that reads it holds a horizon. -/
def Ctu.minute (t : Ctu) : Nat := (t.clock.map (·.minute)).getD 0

/-- The reach mark the CTU holds; 0 in UNSET. -/
def Ctu.reach (t : Ctu) : Nat := (t.clock.map (·.reach)).getD 0

/-- R5: boundary `b` counts as delivered today when the last boundary delivered is at or after it. -/
def Ctu.delivered (t : Ctu) (b : Nat) : Bool :=
  match t.lastBoundary with
  | none => false
  | some l => decide (b ≤ l)

/-- R41: boundary `b` has been delivered today or lies at or below the reach mark. -/
def Ctu.passed (t : Ctu) (b : Nat) : Bool := t.delivered b || decide (boundaryMinute b ≤ t.reach)

/-- A span lies inside the day when its last slot is no later than slot 63 (00, Campus time). -/
def spanInDay (start count : Nat) : Bool := decide (1 ≤ count) && decide (start ≤ 63) && decide (start + count ≤ 64)

end Sys2Proof.Machine
end

