-- ==== Sys2Proof/Machine/Ops.lean ====
section
/-! DEFINITION. The shared operations: keyed tables, cells of a row, small list operations, and the one way a
notice is posted and a reply is posted (R186, R187). A block has no exception entry: what the spec calls a refusal
is a reply, and posting it is the operation here. -/

namespace Sys2Proof

/-! ## Keyed tables -/

def findKey {α : Type} (k : Nat) : List (Nat × α) → Option α
  | [] => none
  | (i, a) :: l => if i = k then some a else findKey k l

def putKey {α : Type} (k : Nat) (a : α) : List (Nat × α) → List (Nat × α)
  | [] => [(k, a)]
  | (i, x) :: l =>
    if k < i then (k, a) :: (i, x) :: l
    else if k = i then (k, a) :: l
    else (i, x) :: putKey k a l

def dropKey {α : Type} (k : Nat) : List (Nat × α) → List (Nat × α)
  | [] => []
  | (i, x) :: l => if i = k then dropKey k l else (i, x) :: dropKey k l

/-- The keys rise strictly from above `low`. -/
def risingFrom {α : Type} (low : Nat) : List (Nat × α) → Bool
  | [] => true
  | (i, _) :: l => decide (low ≤ i) && risingFrom (i + 1) l

/-- The canonical form of a table: keys strictly rising, so that equal tables are equal data. -/
def Table.wf {α : Type} (t : Table α) : Bool := risingFrom 0 t.entries

def Table.find {α : Type} (t : Table α) (k : Nat) : Option α := findKey k t.entries

def Table.put {α : Type} (t : Table α) (k : Nat) (a : α) : Table α := ⟨putKey k a t.entries⟩

def Table.drop {α : Type} (t : Table α) (k : Nat) : Table α := ⟨dropKey k t.entries⟩

def Table.has {α : Type} (t : Table α) (k : Nat) : Bool := (t.find k).isSome

def Table.size {α : Type} (t : Table α) : Nat := t.entries.length

def Table.keys {α : Type} (t : Table α) : List Nat := t.entries.map (·.1)

def Table.values {α : Type} (t : Table α) : List α := t.entries.map (·.2)

/-- Every value changed in place. -/
def Table.mapValues {α β : Type} (f : Nat → α → β) (t : Table α) : Table β :=
  ⟨t.entries.map fun e => (e.1, f e.1 e.2)⟩

/-- The entries whose value passes. -/
def Table.keep {α : Type} (p : α → Bool) (t : Table α) : Table α := ⟨t.entries.filter fun e => p e.2⟩

/-- A table of the pairs given, later ones replacing earlier ones of the same key. -/
def Table.ofList {α : Type} (l : List (Nat × α)) : Table α := l.foldl (fun t e => t.put e.1 e.2) ⟨[]⟩

/-- Change the value at a key, when there is one. -/
def Table.modify {α : Type} (t : Table α) (k : Nat) (f : α → α) : Table α :=
  match t.find k with
  | none => t
  | some a => t.put k (f a)

end Sys2Proof

namespace Sys2Proof.Machine

/-- The key of a room-day in the tables of rows and draft rows. -/
def rowKey (room : Nat) (d : Date) : Nat := room * 65536 + d.key

/-- The key of a capacity entry (R130). -/
def capKey (kitchen : Nat) (d : Date) (window : Nat) : Nat := (kitchen * 65536 + d.key) * 64 + window

/-- The key of a station: segment then address order (R90). -/
def stationKey (segment address : Nat) : Nat := segment * 64 + address

/-! ## Small list operations -/

/-- The first element that passes, and the list without it. -/
def takeFirst {α : Type} (p : α → Bool) : List α → Option (α × List α)
  | [] => none
  | a :: l =>
    if p a then some (a, l)
    else match takeFirst p l with
      | none => none
      | some (x, rest) => some (x, a :: rest)

/-- Insert before the first element whose rank is greater. -/
def insertBy {α : Type} (rank : α → Nat) (a : α) : List α → List α
  | [] => [a]
  | x :: l => if rank a < rank x then a :: x :: l else x :: insertBy rank a l

/-- Stable sort by rising rank. -/
def sortBy {α : Type} (rank : α → Nat) (l : List α) : List α := l.foldl (fun acc a => insertBy rank a acc) []

/-- The lowest number of `from, from+1, …` (at most `fuel` of them) that is not in `used`. -/
def firstFree (used : List Nat) : Nat → Nat → Nat
  | _, 0 => 0
  | n, fuel + 1 => if used.contains n then firstFree used (n + 1) fuel else n

/-- R34, R59, R132, R153: the value after the last-allocated one, the value after `top` being 1, passing over any in
use; `fuel` bounds the search by the number in use. -/
def nextId (used : List Nat) (top : Nat) : Nat → Nat → Nat
  | last, 0 => if last < top then last + 1 else 1
  | last, fuel + 1 =>
    let n := if last < top then last + 1 else 1
    if used.contains n then nextId used top n fuel else n

/-- Add one, staying at `top` once it is reached. -/
def bump (top n : Nat) : Nat := if n < top then n + 1 else top

/-- The first answer whose condition holds: a list of checks in the order a rule gives them. -/
def firstFail {α : Type} : List (Bool × α) → Option α
  | [] => none
  | (true, a) :: _ => some a
  | (false, _) :: l => firstFail l

/-! ## Cells of a row -/

def paintFrom (c : Cell) (start stop : Nat) : Nat → List Cell → List Cell
  | _, [] => []
  | i, x :: l => (if start ≤ i ∧ i < stop then c else x) :: paintFrom c start stop (i + 1) l

/-- Set `count` cells from `start` to `c`. -/
def paint (c : Cell) (start count : Nat) (cells : List Cell) : List Cell := paintFrom c start (start + count) 0 cells

def cellAt (cells : List Cell) (i : Nat) : Cell := (cells[i]?).getD .free

/-- Every cell FREE (R18). -/
def freeCells : List Cell := List.replicate Config.slotsPerDay .free

/-! ## Answers -/

def Answer.of (st : Status) : Answer := { status := st, detail := .none, data := .none }

def Answer.because (st : Status) (d : Detail) : Answer := { status := st, detail := d, data := .none }

def Answer.ok (data : ReplyData) : Answer := { status := .ok, detail := .none, data := data }

/-- A claim that has not yet ended: refused with the book as it then stands, or gone on. -/
abbrev Attempt (α : Type) := Except (Book × Answer) α

/-- Checks in the order a rule gives them; the first that holds refuses. -/
def refuseIf (b : Book) (checks : List (Bool × Answer)) : Attempt Unit :=
  match firstFail checks with
  | some a => .error (b, a)
  | none => .ok ()

/-- Refuse with the answer, when there is one. -/
def refuseWith (b : Book) : Option Answer → Attempt Unit
  | some a => .error (b, a)
  | none => .ok ()

/-- The book and the answer a claim ends with. -/
def Attempt.ends : Attempt (Book × Answer) → Book × Answer
  | .ok r => r
  | .error r => r

/-! ## Hand-overs and parts of the book -/

def Book.withBke (b : Book) (k : Bke) : Book := { b with bke := k }

def Book.withBss (b : Book) (x : Bss) : Book := { b with bss := x }

def Book.withSqu (b : Book) (q : Squ) : Book := { b with squ := q }

def Book.withCsc (b : Book) (c : Csc) : Book := { b with csc := c }

def Book.withCfs (b : Book) (c : Cfs) : Book := { b with cfs := c }

def Book.withMail (b : Book) (m : Mail) : Book := { b with mail := m }

/-- R43: hand a change to the PPU. -/
def Book.tellPpu (b : Book) (n : PpuNews) : Book :=
  b.withMail { b.mail with bkeToPpu := b.mail.bkeToPpu ++ [n] }

/-- R43: hand a change to the CSC. -/
def Book.tellCsc (b : Book) (booking : Nat) (c : CscChange) : Book :=
  b.withMail { b.mail with bkeToCsc := b.mail.bkeToCsc ++ [{ booking := booking, change := c }] }

/-- R43, R160: report a check-in to the SQU. -/
def Book.tellSqu (b : Book) (r : Record) (minute : Nat) : Book :=
  b.withMail { b.mail with bkeToSqu := b.mail.bkeToSqu ++ [{ booking := r.id, run := r.run, minute := minute }] }

/-! ## Posting notices and replies -/

def OutFrame.isNotice : OutFrame → Bool
  | .notice _ _ => true
  | _ => false

/-- R186: the notice places held: notices posted and not yet read. -/
def Hmp.noticesHeld (h : Hmp) : Nat := h.out.countP OutFrame.isNotice

/-- R186: the reply places held: requests taken and not yet answered, and replies not yet read. -/
def Hmp.repliesHeld (h : Hmp) : Nat := h.held.length + h.out.countP (fun f => !f.isNotice)

/-- R186, R188: the notice places open to notices other than HELLO (log 10). -/
def Hmp.noticeRoom (h : Hmp) : Nat := if h.helloPosted then Config.noticePlaces else Config.noticePlaces - 1

/-- R186, R189: a notice takes a free notice place and carries the dropped count, or is dropped and counted; once the
OK to a RESTART is posted, notices are discarded without being counted. Until HELLO is posted one notice place is kept
for it (log 10). -/
def Hmp.post (h : Hmp) (n : Notice) : Hmp :=
  match h.restart with
  | .answered => h
  | _ =>
    if h.noticesHeld < h.noticeRoom then { h with out := h.out ++ [.notice h.dropped n], dropped := 0 }
    else { h with dropped := bump 65535 h.dropped }

/-- R185: a reply is posted into the place its request holds. -/
def Hmp.postReply (h : Hmp) (c : Ctx) (a : Answer) : Hmp :=
  { h with out := h.out ++ [.reply c a], held := h.held.erase c }

def Book.withHmp (b : Book) (h : Hmp) : Book := { b with hmp := h }

/-- A block posts a notice. -/
def Book.post (b : Book) (n : Notice) : Book := { b with hmp := b.hmp.post n }

/-- R198: a batch closed failed discards any staged set without notice. -/
def Book.discardStaged (b : Book) : Book := { b with cfs := { b.cfs with staged := [] } }

/-- R198: a batch closed good by a LAST that was no CONFIG_PUT, while puts are staged. The notice counts no item of a kind
(log 114). -/
def Book.closeGood (b : Book) (c : Ctx) : Book :=
  if c.code == 40 || b.cfs.staged.isEmpty then b
  else b.discardStaged.post (.configApplied false b.cfs.commitNumber b.cfs.staged.length [])

/-- R187, R198: the batch state after a member of an OPEN batch is answered. -/
def Book.afterReply (b : Book) (c : Ctx) (st : Status) : Book :=
  match c.mark, b.hmp.batch with
  | .sole, _ => b
  | .last, .opened =>
    let b' := { b with hmp := { b.hmp with batch := .none } }
    if st = .ok then b'.closeGood c else b'.discardStaged
  | _, .opened => if st = .ok then b else { b with hmp := { b.hmp with batch := .failed } }.discardStaged
  | _, _ => b

/-- R185, R187: an owner answers a request. -/
def Book.reply (b : Book) (c : Ctx) (a : Answer) : Book :=
  { b with hmp := b.hmp.postReply c a }.afterReply c a.status

end Sys2Proof.Machine
end

