-- ==== Sys2Proof/Machine/Operands.lean ====
section
/-! DEFINITION. How a step finds its operand: the catalogue of request codes (section 11.7), the request an owner
takes next, and the head of a hand-over queue. -/

namespace Sys2Proof

/-- Section 11.7: the code of each request. -/
def Request.code : Request → Nat
  | .setClock _ _ => 1 | .trimClock _ => 2 | .readClock => 3 | .closeCells _ => 4 | .readRow _ _ _ => 5
  | .findFree _ => 6 | .hold _ _ => 7 | .confirm _ => 8 | .book _ => 9 | .load _ _ _ => 10 | .cancel _ => 11
  | .move _ => 12 | .extend _ _ => 13 | .endNow _ => 14 | .checkIn _ _ => 15 | .readBooking _ => 16
  | .seriesCreate _ => 17 | .seriesCancel _ => 18 | .readSeries _ => 19 | .setEditions _ _ => 20
  | .readEditions => 21 | .publish => 22 | .discard => 23 | .resetStation _ _ => 24 | .readStation _ _ => 25
  | .latchGroups _ => 26 | .readPage _ => 27 | .order _ => 28 | .orderChange _ _ _ => 29 | .orderCancel _ => 30
  | .readOrder _ => 31 | .readCapacity _ _ _ => 32 | .readWaitlist _ => 33 | .readRun _ _ => 34
  | .rebuildRow _ _ => 35 | .forgetBooking _ _ => 36 | .readScrub => 37 | .readIdentity => 38 | .restart => 39
  | .configPut _ => 40 | .configGet _ _ => 41

/-- The blocks that own requests (section 11.7); REBUILD_ROW and FORGET_BOOKING are the BKE's, READ_SCRUB the BSS's. -/
inductive Owner where
  | hmp | ctu | bke | bss | sbc | ppu | csc | squ | cfs
deriving DecidableEq, Repr

/-- Section 11.7: the owner of each request. -/
def Request.owner : Request → Owner
  | .setClock _ _ | .trimClock _ | .readClock => .ctu
  | .resetStation _ _ | .readStation _ _ => .sbc
  | .latchGroups _ | .readPage _ => .ppu
  | .order _ | .orderChange _ _ _ | .orderCancel _ | .readOrder _ | .readCapacity _ _ _ | .readWaitlist _ => .csc
  | .readRun _ _ => .squ
  | .readScrub => .bss
  | .readIdentity | .restart => .hmp
  | .configPut _ | .configGet _ _ => .cfs
  | _ => .bke

end Sys2Proof

namespace Sys2Proof.Machine

/-- Section 11.7: a request code names a request when it lies in 1-41. -/
def isRequestCode (code : Nat) : Bool := decide (1 ≤ code) && decide (code ≤ 41)

def Book.withRequests (b : Book) (l : List Handed) : Book := { b with mail := { b.mail with requests := l } }

/-- An owner takes the requests handed to it in the order handed (log 9): the next one, and the book without it. -/
def Book.nextRequest (b : Book) (o : Owner) : Option (Handed × Book) :=
  (takeFirst (fun h => h.request.owner == o) b.mail.requests).map fun p => (p.1, b.withRequests p.2)

/-- The first handed request that passes, and the book without it (requests that may overtake, R106, R107). -/
def Book.pickRequest (b : Book) (p : Handed → Bool) : Option (Handed × Book) :=
  (takeFirst p b.mail.requests).map fun q => (q.1, b.withRequests q.2)

/-- The owner's next request, served when it is of the kind `f` serves; else nothing changes (log 1). -/
def Book.serve (b : Book) (o : Owner) (f : Request → Ctx → Book → Option Book) : Book :=
  match b.nextRequest o with
  | some (h, b') => (f h.request h.ctx b').getD b
  | none => b

/-- A claim that ends with an answer, and its reply. -/
def Book.answer (b : Book) (c : Ctx) (op : Book → Book × Answer) : Book :=
  let r := op b
  r.1.reply c r.2

/-! ## How a meaning reaches the blocks it may change -/

/-- What a command answers. -/
abbrev Outcome := Host.Outcome State Fault Refusal

/-- A step of a block that reads the clock and changes the book side alone. -/
def onBook (f : Ctu → Book → Book) (s : State) : Outcome := .next { s with book := f s.ctu s.book }

/-- A step of the CTU. -/
def onCtu (f : Ctu → Book → Ctu × Book) (s : State) : Outcome :=
  let r := f s.ctu s.book
  .next { s with ctu := r.1, book := r.2 }

/-- A step of the PPU. -/
def onPpu (f : Ctu → Book → Ppu → Book × Ppu) (s : State) : Outcome :=
  let r := f s.ctu s.book s.ppu
  .next { s with book := r.1, ppu := r.2 }

/-- A step of the SBC. -/
def onSbc (f : Ctu → Book → Sbc → Book × Sbc) (s : State) : Outcome :=
  let r := f s.ctu s.book s.sbc
  .next { s with book := r.1, sbc := r.2 }

/-- A step of the link side of the HMP. -/
def onLink (f : Link → Book → Link × Book) (s : State) : Outcome :=
  let r := f s.link s.book
  .next { s with link := r.1, book := r.2 }

/-- The oldest report of one segment in a queue the SBC fills, and the queue without it (R124: what the SBC hands for
one segment is taken in the order handed). -/
def nextOf {α : Type} (segment : Nat) (l : List (Nat × α)) : Option (α × List (Nat × α)) :=
  (takeFirst (fun e => e.1 == segment) l).map fun p => (p.1.2, p.2)

end Sys2Proof.Machine
end

