-- ==== Sys2Proof/Machine/Flags.lean ====
section
/-! DEFINITION. What the part shows without a command: status and notice codes, the attention line, what a read
would yield. -/

namespace Sys2Proof.Machine

/-- R180. -/
def Status.value : Status → Nat
  | .ok => 0 | .skipped => 1 | .badRequest => 2 | .notFound => 3 | .conflict => 4 | .full => 5 | .tooLate => 6
  | .busy => 7 | .refused => 8 | .damaged => 9 | .stale => 10 | .clockUnset => 11 | .inUse => 12

/-- R180 byte 6. -/
def Mark.value : Mark → Nat
  | .sole => 0 | .first => 1 | .middle => 2 | .last => 3

def Mark.ofNat? : Nat → Option Mark
  | 0 => some .sole | 1 => some .first | 2 => some .middle | 3 => some .last | _ => none

/-- Section 11.7: the code of each notice. -/
def Notice.code : Notice → Nat
  | .hello .. => 64 | .frameRejected .. => 66 | .overrun .. => 67 | .tagClash .. => 68 | .clockState .. => 69
  | .dayOpened .. => 70 | .holdLapsed .. => 71 | .noShow .. => 72 | .walkup .. => 73 | .panelAction .. => 74
  | .seriesSkip .. => 75 | .stationState .. => 76 | .orderState .. => 77 | .kitchenUnreachable .. => 78
  | .runStep .. => 79 | .storeError .. => 80 | .rowState .. => 81 | .configApplied .. => 82

/-- R91, R126: the event kind answered. -/
def eventKindOf : StationEvent → PanelEventKind
  | .checkIn _ => .checkIn
  | .walkup _ => .walkup
  | .endMeeting => .endMeeting
  | .extend => .extend
  | _ => .cartArrived

/-- R91: the badge reference of a CHECK_IN. -/
def badgeOf : StationEvent → Option HostRef
  | .checkIn badge => badge
  | _ => none

/-- R180, R182: kind, code, tag and batch mark of a queued frame. -/
def OutFrame.header : OutFrame → Nat × Nat × Nat × Mark
  | .reply c _ => (2, c.code, c.tag, c.mark)
  | .overrun mark _ arrived _ _ _ _ => (2, 67, arrived, mark)
  | .notice _ n => (3, n.code, 0, .sole)

/-- R183: what a read select that begins now yields. -/
def yieldOf (l : Link) (h : Hmp) : Yield :=
  match h.out with
  | f :: _ => .frame f
  | [] => if 0 < l.awaitingReturn then .credit else .nothing

/-- R179, R183: the frame that a select beginning now sends on data out, with its credit return byte. -/
def selectOut (l : Link) (h : Hmp) : ReadSelect := { yield := yieldOf l h, credit := l.awaitingReturn }

/-- R186: the attention line is asserted while a read would yield a frame, and released until HELLO is posted. -/
def State.attention (s : State) : Bool :=
  s.book.hmp.helloPosted && yieldOf s.link s.book.hmp != .nothing

/-- R16: the row family of a room in test order. -/
def rowFamily (rooms : Table Room) (x : Nat) : List Nat :=
  match rooms.find x with
  | some r => if r.kind = .combined then x :: r.parts else [x]
  | none => [x]

/-- R54, R112: the room itself, and its combined room when it is a PART. -/
def candidateRooms (rooms : Table Room) (x : Nat) : List Nat :=
  match rooms.find x with
  | some r => if r.kind = .part then x :: r.combined.toList else [x]
  | none => [x]

/-- The host room code that replies and notices echo; absent for an unconfigured room (R56). -/
def Book.code (b : Book) (room : Nat) : Option RoomCode := (b.bke.rooms.find room).map (·.code)

/-- R15, R107, R108: the host room code of the room that a panel is bound to. -/
def Book.stationCode (b : Book) (s : Station) : Option RoomCode := if s.type = .panel then b.code s.binding else none

/-- R15, R56, R176, R178: the host room code of the room in a place that may be unknown. -/
def Book.placeCode (b : Book) (place : Option (Nat × Date)) : Option RoomCode := place.bind fun p => b.code p.1

/-- R6: the day offset of a date in the BKE's horizon copy. -/
def Book.offset (b : Book) (d : Date) : Option Nat := b.bke.horizon.bind (·.offset d)

/-- R6: the date is the BKE's today. -/
def Book.isToday (b : Book) (d : Date) : Bool := b.bke.horizon.any fun h => h.today == d

end Sys2Proof.Machine
end

