-- ==== Sys2Proof/Machine/Store.lean ====
section
/-! DEFINITION. Reading the check-coded store (10): the demand path, what an uncorrectable item does, the start of a
rebuild, and the writing of rows and records with fresh codes. -/

namespace Sys2Proof.Machine

/-! ## Words in error -/

def Bss.errorOf (x : Bss) (i : StoreItem) : Option ItemErr := x.errors.find? fun e => e.item == i

/-- R167: an item written whole has fresh codes. -/
def Bss.fresh (x : Bss) (i : StoreItem) : Bss := { x with errors := x.errors.filter fun e => e.item != i }

def Book.fresh (b : Book) (i : StoreItem) : Book := b.withBss (b.bss.fresh i)

/-- `n` added to a count that stays at `top` once it is reached. -/
def raise (top n count : Nat) : Nat := min top (count + n)

/-- R168: the single-bit errors of an item are corrected and counted; uncorrectable words stay. -/
def Bss.correct (x : Bss) (e : ItemErr) : Bss :=
  let y := { x.fresh e.item with corrected := raise 4294967295 e.soft x.corrected }
  if e.hard then { y with errors := y.errors ++ [{ e with soft := 0 }] } else y

/-- R167: an item in which an uncorrectable word is found. -/
def Bss.countLost (x : Bss) : Bss := { x with uncorrectable := bump 65535 x.uncorrectable }

/-- The uncorrectable word of an item has been found (R167, R174, log 12). -/
def Bss.setKnown (x : Bss) (i : StoreItem) : Bss :=
  { x with errors := x.errors.map fun e => if e.item == i then { e with known := true } else e }

/-- R169: the item has been found to be damaged. -/
def Bss.isKnown (x : Bss) (i : StoreItem) : Bool := (x.errorOf i).any (·.known)

/-- R167, R169: the items of one report, draft row or record with its index entry, are counted when the first of them is
found to be damaged, and not again. -/
def Bss.countOnce (x : Bss) (l : List StoreItem) : Bss :=
  if l.any x.isKnown then x else l.foldl Bss.setKnown x.countLost

/-- R168: a read of the item would find an uncorrectable word. -/
def Bss.isLost (x : Bss) (i : StoreItem) : Bool := (x.errorOf i).any (·.hard)

/-- R168: read an item: corrected, and whether an uncorrectable word was found in it. -/
def Book.readItem (b : Book) (i : StoreItem) : Book × Bool :=
  match b.bss.errorOf i with
  | none => (b, false)
  | some e => (b.withBss (b.bss.correct e), e.hard)

/-! ## Rows -/

def Book.row (b : Book) (room : Nat) (d : Date) : Option Row := b.bke.rows.find (rowKey room d)

def Book.putRow (b : Book) (r : Row) : Book := b.withBke { b.bke with rows := b.bke.rows.put (rowKey r.room r.date) r }

/-- R178: ROW_STATE. -/
def Book.postRowState (b : Book) (r : Row) (old : RowState) (cause : RowCause) (counted : Option (Nat × Option Nat)) :
    Book :=
  b.post (.rowState r.room (b.code r.room) r.date (b.offset r.date) old r.state cause r.version counted)

/-- R172, R173: the PPU is told when the row's date is today. -/
def Book.tellRow (b : Book) (r : Row) : Book := if b.isToday r.date then b.tellPpu (.rowState r.room) else b

/-- R172, R174: a rebuild of the row starts, or the one in progress restarts. -/
def Book.startRebuild (b : Book) (cause : RowCause) (room : Nat) (d : Date) : Book :=
  match b.row room d with
  | none => b
  | some r =>
    if r.state = .rebuilding then b
    else
      let r' := { r with state := .rebuilding }
      ((b.putRow r').postRowState r' r.state cause none).tellRow r'

/-- R178: STORE_ERROR. -/
def Book.postStoreError (b : Book) (path : ReadPath) (kind : ItemKind) (place : Option (Nat × Date)) (id slot : Option Nat)
    (effect : StoreEffect) : Book :=
  b.post (.storeError path kind place (b.placeCode place) (place.bind fun p => b.offset p.2) id slot effect
    b.bss.uncorrectable)

/-- R169: the BKE takes an uncorrectable live row. -/
def Book.rowLost (b : Book) (path : ReadPath) (room : Nat) (d : Date) : Book :=
  match b.row room d with
  | none => b
  | some r =>
    let effect := if r.state = .rebuilding then StoreEffect.rebuildRestarted else .rowRebuilding
    ((b.withBss (b.bss.setKnown (.liveRow room d))).postStoreError path .row (some (room, d)) none none effect
      ).startRebuild .storeError room d

/-- R168, R169: a demand read of a live row. -/
def Book.readLive (b : Book) (path : ReadPath) (room : Nat) (d : Date) : Book :=
  let r := b.readItem (.liveRow room d)
  if r.2 then (r.1.withBss r.1.bss.countLost).rowLost path room d else r.1

/-- R15, R25: a refusal that names one room, with its host room code. -/
def Book.refuseRoom (b : Book) (st : Status) (d : Detail) (x : Nat) : Answer :=
  { status := st, detail := d, data := .room x (b.code x) }

/-- R168, R169: the demand read of live rows that a claim makes for itself: BUSY/REBUILDING, naming the first room whose
row this read finds uncorrectable. -/
def Book.tryReadLive (b : Book) (l : List (Nat × Date)) : Attempt Book :=
  let read := l.foldl (fun b p => b.readLive .demand p.1 p.2) b
  match l.find? fun p => b.bss.isLost (.liveRow p.1 p.2) with
  | some p => .error (read, read.refuseRoom .busy .rebuilding p.1)
  | none => .ok read

/-! ## Draft rows -/

def Book.draftRow (b : Book) (room : Nat) (d : Date) : Option DraftRow := b.bke.draft.rows.find (rowKey room d)

def Book.withDraft (b : Book) (x : Draft) : Book := b.withBke { b.bke with draft := x }

def Book.putDraftRow (b : Book) (r : DraftRow) : Book :=
  b.withDraft { b.bke.draft with rows := b.bke.draft.rows.put (rowKey r.room r.date) r }

/-- R86, R169: the BKE takes an uncorrectable draft row. -/
def Book.draftRowLost (b : Book) (path : ReadPath) (room : Nat) (d : Date) : Book :=
  match b.draftRow room d with
  | none => b
  | some r =>
    let b := b.putDraftRow { r with damaged := true }
    (b.withDraft { b.bke.draft with damaged := true }).postStoreError path .draftRow (some (room, d)) none none
      .draftDamaged

/-- R75, R168, R169: a demand read of a draft row; one already damaged is passed over. -/
def Book.readDraft (b : Book) (path : ReadPath) (room : Nat) (d : Date) : Book :=
  match b.draftRow room d with
  | none => b
  | some r =>
    if r.damaged then b
    else
      let x := b.readItem (.draftRow room d)
      if x.2 then (x.1.withBss (x.1.bss.countOnce [.draftRow room d])).draftRowLost path room d else x.1

/-! ## Records -/

def Book.slot (b : Book) (n : Nat) : Option RecSlot := b.bke.records.find n

def Book.putSlot (b : Book) (n : Nat) (r : RecSlot) : Book :=
  b.withBke { b.bke with records := b.bke.records.put n r }

/-- R167: a record written whole has fresh codes. -/
def Book.putRecord (b : Book) (n : Nat) (r : Record) : Book := (b.putSlot n (.sound r)).fresh (.record n)

/-- R167: a record whose index entry is written with it. -/
def Book.putIndexed (b : Book) (n : Nat) (r : Record) : Book := (b.putRecord n r).fresh (.index n)

/-- R32: the slot becomes empty. -/
def Book.dropSlot (b : Book) (n : Nat) : Book :=
  ((b.withBke { b.bke with records := b.bke.records.drop n }).fresh (.record n)).fresh (.index n)

/-- The SOUND record in a slot. -/
def Book.soundAt (b : Book) (n : Nat) : Option Record :=
  match b.slot n with
  | some (.sound r) => some r
  | _ => none

/-- R74, R86: the id a DAMAGED record is known by: the one read, else the one by which the draft index lists it; the
record holds it still (R34, log 58). -/
def Damaged.known (d : Damaged) : Option Nat := d.id.orElse fun _ => d.listed

/-- The id a slot's record is known by. -/
def RecSlot.id : RecSlot → Option Nat
  | .sound r => some r.id
  | .damaged d => d.known

/-- R34: the id a slot's record holds, also where no word that can be read gives it (log 78). -/
def RecSlot.own : RecSlot → Nat
  | .sound r => r.id
  | .damaged d => d.own

/-- The room and date of a slot's record, as its index entry gives them. -/
def RecSlot.place : RecSlot → Option (Nat × Date)
  | .sound r => some (r.room, r.date)
  | .damaged d => d.place

/-- The slot of the record with this id. -/
def Book.slotOf (b : Book) (id : Nat) : Option Nat :=
  (b.bke.records.entries.find? fun e => e.2.id == some id).map (·.1)

/-- The SOUND records with their slots. -/
def Book.sound (b : Book) : List (Nat × Record) :=
  b.bke.records.entries.filterMap fun e => match e.2 with
    | .sound r => some (e.1, r)
    | .damaged _ => none

/-- The DAMAGED records with their slots. -/
def Book.damagedRecords (b : Book) : List (Nat × Damaged) :=
  b.bke.records.entries.filterMap fun e => match e.2 with
    | .sound _ => none
    | .damaged d => some (e.1, d)

/-- The id is on the draft record list. -/
def Book.isDraftId (b : Book) (id : Option Nat) : Bool := id.any fun i => b.bke.draft.records.contains i

/-- The id is on the draft record list or the marked list (R86). -/
def Book.inDraft (b : Book) (id : Option Nat) : Bool :=
  b.isDraftId id || id.any fun i => b.bke.draft.marked.contains i

/-- R169, R176: the rows the cover of a record of this place may have written. -/
def Book.placeRows (b : Book) (place : Option (Nat × Date)) : List (Nat × Date) :=
  match place with
  | some (x, d) => (rowFamily b.bke.rooms x).map fun y => (y, d)
  | none => []

/-- R86, R169: the record with this id becomes DAMAGED, and the draft with it when the id is on a list of the draft,
whether or not the id can still be read; the record stays known by its listed id (log 58). -/
def Book.damage (b : Book) (n id : Nat) (x : Damaged) : Book :=
  if b.inDraft (some id) then
    (b.putSlot n (.damaged { x with listed := some id })).withDraft { b.bke.draft with damaged := true }
  else b.putSlot n (.damaged x)

/-- R169: what remains of a record: with its index entry readable its id, room and date; else its id alone, when its own
tag word is readable. The model keeps what a forget of it ends (log 78). -/
def remainsOf (r : Record) (indexLost tagLost : Bool) : Damaged :=
  { id := if indexLost && tagLost then none else some r.id
    place := if indexLost then none else some (r.room, r.date)
    listed := none, own := r.id, run := r.run }

/-- R169: the BKE takes an uncorrectable record or index entry. The rows of the family start to be rebuilt in the order of
the family, the room first (log 102). -/
def Book.recordLost (b : Book) (path : ReadPath) (n : Nat) (indexLost tagLost : Bool) : Book :=
  match b.slot n with
  | some (.sound r) =>
    let x := remainsOf r indexLost tagLost
    let kind := if indexLost then ItemKind.index else .record
    let b :=
      (b.damage n r.id x).postStoreError path kind x.place x.id (if x.id.isNone then some n else none) .recordDamaged
    if b.isDraftId (some r.id) then b
    else (b.placeRows x.place).foldl (fun b p => b.startRebuild .recordDamaged p.1 p.2) b
  | _ => b

/-- R168, R169: a read of the record in slot `n` with its index entry; a DAMAGED one is passed over (R169). -/
def Book.readSlot (b : Book) (path : ReadPath) (n : Nat) : Book :=
  match b.slot n with
  | some (.sound _) =>
    let tagLost := (b.bss.errorOf (.record n)).any (·.tagLost)
    let i := b.readItem (.index n)
    let r := i.1.readItem (.record n)
    if i.2 || r.2 then (r.1.withBss (r.1.bss.countOnce [.index n, .record n])).recordLost path n i.2 tagLost else r.1
  | _ => b

/-- R58, R168, R169: a read of the index entry alone of the record in slot `n` (log 59). -/
def Book.readIndex (b : Book) (n : Nat) : Book :=
  match b.slot n with
  | some (.sound _) =>
    let tagLost := (b.bss.errorOf (.record n)).any (·.tagLost)
    let i := b.readItem (.index n)
    if i.2 then (i.1.withBss (i.1.bss.countOnce [.index n, .record n])).recordLost .demand n true tagLost else i.1
  | _ => b

/-- R168: read the records in the slots given. -/
def Book.readSlots (b : Book) (l : List Nat) : Book := l.foldl (fun b n => b.readSlot .demand n) b

/-- R168, R169: read the records in the slots given; DAMAGED/RECORD when one of them is lost. -/
def Book.tryRecords (b : Book) (l : List Nat) : Attempt Book :=
  let b := b.readSlots l
  if l.all fun n => (b.soundAt n).isSome then .ok b else .error (b, Answer.because .damaged .record)

/-- What a claim finds when it reads the record with an id. -/
inductive Found where
  | nothing
  | damaged (slot : Nat) (d : Damaged) (draft : Bool)
  | live (slot : Nat) (r : Record)
  | draft (slot : Nat) (r : Record)
deriving DecidableEq, Repr

def Book.foundAt (b : Book) (n : Nat) : Found :=
  match b.slot n with
  | none => .nothing
  | some (.damaged d) => .damaged n d (b.isDraftId d.known)
  | some (.sound r) => if r.edition = .live then .live n r else .draft n r

/-- R56: a DAMAGED record found by its id is known by that id, also when the read lost every word that held it. -/
def Found.named (id : Nat) (draft : Bool) : Found → Found
  | .damaged n d _ => .damaged n { d with id := some id } draft
  | f => f

/-- R57, R168: read the record with this id on the demand path. -/
def Book.fetch (b : Book) (id : Nat) : Book × Found :=
  match b.slotOf id with
  | none => (b, .nothing)
  | some n =>
    let b := b.readSlot .demand n
    (b, (b.foundAt n).named id (b.isDraftId (some id)))

/-! ## The marked list -/

/-- R74, R81: an id leaves the marked list and the draft rows whose cells were freed for it. -/
def Draft.unmark (d : Draft) (id : Nat) : Draft :=
  { d with
    marked := d.marked.filter (· != id)
    rows := d.rows.mapValues fun _ r => { r with freed := r.freed.filter (· != id) } }

/-- R74: the record with this id loses its draft-cancel mark. -/
def Book.unmark (b : Book) (id : Nat) : Book := b.withDraft (b.bke.draft.unmark id)

/-! ## Identifiers and places -/

/-- R34: the ids held by a record in the table, a DAMAGED one among them whose id cannot be read (log 78). -/
def Book.usedIds (b : Book) : List Nat := b.bke.records.values.map RecSlot.own

/-- R34: the next booking id. -/
def Book.newId (b : Book) : Nat := nextId b.usedIds 65535 b.bke.lastId b.bke.records.size

/-- R32: the lowest-numbered empty slot. -/
def Book.newSlot (b : Book) : Nat := firstFree b.bke.records.keys 0 (b.bke.records.size + 1)

def Book.tableFull (b : Book) : Bool := decide (Config.maxRecords ≤ b.bke.records.size)

/-- R32, R33: a new record in the lowest empty slot. -/
def Book.addRecord (b : Book) (r : Record) : Book := b.putIndexed b.newSlot r

/-- R34: a new record that takes the next booking id. -/
def Book.addNew (b : Book) (r : Record) : Book := (b.withBke { b.bke with lastId := b.newId }).addRecord r

end Sys2Proof.Machine
end

