-- ==== Sys2Proof/Machine/Catering.lean ====
section
/-! DEFINITION. The Catering Scheduler's shared operations (08): capacity, order states, tickets and calls, waitlist
scans, placement, and the fit check of a MOVE. -/

namespace Sys2Proof.Machine

def covers (l : List OrderLine) : Nat := l.foldl (fun n x => n + x.quantity) 0

def Order.covers (o : Order) : Nat := Sys2Proof.Machine.covers o.lines

def Order.window (o : Order) : Nat := o.slot / 2

/-- R129: the delivery minute of a slot. -/
def deliveryMinute (slot : Nat) : Nat := 360 + 15 * slot

def Csc.kitchen (c : Csc) (k : Nat) : Option Kitchen := c.kitchens.find k

/-- R129: the cut-off minute of a delivery slot at a kitchen. -/
def Csc.cutOffMinute (c : Csc) (k slot : Nat) : Nat :=
  deliveryMinute slot - ((c.kitchen k).map (·.cutOff)).getD 0

/-- R135, R136, R147: the date is today and the CSC minute is at or after this cut-off minute. -/
def Csc.cutOffReached (c : Csc) (d : Date) (cut : Nat) : Bool :=
  c.horizon.any (fun h => h.today == d) && c.minute.any (fun m => decide (cut ≤ m))

/-! ## Capacity -/

def Csc.entry (c : Csc) (k : Nat) (d : Date) (w : Nat) : Option CapEntry := c.capacity.find (capKey k d w)

/-- R130: capacity less committed; 0 where there is no entry. -/
def Csc.remaining (c : Csc) (k : Nat) (d : Date) (w : Nat) : Nat :=
  match c.entry k d w with
  | some e => e.capacity - e.committed
  | none => 0

/-- R131: the entry has its closed mark. -/
def Csc.windowClosed (c : Csc) (k : Nat) (d : Date) (w : Nat) : Bool := (c.entry k d w).any (·.closed)

/-- R130, R131: the test before covers are committed: they are no more than the remaining covers, and the window is not
closed. -/
def Csc.fits (c : Csc) (k : Nat) (d : Date) (w n : Nat) : Bool :=
  !c.windowClosed k d w && decide (n ≤ c.remaining k d w)

/-- R131, R135, R136, R147: the cut-off of a delivery slot has passed. That of a closed window has, by R131, also where
backward trims have taken the CSC minute below it (log 97). -/
def Csc.cutOffPassed (c : Csc) (k : Nat) (d : Date) (slot : Nat) : Bool :=
  c.cutOffReached d (c.cutOffMinute k slot) || c.windowClosed k d (slot / 2)

/-- R130: commit covers to an entry. -/
def Csc.commit (c : Csc) (k : Nat) (d : Date) (w n : Nat) : Csc :=
  { c with capacity := c.capacity.modify (capKey k d w) fun e => { e with committed := e.committed + n } }

/-- R130: return covers to an entry. -/
def Csc.giveBack (c : Csc) (k : Nat) (d : Date) (w n : Nat) : Csc :=
  { c with capacity := c.capacity.modify (capKey k d w) fun e => { e with committed := e.committed - n } }

/-- R130: window `w` of today counts as past. -/
def windowPast (t : Ctu) (w : Nat) : Bool := t.passed (2 * w + 2)

/-- R130: the entries of one kitchen and date. -/
def newEntries (k : Nat) (kit : Kitchen) (d : Date) (past : Nat → Bool) : List (Nat × CapEntry) :=
  (List.range 32).map fun w =>
    (capKey k d w,
      { kitchen := k, date := d, window := w, capacity := (kit.profile[w]?).getD 0, committed := 0, closed := past w })

def Csc.addEntries (c : Csc) (l : List (Nat × CapEntry)) : Csc :=
  { c with capacity := l.foldl (fun t e => t.put e.1 e.2) c.capacity }

/-- R130, R149: the entries of a kitchen for every open date, with today's past windows closed. -/
def Csc.openKitchen (c : Csc) (t : Ctu) (k : Nat) (kit : Kitchen) : Csc :=
  match c.horizon with
  | none => c
  | some h =>
    h.dates.foldl
      (fun c d => c.addEntries (newEntries k kit d fun w => d == h.today && windowPast t w)) c

/-! ## Orders and their notices -/

/-- R151: ORDER_STATE for the order as it now stands. -/
def Book.postOrder (b : Book) (o : Order) (old : Option OrderState) (cause : OrderCause) (mark : OrderMark := .none) :
    Book :=
  b.post (.orderState o.id o.booking o.kitchen o.date o.slot o.window o.covers old o.state cause mark)

def Book.putOrder (b : Book) (o : Order) : Book := b.withCsc { b.csc with orders := b.csc.orders.put o.id o }

def Book.modifyKitchen (b : Book) (k : Nat) (f : Kitchen → Kitchen) : Book :=
  b.withCsc { b.csc with kitchens := b.csc.kitchens.modify k f }

/-- R147: the order of the id that the booking record of a MOVE gives (log 67). -/
def Csc.orderFor (c : Csc) (booking : Nat) (order : Option Nat) : Option Order :=
  (order.bind c.orders.find).filter fun o => o.booking == booking

/-- R135, R141, R145: the order of a booking, found by the booking id it holds (8.7). A placement finds it too, so no two
orders come to hold one booking id (log 67). -/
def Csc.orderOf (c : Csc) (booking : Nat) : Option Order := c.orders.values.find? fun o => o.booking == booking

def OrderState.replaceable (s : OrderState) : Bool := s == .cancelled || s == .declined

/-! ## Tickets and calls -/

/-- R140: no ticket of the kitchen is OFFERED. -/
def Csc.ticketFree (c : Csc) (k : Nat) : Bool :=
  c.orders.values.all fun o => !(o.kitchen == k && o.ticket == .offered)

/-- R140: offer the head of the ticket pending list, when the conditions hold and no offer is under way. -/
def Book.offerTicket (b : Book) (k : Nat) : Book :=
  match b.csc.kitchen k with
  | some kit =>
    if kit.online && !kit.tickets.isEmpty && b.csc.ticketFree k && !b.mail.ticketOffers.contains k then
      b.withMail { b.mail with ticketOffers := b.mail.ticketOffers ++ [k] }
    else b
  | none => b

/-- R141: offer the head of the call list, when the conditions hold and no offer is under way. -/
def Book.offerCall (b : Book) (k : Nat) : Book :=
  match b.csc.kitchen k with
  | some kit =>
    if kit.online && !kit.calls.isEmpty && kit.callOut.isNone && !b.mail.callOffers.contains k then
      b.withMail { b.mail with callOffers := b.mail.callOffers ++ [k] }
    else b
  | none => b

/-- R142: KITCHEN_UNREACHABLE, when work waits for a kitchen whose link is NOT_ONLINE and whose mark is no. -/
def Book.checkReach (b : Book) (k : Nat) : Book :=
  match b.csc.kitchen k with
  | some kit =>
    if !kit.online && !kit.unreachable && !(kit.tickets.isEmpty && kit.calls.isEmpty) then
      (b.modifyKitchen k fun x => { x with unreachable := true }).post
        (.kitchenUnreachable k kit.terminal kit.known kit.tickets.length kit.calls.length)
    else b
  | none => b

/-- R140: the rank of an order on a ticket pending list: delivery minute, then id. -/
def Csc.ticketRank (c : Csc) (id : Nat) : Nat := ((c.orders.find id).map (fun o => o.slot * 2048 + id)).getD id

/-- R140, R142: an order joins the ticket pending list. -/
def Book.joinTickets (b : Book) (k id : Nat) : Book :=
  let b' := b.modifyKitchen k fun x => { x with tickets := insertBy b.csc.ticketRank id x.tickets }
  (b'.checkReach k).offerTicket k

def Book.leaveTickets (b : Book) (k id : Nat) : Book :=
  b.modifyKitchen k fun x => { x with tickets := x.tickets.filter (· != id) }

/-- R141, R142: a call joins the tail of the call list, unless it is there. -/
def Book.joinCalls (b : Book) (k : Nat) (c : Call) : Book :=
  match b.csc.kitchen k with
  | some kit =>
    if kit.calls.contains c then b
    else ((b.modifyKitchen k fun x => { x with calls := x.calls ++ [c] }).checkReach k).offerCall k
  | none => b

def Book.leaveWaitlist (b : Book) (k id : Nat) : Book :=
  b.modifyKitchen k fun x => { x with waitlist := x.waitlist.filter (· != id) }

/-! ## The waitlist scan -/

/-- R196: a commit guards the kitchen. -/
def Csc.guarded (c : Csc) (k : Nat) : Bool := c.guard.contains k

/-- R138: one visit of a scan. -/
def Book.scanOrder (b : Book) (k id : Nat) : Book :=
  match b.csc.orders.find id with
  | none => b
  | some o =>
    if o.state = .waitlisted ∧ b.csc.fits k o.date o.window o.covers = true then
      let o' := { o with state := .confirmed }
      (((b.withCsc (b.csc.commit k o.date o.window o.covers)).putOrder o').leaveWaitlist k id).postOrder o'
        (some .waitlisted) .scan
    else b

/-- R138: the kitchen's waitlist is scanned from head to tail once. -/
def Book.scanList (b : Book) (k : Nat) : Book :=
  match b.csc.kitchen k with
  | some kit => kit.waitlist.foldl (fun b id => b.scanOrder k id) b
  | none => b

/-- R138, R196: a scan; a guarded kitchen confirms none. -/
def Book.scan (b : Book) (k : Nat) : Book := if b.csc.guarded k then b else b.scanList k

/-! ## Changes of state -/

/-- An order leaves WAITLISTED for CANCELLED or DECLINED. -/
def Book.dropWaiting (b : Book) (o : Order) (s : OrderState) (cause : OrderCause) : Book :=
  let o' := { o with state := s }
  ((b.putOrder o').leaveWaitlist o.kitchen o.id).postOrder o' (some o.state) cause

/-- A CONFIRMED order goes to CANCELLED: its covers are returned and the waitlist scanned. -/
def Book.cancelConfirmed (b : Book) (o : Order) (cause : OrderCause) : Book :=
  let o' := { o with state := .cancelled }
  let b := (b.withCsc (b.csc.giveBack o.kitchen o.date o.window o.covers)).putOrder o'
  (b.postOrder o' (some o.state) cause).scan o.kitchen

/-- R140: an order leaves LOCKED; a PENDING ticket leaves the pending list and becomes NONE. -/
def Book.unpend (b : Book) (o : Order) : Book × Order :=
  if o.ticket = .pending then (b.leaveTickets o.kitchen o.id, { o with ticket := .none }) else (b, o)

/-- R140, R143, R144: an order goes on to TICKETED, DISPATCHED, DELIVERED or CLEARED. -/
def Book.advanceOrder (b : Book) (o : Order) (s : OrderState) (cause : OrderCause) : Book :=
  let x := b.unpend o
  let o' := { x.2 with state := s }
  (x.1.putOrder o').postOrder o' (some o.state) cause

/-- R145: a write-off, and what it does to the ticket. -/
def Book.writeOff (b : Book) (o : Order) (cause : OrderCause) : Book :=
  let x := b.unpend o
  let o' := { x.2 with state := .writtenOff, voidOwed := x.2.voidOwed || o.ticket == .offered }
  let b := (x.1.putOrder o').postOrder o' (some o.state) cause
  if o.ticket = .sent then b.joinCalls o.kitchen { kind := .void, order := o.id, serial := o.serial } else b

/-- R145: the effect of a cancel, a release or a forget of the booking. -/
def Book.bookingGone (b : Book) (o : Order) (cause : OrderCause) : Book :=
  match o.state with
  | .waitlisted => b.dropWaiting o .cancelled cause
  | .confirmed => b.cancelConfirmed o cause
  | .locked | .ticketed | .dispatched => b.writeOff o cause
  | _ => b

/-! ## Placement -/

/-- R134: the limits on an order's lines. -/
def linesBad (l : List OrderLine) : Bool :=
  l.isEmpty || decide (8 < l.length) || l.any (fun x => x.quantity == 0) || decide (200 < covers l)

/-- R132: the next order id. -/
def Csc.newOrderId (c : Csc) : Nat := nextId c.orders.keys 1023 c.lastOrder c.orders.size

/-- R134: what the BKE gives the CSC in a placement consultation. -/
structure Consultation where
  booking : Nat
  kitchen : Nat
  copy : BookingCopy
  slot : Nat
  lines : List OrderLine
  wait : Bool

/-- R132, R135: the order a consultation places, in the state given. -/
def Csc.placedOrder (c : Csc) (q : Consultation) (s : OrderState) : Order :=
  { id := c.newOrderId, serial := c.serial, booking := q.booking, kitchen := q.kitchen, date := q.copy.date, slot := q.slot,
    lines := q.lines, cutOff := c.cutOffMinute q.kitchen q.slot, fired := false, state := s, ticket := .none,
    voidOwed := false, copy := q.copy }

/-- R132, R150: an order as replies show it. -/
def Order.view (o : Order) : OrderView :=
  { id := o.id, booking := o.booking, kitchen := o.kitchen, slot := o.slot, window := o.window, lines := o.lines
    covers := o.covers, cutOff := o.cutOff, fired := o.fired, state := o.state, ticket := o.ticket
    voidOwed := o.voidOwed, copy := o.copy }

/-- R135: an order as the reply to its placement shows it, with the remaining covers of its window. -/
def Order.placedView (o : Order) (remaining : Nat) : PlacedOrderView :=
  { id := o.id, booking := o.booking, kitchen := o.kitchen, slot := o.slot, window := o.window, covers := o.covers
    state := o.state, cutOff := o.cutOff, remaining := remaining }

/-- R135: the reply to a placement. -/
def Csc.orderReply (c : Csc) (o : Order) (d : Detail) : Answer :=
  { status := .ok, detail := d, data := .order (o.placedView (c.remaining o.kitchen o.date o.window)) }

/-- R135: the order is placed CONFIRMED. Its ORDER_STATE is posted before the reply (log 111). -/
def Book.placeConfirmed (b : Book) (q : Consultation) : Book × Answer × Option Nat :=
  let o := b.csc.placedOrder q .confirmed
  let b := (b.withCsc { b.csc.commit q.kitchen q.copy.date o.window o.covers with
      lastOrder := o.id, serial := b.csc.serial + 1 }).putOrder o
  (b.postOrder o none .host, b.csc.orderReply o .confirmed, some o.id)

/-- R135: the order is placed WAITLISTED. -/
def Book.placeWaiting (b : Book) (q : Consultation) : Book × Answer × Option Nat :=
  let o := b.csc.placedOrder q .waitlisted
  let b := (b.withCsc { b.csc with lastOrder := o.id, serial := b.csc.serial + 1 }).putOrder o
  let b := b.modifyKitchen q.kitchen fun x => { x with waitlist := x.waitlist ++ [o.id] }
  (b.postOrder o none .host, b.csc.orderReply o .waiting, some o.id)

/-- R135: the decision, on a book from which an order to replace has been removed. A kitchen that the BKE's directory names
and the CSC has yet to take in a commit has no entry, no waitlist and a cut-off lead of 0: the answer is FULL/CAPACITY or
FULL/WAITLIST, and FULL/CATERING at a fit check (log 69). A date that the CSC's horizon copy does not hold has no entry
either, and is answered alike but for a waitlist that has room (log 92). -/
def Book.decidePlacement (before b : Book) (q : Consultation) : Book × Answer × Option Nat :=
  let room := ((b.csc.kitchen q.kitchen).map fun k => decide (k.waitlist.length < Config.maxWaitlist)).getD false
  if b.csc.fits q.kitchen q.copy.date (q.slot / 2) (covers q.lines) then b.placeConfirmed q
  else if q.wait && room then b.placeWaiting q
  else (before, Answer.because .full (if q.wait then .waitlist else .capacity), none)

/-- R135, R196: the placement consultation (the guard's check: log 15). -/
def Book.consult (b : Book) (q : Consultation) : Book × Answer × Option Nat :=
  let old := b.csc.orderOf q.booking
  let replaced := old.any fun o => o.state.replaceable
  let checks :=
    [(old.any (fun o => !o.state.replaceable), Answer.because .inUse .ordered),
     (b.csc.cutOffPassed q.kitchen q.copy.date q.slot, Answer.of .tooLate),
     (decide (Config.maxOrders ≤ b.csc.orders.size) && !replaced, Answer.because .full .orders),
     (b.csc.guarded q.kitchen, Answer.because .busy .commit)]
  match firstFail checks with
  | some a => (b, a, none)
  | none =>
    match old with
    | some o => b.decidePlacement (b.withCsc { b.csc with orders := b.csc.orders.drop o.id }) q
    | none => b.decidePlacement b q

/-! ## The fit check of a MOVE -/

/-- R147: the delivery slot after a move. -/
def movedSlot (o : Order) (oldStart start count : Nat) : Nat :=
  let s := start + (o.slot - oldStart)
  if s < start + count then s else start + count - 1

/-- R147: the answer of a refused fit check; none is FIT. A kitchen or a date that the CSC does not hold has no remaining
covers (logs 69 and 92). -/
def Csc.fitRefusal (c : Csc) (o : Order) (kitchen : Option Nat) (d : Date) (slot : Nat) : Option Answer :=
  match o.state with
  | .cancelled | .declined => none
  | .confirmed | .waitlisted =>
    match kitchen with
    | none => some (Answer.because .full .catering)
    | some k =>
      let w := slot / 2
      let own := if k = o.kitchen ∧ d = o.date ∧ w = o.window ∧ o.state = .confirmed then o.covers else 0
      let listed := ((c.kitchen k).map (·.waitlist.length)).getD Config.maxWaitlist
      firstFail
        [(c.guarded k, Answer.because .busy .commit),
         (c.cutOffPassed k d slot, Answer.of .tooLate),
         (o.state == .confirmed && decide (c.remaining k d w + own < o.covers), Answer.because .full .catering),
         (o.state == .waitlisted && k != o.kitchen && decide (Config.maxWaitlist ≤ listed),
           Answer.because .full .catering)]
  | _ => some (Answer.of .tooLate)

/-- R147: the order as moved. -/
def Csc.movedOrder (c : Csc) (o : Order) (k : Nat) (d : Date) (slot : Nat) : Order :=
  { o with kitchen := k, date := d, slot := slot, cutOff := c.cutOffMinute k slot }

/-- R147: on FIT, the CSC moves the order. -/
def Book.moveOrder (b : Book) (o : Order) (k : Nat) (d : Date) (slot : Nat) : Book :=
  let o' := b.csc.movedOrder o k d slot
  match o.state with
  | .confirmed =>
    let c := (b.csc.giveBack o.kitchen o.date o.window o.covers).commit k d o'.window o'.covers
    (((b.withCsc c).putOrder o').postOrder o' (some o.state) .move).scan o.kitchen
  | .waitlisted =>
    let b := b.putOrder o'
    let b :=
      if k = o.kitchen then b
      else (b.leaveWaitlist o.kitchen o.id).modifyKitchen k fun x => { x with waitlist := x.waitlist ++ [o.id] }
    (b.postOrder o' (some o.state) .move).scan k
  | _ => b

end Sys2Proof.Machine
end

