-- ==== Sys2Proof/Machine/Runs.lean ====
section
/-! DEFINITION. The Sequence Unit (09): placing, firing, creating, retiming, replacing and aborting runs inside the
BKE's claims, and the SQU's own steps. -/

namespace Sys2Proof.Machine

/-- Minutes of a span (R154). -/
def startMinuteOf (start : Nat) : Nat := boundaryMinute start

def endMinuteOf (start count : Nat) : Nat := boundaryMinute (start + count)

/-! ## Placing -/

/-- R156: the due minute lies at or below the SQU minute on today's date. -/
def Squ.late (q : Squ) (d : Date) (due : Nat) : Bool :=
  q.horizon.any (fun h => h.today == d) && q.minute.any (fun m => decide (due ≤ m))

/-- R156: the mark of a step placed with this due minute. -/
def Squ.placedMark (q : Squ) (d : Date) (due : Nat) (offset : Int) : StepMark :=
  if 1439 < due then .dropped
  else if q.late d due && decide (offset < 0) then .dropped
  else .due

/-- R156: place a step from its anchor minute. -/
def Squ.place (q : Squ) (d : Date) (anchor : Nat) (s : RunStep) : RunStep :=
  let due := ((anchor : Int) + s.step.offset).toNat
  { s with due := some due, mark := q.placedMark d due s.step.offset }

/-- The steps of a run that pass, placed from an anchor minute. -/
def Squ.placeWhere (q : Squ) (d : Date) (anchor : Nat) (p : RunStep → Bool) (l : List RunStep) : List RunStep :=
  l.map fun s => if p s then q.place d anchor s else s

/-- R156: the run has a late step that is still DUE, so it owes a catch-up. -/
def Squ.owes (q : Squ) (r : Run) : Bool :=
  r.steps.any fun s => s.mark == .due && s.due.any (fun m => q.late r.date m)

/-- R156: a run with late steps joins the runs that owe a catch-up. Where several owe one they are taken in the order in
which they came to owe, since R156 sets none (log 79). -/
def Squ.oweFor (q : Squ) (r : Run) : Squ :=
  if q.owes r && !q.catchUps.contains r.id then { q with catchUps := q.catchUps ++ [r.id] } else q

/-- Write a run that is new to the table. -/
def Squ.putRun (q : Squ) (r : Run) : Squ := { q with runs := q.runs.put r.id r }.oweFor r

/-- Write a run anew in its place. -/
def Squ.rewriteRun (q : Squ) (r : Run) : Squ :=
  { q with runs := q.runs.mapValues fun k x => if k = r.id then r else x }.oweFor r

/-- R163, R164: the run leaves the table. -/
def Squ.dropRun (q : Squ) (id : Nat) : Squ :=
  { q with runs := q.runs.drop id, catchUps := q.catchUps.filter (· != id) }

/-- R165: the run of a booking id. Two runs can hold one id while the record of one of them has left the table and its
run has not (R58, R164, R176); the lower run id is then found (log 67). -/
def Squ.runOf (q : Squ) (booking : Nat) : Option Run := q.runs.values.find? fun r => r.booking == booking

/-- R159, R163: the run found by booking id for a change of a booking that names `run` as its own: a run left behind by an
earlier record with the id is not taken for it. -/
def Squ.runFor (q : Squ) (booking : Nat) (run : Option Nat) : Option Run :=
  q.runs.values.find? fun r => r.booking == booking && run == some r.id

/-- R159: the run of a booking record. -/
def Squ.ownRun (q : Squ) (r : Record) : Option Run := q.runFor r.id r.run

/-! ## Creation, retiming, moving, abort -/

/-- R153: the SQU answers that a run entry is free. -/
def Squ.free (q : Squ) : Bool := decide (q.runs.size < Config.maxRuns)

/-- R153. -/
def Squ.newRunId (q : Squ) : Nat := nextId q.runs.keys 511 q.lastRun q.runs.size

/-- R42, R152: the template of a room, as the SQU holds it. During a commit the BKE's room may name a template that the
SQU has yet to take or has dropped already: the room then counts as one without a template (log 68). -/
def Squ.templateOf (q : Squ) (r : Room) : Option (Nat × Template) :=
  r.template.bind fun t => (q.templates.find t).map fun x => (t, x)

/-- R24, R152: the buffer slot count of a room's template. -/
def Squ.bufferOf (q : Squ) (r : Room) : Nat := ((q.templateOf r).map (·.2.buffer)).getD 0

/-- R155: the steps of a new run. -/
def Squ.freshSteps (q : Squ) (d : Date) (startM endM : Nat) (fromCheckin : Bool) (checkin : Option Nat)
    (l : List StepDef) : List RunStep :=
  l.map fun s =>
    let blank : RunStep := { step := s, due := none, mark := .waiting, firedAt := none }
    match s.anchor with
    | .start => q.place d startM blank
    | .finish => q.place d endM blank
    | .checkIn =>
      if !fromCheckin then q.place d startM blank
      else match checkin with
        | some m => q.place d m blank
        | none => blank

/-- R155: create a run with the id given. -/
def Squ.create (q : Squ) (id booking room : Nat) (r : Room) (d : Date) (start count : Nat) (checkin : Option Nat) : Squ :=
  match q.templateOf r with
  | none => q
  | some (t, x) =>
    let sm := startMinuteOf start
    let em := endMinuteOf start count
    q.putRun
      { id := id, booking := booking, template := t, date := d, room := room, startMinute := sm, endMinute := em,
        fromCheckin := r.checkin, checkinMinute := checkin,
        steps := q.freshSteps d sm em r.checkin checkin x.steps, state := .armed }

/-- R161: EXTEND or END_NOW moves the end. -/
def Squ.retime (q : Squ) (b : Record) (start count : Nat) : Squ :=
  match q.ownRun b with
  | none => q
  | some r =>
    if r.state = .done then q
    else
      let em := endMinuteOf start count
      q.rewriteRun
        { r with
          endMinute := em
          steps := q.placeWhere r.date em (fun s => s.step.anchor == .finish && s.mark == .due) r.steps }

/-- R162: the CHECKIN steps of a run retimed by a MOVE. -/
def Squ.moveCheckins (q : Squ) (d : Date) (sm : Nat) (fromCheckin held : Bool) (l : List RunStep) : List RunStep :=
  l.map fun s =>
    if s.step.anchor != .checkIn then s
    else if !fromCheckin then (if s.mark == .waiting || s.mark == .due then q.place d sm s else s)
    else if s.mark != .due then s
    else if held then q.place d sm s
    else { s with due := none, mark := .waiting }

/-- R162: the retime of a MOVE. -/
def Squ.moveRetime (q : Squ) (run : Run) (room : Nat) (r : Room) (d : Date) (start count : Nat) : Squ :=
  let sm := startMinuteOf start
  let em := endMinuteOf start count
  let held := run.checkinMinute.isSome
  let l := q.placeWhere d sm (fun s => s.step.anchor == .start && s.mark == .due) run.steps
  let l := q.placeWhere d em (fun s => s.step.anchor == .finish && s.mark == .due) l
  q.rewriteRun
    { run with
      date := d, room := room, startMinute := sm, endMinute := em, fromCheckin := r.checkin
      checkinMinute := if r.checkin && held then some sm else none
      steps := q.moveCheckins d sm r.checkin held l }

/-- R163: a run found is aborted and removed. -/
def Squ.dropFound (q : Squ) : Option Run → Squ
  | none => q
  | some r => q.dropRun r.id

/-- R163: the booking's run is aborted. -/
def Squ.abort (q : Squ) (b : Record) : Squ := q.dropFound (q.ownRun b)

/-- R163, R176: the run of a forgotten record is aborted (log 78). -/
def Squ.abortLost (q : Squ) (x : Damaged) : Squ := q.dropFound (q.runFor x.own x.run)

/-- R160: a check-in report. -/
def Squ.checkinReport (q : Squ) (c : CheckinReport) : Squ :=
  match q.runFor c.booking c.run with
  | none => q
  | some r =>
    if r.state = .done ∨ r.fromCheckin = false ∨ r.checkinMinute.isSome then q
    else
      q.rewriteRun
        { r with
          checkinMinute := some c.minute
          steps := q.placeWhere r.date c.minute (fun s => s.mark == .waiting) r.steps }

/-- R43, R159: the SQU once it has taken every check-in report handed to it so far, in the order handed (log 61). -/
def Book.squTaken (b : Book) : Squ := b.mail.bkeToSqu.foldl Squ.checkinReport b.squ

/-- R159: a change that the SQU takes inside the BKE's claim, behind every report handed before it. -/
def Book.inClaim (b : Book) (f : Squ → Squ) : Book :=
  (b.withMail { b.mail with bkeToSqu := [] }).withSqu (f b.squTaken)

/-! ## Firing -/

/-- R158, R166: hand the action of step number `n` of a run, fired at `m`. -/
def Book.handAction (b : Book) (r : Run) (n : Nat) (s : RunStep) (m : Nat) (catchUp : Bool) : Book :=
  match s.step.action with
  | .showOverlay k => b.withMail { b.mail with squToPpu := b.mail.squToPpu ++ [.overlay r.room k] }
  | .clearOverlay => b.withMail { b.mail with squToPpu := b.mail.squToPpu ++ [.clearOverlay r.room] }
  | .latch => b.withMail { b.mail with squToPpu := b.mail.squToPpu ++ [.latch r.room] }
  | .pickupCall => b.withMail { b.mail with squToCsc := b.mail.squToCsc ++ [r.booking] }
  | .releaseBuffer => b.withMail { b.mail with squToBke := b.mail.squToBke ++ [r.booking] }
  | .notify c =>
    b.post (.runStep r.id r.booking r.room (b.code r.room) r.date n c s.step.anchor s.step.offset (s.due.getD 0) m
      catchUp)

/-- R157: fire step number `n` (1 upward) of a run at minute `m`. -/
def Book.fire (b : Book) (id n m : Nat) (catchUp : Bool) : Book :=
  match b.squ.runs.find id with
  | none => b
  | some r =>
    match r.steps[n - 1]? with
    | none => b
    | some s =>
      let r' :=
        { r with
          steps := r.steps.set (n - 1) { s with mark := .fired, firedAt := some m }
          state := if r.state = .armed then .running else r.state }
      (b.withSqu { b.squ with runs := b.squ.runs.put id r' }).handAction r n s m catchUp

/-- The DUE steps of a run at or below minute `m`: (due minute, run id, step number). -/
def Run.dueSteps (r : Run) (m : Nat) : List (Nat × Nat × Nat) :=
  (r.steps.zipIdx 1).filterMap fun p =>
    match p.1.due with
    | some due => if p.1.mark = .due ∧ due ≤ m then some (due, r.id, p.2) else none
    | none => none

/-- R157: the DUE steps of the runs of a date, in firing order. -/
def Squ.firing (q : Squ) (d : Date) (m : Nat) : List (Nat × Nat × Nat) :=
  let l := (q.runs.values.filter fun r => r.date == d).flatMap fun r => r.dueSteps m
  sortBy (fun p => p.1 * 16384 + p.2.1 * 32 + p.2.2) l

def Book.fireAll (b : Book) (l : List (Nat × Nat × Nat)) (m : Nat) (catchUp : Bool) : Book :=
  l.foldl (fun b p => b.fire p.2.1 p.2.2 m catchUp) b

/-- R156: the catch-up of one run. -/
def Book.catchUpRun (b : Book) (id : Nat) : Book :=
  let b := b.withSqu { b.squ with catchUps := b.squ.catchUps.filter (· != id) }
  match b.squ.runs.find id, b.squ.minute with
  | some r, some m =>
    if b.squ.horizon.any (fun h => h.today == r.date) then b.fireAll (r.dueSteps m) m true else b
  | _, _ => b

/-- R156: every catch-up owed, before the next minute event. -/
def Book.settleCatchUps (b : Book) : Book := b.squ.catchUps.foldl Book.catchUpRun b

/-- The minute event at the head of the SQU's events. -/
def Mail.squMinuteEvent (m : Mail) : Option (Date × Nat) :=
  match m.squEvents with
  | e :: _ => match e.kind with
    | .minute x => some (e.date, x)
    | _ => none
  | [] => none

/-- R156, R157: catch-ups first, then the SQU minute. -/
def Book.beginSquMinute (b : Book) (m : Nat) : Book :=
  let b := b.settleCatchUps
  b.withSqu { b.squ with minute := some m }

/-- R157: the next DUE step fires (log 8). -/
def Book.stepFiring (b : Book) : Book :=
  match b.mail.squMinuteEvent with
  | none => b
  | some (d, m) =>
    let x := b.beginSquMinute m
    match x.squ.firing d m with
    | [] => b
    | p :: _ => x.fireAll [p] m false

/-- R157 steps 2 and 3, for one run. -/
def Run.closeMinute (d : Date) (m : Nat) (r : Run) : Run :=
  if r.date != d then r
  else
    let steps :=
      if r.endMinute ≤ m then
        r.steps.map fun s => if s.mark = .waiting then { s with mark := .dropped } else s
      else r.steps
    let pending := steps.any fun s => s.mark == .due || s.mark == .waiting
    { r with
      steps := steps
      state := if (r.state = .armed ∨ r.state = .running) ∧ pending = false then .done else r.state }

/-- R157: the rest of the minute event. -/
def Book.squMinute (b : Book) : Book :=
  match b.mail.squMinuteEvent with
  | none => b
  | some (d, m) =>
    let x := b.beginSquMinute m
    let x := x.fireAll (x.squ.firing d m) m false
    let x := x.withSqu { x.squ with runs := x.squ.runs.mapValues fun _ r => r.closeMinute d m }
    x.withMail { x.mail with squEvents := x.mail.squEvents.drop 1 }

/-! ## The SQU's own steps -/

/-- R156. -/
def Book.catchUp (b : Book) : Book :=
  match b.squ.catchUps with
  | [] => b
  | id :: _ => b.catchUpRun id

/-- R160. -/
def Book.squCheckinReport (b : Book) : Book :=
  match b.mail.bkeToSqu with
  | [] => b
  | c :: rest => (b.withMail { b.mail with bkeToSqu := rest }).withSqu (b.squ.checkinReport c)

/-- Take the event at the head of the SQU's events, when it is of the kind `f` takes. -/
def Book.squEvent (b : Book) (f : TimeEvent → Squ → Option Squ) : Book :=
  match b.mail.squEvents with
  | [] => b
  | e :: rest =>
    match f e b.squ with
    | some q => (b.withSqu q).withMail { b.mail with squEvents := rest }
    | none => b

/-- R164. -/
def Squ.horizonOpen (e : TimeEvent) (q : Squ) : Option Squ :=
  match e.kind with
  | .horizonOpen w m _ => some { q with horizon := some { today := e.date, weekday := w }, minute := some m }
  | _ => none

/-- R164: every run of the retired date is removed. -/
def Squ.dayRetire (e : TimeEvent) (q : Squ) : Option Squ :=
  match e.kind with
  | .dayRetire =>
    let gone := (q.runs.values.filter fun r => r.date == e.date).map (·.id)
    some (gone.foldl Squ.dropRun q)
  | _ => none

/-- R153, R164: the SQU minute stays that of the last minute event until minute 0 is taken (log 113). -/
def Squ.dayOpen (e : TimeEvent) (q : Squ) : Option Squ :=
  match e.kind with
  | .dayOpen _ w => some { q with horizon := some (Horizon.dayOpened e.date w) }
  | _ => none

/-- R165: the checks of READ_RUN, and the run. -/
def Book.readRunAnswer (b : Book) (run booking : Option Nat) : Answer :=
  let bad := Answer.of .badRequest
  let found :=
    match run, booking with
    | some i, none => if 1 ≤ i ∧ i ≤ 511 then Except.ok (b.squ.runs.find i) else .error bad
    | none, some i => if 1 ≤ i ∧ i ≤ 65535 then .ok (b.squ.runOf i) else .error bad
    | _, _ => .error bad
  match found with
  | .error a => a
  | .ok none => Answer.of .notFound
  | .ok (some r) => Answer.ok (.run r (b.code r.room) (b.squ.horizon.bind (·.offset r.date)))

/-- R165. -/
def Book.readRun (b : Book) : Book :=
  b.serve .squ fun q c b => match q with
    | .readRun run booking => some (b.reply c (b.readRunAnswer run booking))
    | _ => none

/-- R152: the SQU takes its new templates. -/
def Squ.takeTemplates (q : Squ) (t : Table Template) : Squ := { q with templates := t }

/-- SQU_HORIZON_OPEN (R164). -/
def execSquHorizonOpen (s : State) : Outcome := onBook (fun _ b => b.squEvent Squ.horizonOpen) s

/-- SQU_DAY_RETIRE (R164). -/
def execSquDayRetire (s : State) : Outcome := onBook (fun _ b => b.squEvent Squ.dayRetire) s

/-- SQU_DAY_OPEN (R164). -/
def execSquDayOpen (s : State) : Outcome := onBook (fun _ b => b.squEvent Squ.dayOpen) s

/-- SQU_MINUTE (R157). -/
def execSquMinute (s : State) : Outcome := onBook (fun _ b => b.squMinute) s

/-- STEP_FIRING (R157, R158). -/
def execStepFiring (s : State) : Outcome := onBook (fun _ b => b.stepFiring) s

/-- CATCH_UP (R156). -/
def execCatchUp (s : State) : Outcome := onBook (fun _ b => b.catchUp) s

/-- SQU_CHECKIN_REPORT (R160). -/
def execSquCheckinReport (s : State) : Outcome := onBook (fun _ b => b.squCheckinReport) s

/-- READ_RUN (R165). -/
def execReadRun (s : State) : Outcome := onBook (fun _ b => b.readRun) s

end Sys2Proof.Machine
end

