-- ==== Sys2Proof/Machine/Occupancy.lean ====
section
/-! DEFINITION. The occupancy map (02): what a record covers, the views a conflict test reads, the test itself, the
span check, and the writing of cells with the versions of changed rows. -/

namespace Sys2Proof.Machine

/-! ## What a record covers -/

/-- A run of cells in one state. -/
structure Patch where
  cell : Cell
  start : Nat
  count : Nat
deriving DecidableEq, Repr

/-- R35: the active states. -/
def BState.active : BState → Bool
  | .held | .confirmed | .awaitingCheckin | .checkedIn | .inProgress => true
  | _ => false

/-- R35: the states of a meeting that has started. -/
def BState.started : BState → Bool
  | .awaitingCheckin | .checkedIn | .inProgress => true
  | _ => false

/-- R20: the state of a record's span cells in row `x` of its family. -/
def Record.spanCell (r : Record) (x : Nat) : Cell :=
  if r.kind = .closure then .closed
  else if x ≠ r.room then .tied
  else if r.state = .held then .held
  else .booked

def Record.spanPatch (r : Record) (x : Nat) : List Patch :=
  if r.state.active then [{ cell := r.spanCell x, start := r.start, count := r.count }] else []

def Record.bufferPatch (r : Record) : List Patch :=
  if r.bufState = .reserved then [{ cell := .buffer, start := r.start + r.count, count := r.bufSlots }] else []

/-- R19, R20: the cells a record covers in row `x` of its family. -/
def Record.patches (r : Record) (x : Nat) : List Patch := r.spanPatch x ++ r.bufferPatch

def applyPatches (l : List Patch) (cells : List Cell) : List Cell :=
  l.foldl (fun cs p => paint p.cell p.start p.count cs) cells

def freePatches (l : List Patch) (cells : List Cell) : List Cell :=
  l.foldl (fun cs p => paint .free p.start p.count cs) cells

def Patch.has (p : Patch) (slot : Nat) : Bool := decide (p.start ≤ slot) && decide (slot < p.start + p.count)

/-- R33: the buffer state that goes with a buffer slot count. -/
def bufStateOf (n : Nat) : BufState := if n = 0 then .none else .reserved

/-- R24: `n` buffer slots from `start`, clipped at slot 63. -/
def clipBuffer (start n : Nat) : Nat := min n (64 - start)

/-! ## Views -/

inductive ViewState where
  | good | rebuilding | quarantined | damagedDraft
deriving DecidableEq, Repr

/-- R76: a row as a conflict test sees it. -/
structure RowView where
  room : Nat
  state : ViewState
  cells : List Cell
deriving DecidableEq, Repr

def RowState.view : RowState → ViewState
  | .good => .good
  | .rebuilding => .rebuilding
  | .quarantined => .quarantined

/-- R76: the draft row of a room-day when the edition is DRAFT and one exists. -/
def Book.draftView (b : Book) (ed : Edition) (room : Nat) (d : Date) : Option DraftRow :=
  if ed = .draft then b.draftRow room d else none

/-- R168: the demand read of the row a view uses. -/
def Book.readView (b : Book) (ed : Edition) (d : Date) (room : Nat) : Book :=
  if (b.draftView ed room d).isSome then b.readDraft .demand room d else b.readLive .demand room d

def Book.readFamily (b : Book) (ed : Edition) (room : Nat) (d : Date) : Book :=
  (rowFamily b.bke.rooms room).foldl (fun b x => b.readView ed d x) b

/-- R76: the room-days of a record's family. -/
def Book.familyDays (b : Book) (room : Nat) (d : Date) : List (Nat × Date) :=
  (rowFamily b.bke.rooms room).map fun x => (x, d)

/-- R76: the view of a room-day. -/
def Book.view (b : Book) (ed : Edition) (d : Date) (room : Nat) : Option RowView :=
  match b.draftView ed room d with
  | some r => some { room := room, state := if r.damaged then .damagedDraft else .good, cells := r.cells }
  | none => (b.row room d).map fun r => { room := room, state := r.state.view, cells := r.cells }

/-- R76: the records of a view: LIVE, the live records; DRAFT, the draft records and the live ones without a mark. -/
def inView (ed : Edition) (r : Record) : Bool :=
  match ed with
  | .live => r.edition == .live
  | .draft => r.edition == .draft || !r.cancelMark

/-- The records of a view on one date. -/
def Book.viewRecords (b : Book) (ed : Edition) (d : Date) : List Record :=
  (b.sound.map (·.2)).filter fun r => inView ed r && r.date == d

/-- R20: the records of a view that write the row of a room-day, with their slots. -/
def Book.writersOf (b : Book) (ed : Edition) (d : Date) (room : Nat) : List (Nat × Record) :=
  b.sound.filter fun p => inView ed p.2 && p.2.date == d && (rowFamily b.bke.rooms p.2.room).contains room

/-- The record covers a cell of the row of a room. -/
def Record.coversCell (r : Record) (room slot : Nat) : Bool := (r.patches room).any (·.has slot)

/-- R25: the id of the record that covers a cell. Where no SOUND record of the view covers it (a DAMAGED record with room
unknown left its cells in a GOOD row, or a draft cell is stale) the CONFLICT names no id (log 60). Where two cover it, in a
stale draft view, it names the one in the lower record slot (log 109). -/
def Book.coverOf (b : Book) (ed : Edition) (d : Date) (room slot : Nat) : Option Nat :=
  ((b.writersOf ed d room).find? fun p => p.2.coversCell room slot).map (·.2.id)

/-- R25, R168: the slots read, in slot order, until the record that covers the cell is found. -/
def Book.coverReads (b : Book) (ed : Edition) (d : Date) (room slot : Nat) : List Nat :=
  let l := b.writersOf ed d room
  let before := l.takeWhile fun p => !p.2.coversCell room slot
  (l.take (before.length + 1)).map (·.1)

/-- R24: the cells of the excluded record count as FREE. -/
def RowView.without (rooms : Table Room) (d : Date) (excl : Option Record) (v : RowView) : RowView :=
  match excl with
  | none => v
  | some r =>
    if r.date == d && (rowFamily rooms r.room).contains v.room then
      { v with cells := freePatches (r.patches v.room) v.cells }
    else v

/-! ## The conflict test -/

/-- The lowest cell that is not FREE among `n` cells from `slot`. -/
def takenFrom (cells : List Cell) (slot : Nat) : Nat → Option Nat
  | 0 => none
  | n + 1 => if cellAt cells slot ≠ .free then some slot else takenFrom cells (slot + 1) n

/-- R25 step 3: the first row with a tested cell not FREE, and the lowest such slot. -/
def firstTaken (start n : Nat) : List RowView → Option (RowView × Nat)
  | [] => none
  | v :: l => match takenFrom v.cells start n with
    | some s => some (v, s)
    | none => firstTaken start n l

/-- R24: the views the test decides on. -/
def Book.testViews (b : Book) (ed : Edition) (room : Nat) (d : Date) (excl : Option Record) : List RowView :=
  ((rowFamily b.bke.rooms room).filterMap (b.view ed d)).map (RowView.without b.bke.rooms d excl)

def RowView.lost (v : RowView) : Bool := v.state == .quarantined || v.state == .damagedDraft

/-- R25 step 1, R76. -/
def Book.lostAnswer (b : Book) (v : RowView) : Answer :=
  b.refuseRoom .damaged (if v.state = .damagedDraft then .draft else .quarantined) v.room

/-- R25: the outcome of the test on the views, over a span and the buffer after it; none is a pass. -/
def Book.testOutcome (b : Book) (ed : Edition) (d : Date) (start count buf : Nat) (vs : List RowView) : Option Answer :=
  match vs.find? RowView.lost with
  | some v => some (b.lostAnswer v)
  | none =>
    match vs.find? fun v => v.state == .rebuilding with
    | some v => some (b.refuseRoom .busy .rebuilding v.room)
    | none =>
      match firstTaken start (count + buf) vs with
      | none => none
      | some (v, s) =>
        some
          { status := .conflict
            detail := if (firstTaken start count vs).isSome then .span else .buffer
            data := .clash
              { room := v.room, code := b.code v.room, slot := s, cell := cellAt v.cells s
                booking := b.coverOf ed d v.room s } }

/-- R24, R25: the conflict test, on rows already read. -/
def Book.conflict (b : Book) (ed : Edition) (room : Nat) (d : Date) (start count buf : Nat) (excl : Option Record) :
    Option Answer :=
  b.testOutcome ed d start count buf (b.testViews ed room d excl)

/-- R25, R168, R169: refuse with the outcome of a conflict test; the record a CONFLICT names is read first, and one that
this read loses is answered DAMAGED/RECORD, also in a draft write (log 73). -/
def Book.refuseConflict (b : Book) (ed : Edition) (d : Date) (a : Answer) : Attempt Book :=
  match a.data with
  | .clash c => do
    let b ← b.tryRecords (b.coverReads ed d c.room c.slot)
    .error (b, a)
  | _ => .error (b, a)

/-- R24, R25, R168: read the family's rows, then test. -/
def Book.tryConflict (b : Book) (ed : Edition) (room : Nat) (d : Date) (start count buf : Nat) (excl : Option Record) :
    Attempt Book :=
  let b := b.readFamily ed room d
  match b.conflict ed room d start count buf excl with
  | some a => b.refuseConflict ed d a
  | none => .ok b

/-! ## The span check -/

/-- R23: a start slot of today is too late. -/
def Ctu.tooLate (t : Ctu) (start : Nat) : Bool :=
  t.delivered (start + 1) || (!t.delivered start && decide (boundaryMinute start ≤ t.reach))

/-- R23, with further grounds for BAD_REQUEST and the TOO_LATE test given. -/
def Book.spanCheckWith (b : Book) (d : Date) (start count : Nat) (bad late : Bool) : Option Answer :=
  firstFail
    [(b.bke.horizon.isNone, Answer.of .clockUnset),
     ((b.offset d).isNone || !spanInDay start count || bad, Answer.of .badRequest),
     (b.isToday d && late, Answer.of .tooLate)]

def Book.spanCheck (t : Ctu) (b : Book) (d : Date) (start count : Nat) (bad : Bool) : Option Answer :=
  b.spanCheckWith d start count bad (t.tooLate start)

/-- The start slot of a span dated today has begun (R5). -/
def Book.begun (t : Ctu) (b : Book) (d : Date) (start : Nat) : Bool := b.isToday d && t.delivered start

/-- R41: the start is past. -/
def Book.startPast (t : Ctu) (b : Book) (d : Date) (start : Nat) : Bool := b.isToday d && t.passed start

/-! ## Writing cells -/

/-- R19, R22: write a live row, when it is GOOD. The row is read each time a claim comes to write it, also where it is not
GOOD (log 101). -/
def Book.paintLive (b : Book) (room : Nat) (d : Date) (f : List Cell → List Cell) : Book :=
  let b := b.readLive .demand room d
  match b.row room d with
  | some r => if r.state = .good then (b.putRow { r with cells := f r.cells }).fresh (.liveRow room d) else b
  | none => b

/-- R75: write a draft row. -/
def Book.paintDraft (b : Book) (room : Nat) (d : Date) (f : List Cell → List Cell) : Book :=
  let b := b.readDraft .demand room d
  match b.draftRow room d with
  | some r => if r.damaged then b else (b.putDraftRow { r with cells := f r.cells }).fresh (.draftRow room d)
  | none => b

def Book.paintRow (b : Book) (ed : Edition) (room : Nat) (d : Date) (f : List Cell → List Cell) : Book :=
  if ed = .draft then b.paintDraft room d f else b.paintLive room d f

/-- R20: write what a record covers, in every row of its family. -/
def Book.cover (b : Book) (ed : Edition) (r : Record) : Book :=
  (rowFamily b.bke.rooms r.room).foldl (fun b x => b.paintRow ed x r.date (applyPatches (r.patches x))) b

/-- R20: free the cells a record covers, in every row of its family. -/
def Book.uncover (b : Book) (ed : Edition) (r : Record) : Book :=
  (rowFamily b.bke.rooms r.room).foldl (fun b x => b.paintRow ed x r.date (freePatches (r.patches x))) b

/-- R51: free a record's buffer cells alone. -/
def Book.uncoverBuffer (b : Book) (r : Record) : Book :=
  (rowFamily b.bke.rooms r.room).foldl (fun b x => b.paintRow .live x r.date (freePatches r.bufferPatch)) b

/-- R21: each row whose cells the claim changed has its version raised by one. -/
def Book.bumpRows (b : Book) (before : Table Row) : Book :=
  b.withBke
    { b.bke with
      rows := b.bke.rows.mapValues fun k r =>
        match before.find k with
        | some o => if o.cells = r.cells then r else { r with version := r.version + 1 }
        | none => r }

/-- R21: a claim on the live book without an answer. -/
def Book.claim (b : Book) (op : Book → Book) : Book := (op b).bumpRows b.bke.rows

/-- R21, R185: a claim on the live book that a request asks for, and its reply. -/
def Book.answerClaim (b : Book) (c : Ctx) (op : Book → Attempt (Book × Answer)) : Book :=
  let r := (op b).ends
  (r.1.bumpRows b.bke.rows).reply c r.2

/-! ## Rooms -/

/-- R15: the room a request names. -/
def Book.room (b : Book) (x : Nat) : Option Room := b.bke.rooms.find x

/-- R15, R196: NOT_FOUND/ROOM, then BUSY/COMMIT while a commit guards the room (log 15). -/
def Book.tryRoom (b : Book) (x : Nat) : Attempt Room :=
  match b.room x with
  | none => .error (b, Answer.because .notFound .room)
  | some r => if b.bke.guard.contains x then .error (b, Answer.because .busy .commit) else .ok r

/-- R37 checks 3 to 5. -/
def Book.tryBookable (b : Book) (x attendees : Nat) : Attempt Room := do
  let r ← b.tryRoom x
  refuseIf b
    [(!r.bookable, Answer.because .refused .room), (decide (r.seats < attendees), Answer.because .refused .seats)]
  return r

/-- R42: no run entry is free for a room that needs one. -/
def Book.runsShort (b : Book) (r : Room) : Bool := (b.squ.templateOf r).isSome && !b.squ.free

def fullTable : Answer := Answer.because .full .table
def fullRuns : Answer := Answer.because .full .runs
def fullDraft : Answer := Answer.because .full .draft
def draftDamaged : Answer := Answer.because .damaged .draft

/-! ## The row of a room-day -/

/-- R18: a row as it is created. -/
def Row.new (room : Nat) (d : Date) : Row :=
  { room := room, date := d, cells := freeCells, state := .good, version := 0 }

/-- R18, R31: a new row, written with fresh codes. -/
def Book.createRow (b : Book) (room : Nat) (d : Date) : Book := (b.putRow (Row.new room d)).fresh (.liveRow room d)

end Sys2Proof.Machine
end

