-- ==== Sys2Proof/Machine/Bookings.lean ====
section
/-! DEFINITION. Claims on live bookings (03): holds, confirmation, direct booking, restore, cancel, move, check-in,
extension, early end, closures, and the claims from panels and runs. -/

namespace Sys2Proof.Machine

/-! ## Shared parts of a meeting's life -/

/-- R33: a label of no characters is absent. -/
def cleanLabel : Option Label → Option Label
  | some [] => none
  | l => l

def labelBad (l : Option Label) : Bool := l.any fun x => decide (24 < x.length)

/-- R37 step 2: the grounds for BAD_REQUEST beside the span. -/
def bookBad (f : BookFields) : Bool := decide (383 < f.room) || decide (500 < f.attendees) || labelBad f.label

/-- R33: a new record of a meeting with the fields of a request. -/
def bookRecord (f : BookFields) (id buf : Nat) (ed : Edition) (o : Origin) (st : BState) : Record :=
  { id := id, kind := .meeting, edition := ed, room := f.room, date := f.date, start := f.start, count := f.count,
    organiser := f.organiser, attendees := f.attendees, label := cleanLabel f.label, origin := o, series := none,
    state := st, holdExpiry := none, graceExpiry := none, check := .none, bufSlots := buf, bufState := bufStateOf buf,
    order := none, run := none, cancelMark := false }

/-- The span of a record as replies give it. -/
def Book.placed (b : Book) (r : Record) : Placed :=
  { id := r.id, room := r.room, code := b.code r.room, date := r.date, start := r.start, count := r.count,
    bufSlots := r.bufSlots }

/-- R43: hand a change of a record to the PPU; `panel` is the asking room of a panel-originated change. -/
def Book.news (b : Book) (k : ChangeKind) (r : Record) (panel : Option Nat := none) : Book :=
  b.tellPpu (.change { kind := k, room := r.room, date := r.date, before := none, panel := panel })

def Book.dropHold (b : Book) (id : Nat) : Book :=
  b.withBke { b.bke with holds := b.bke.holds.filter fun h => h.id != id }

/-- R35: the buffer of a record that reaches RELEASED or CANCELLED, or whose buffer ends. -/
def BufState.freed : BufState → BufState
  | .reserved => .released
  | s => s

/-- R163: the booking's run is aborted. -/
def Book.abortRun (b : Book) (r : Record) : Book := b.inClaim fun q => q.abort r

/-- R42, R155: the SQU creates the run of the record in slot `n`, when its room needs one. A template that the SQU does not
hold at that moment of a commit gives no run, although R83's count of PUBLISH took it in (log 63). -/
def Book.makeRun (b : Book) (n : Nat) (checkin : Option Nat) : Book :=
  match b.soundAt n with
  | none => b
  | some r =>
    match b.room r.room with
    | none => b
    | some rm =>
      if (b.squ.templateOf rm).isSome then
        let id := b.squ.newRunId
        (b.inClaim fun q => { q.create id r.id r.room rm r.date r.start r.count checkin with lastRun := id }).putRecord n
          { r with run := some id }
      else b

/-- R155: the check-in minute of a record whose mark is EARLY. -/
def Record.earlyMinute (r : Record) : Option Nat := if r.check = .early then some (boundaryMinute r.start) else none

/-- R47: the record after its start is taken at start minute `m` in a room with this check-in setting and grace. -/
def Record.started (r : Record) (checkin : Bool) (grace m : Nat) : Record :=
  if r.check = .early then { r with state := .checkedIn, check := .done }
  else if checkin then { r with state := .awaitingCheckin, graceExpiry := some (min 1439 (m + grace)) }
  else { r with state := .inProgress }

/-- R47: the start of a meeting that reaches CHECKED_IN by its EARLY mark is handed to the SQU as a check-in at the start
minute `m`, its CHECKIN anchor (log 47); a check-in minute that its run holds already stays (R160). -/
def Book.anchorEarly (b : Book) (r : Record) (m : Nat) : Book := if r.check = .early then b.tellSqu r m else b

/-- R47: the meeting in slot `n` is started, with start minute `m`. -/
def Book.startMeeting (b : Book) (n m : Nat) : Book :=
  match b.soundAt n with
  | none => b
  | some r =>
    let rm := b.room r.room
    let r' := r.started (rm.any (·.checkin)) ((rm.map (·.grace)).getD 0) m
    (((b.putRecord n r').news .started r').tellCsc r'.id (.started r'.state)).anchorEarly r m

/-- R47: the start minute of a meeting started at once by a later claim. -/
def Ctu.startNow (t : Ctu) (start : Nat) : Nat := max (boundaryMinute start) t.minute

/-- R39, R40, R46, R64: a CONFIRMED meeting whose start slot has begun is started in the same claim. -/
def Book.startIfBegun (t : Ctu) (b : Book) (n : Nat) : Book :=
  match b.soundAt n with
  | none => b
  | some r => if r.state = .confirmed ∧ b.begun t r.date r.start then b.startMeeting n (t.startNow r.start) else b

/-- R42, R43: a meeting has reached CONFIRMED: its run, the hand-over, and its start when the slot has begun. -/
def Book.confirmed (t : Ctu) (b : Book) (n : Nat) : Book :=
  match b.soundAt n with
  | none => b
  | some r => ((b.makeRun n r.earlyMinute).news .confirmed r).startIfBegun t n

/-- R40: the reply of a claim that made the meeting in slot `n`. -/
def Book.bookedReply (b : Book) (n : Nat) : Answer :=
  match b.soundAt n with
  | some r => Answer.ok (.booked (b.placed r) r.state r.run)
  | none => Answer.ok .none

/-- R39, R41: the reply of a claim that confirmed or restored the meeting in slot `n`. -/
def Book.reachedReply (b : Book) (n : Nat) : Answer :=
  match b.soundAt n with
  | some r => Answer.ok (.reached r.id r.state r.run)
  | none => Answer.ok .none

/-- R36, R38, R44: a held meeting is removed. -/
def Book.removeHeld (b : Book) (n : Nat) (r : Record) : Book :=
  (((b.uncover .live r).dropHold r.id).dropSlot n).news .lapsed r

/-- R38: the hold lapses. -/
def Book.lapse (b : Book) (n : Nat) (r : Record) (cause : LapseCause) : Book :=
  (b.removeHeld n r).post
    (.holdLapsed r.id r.room (b.code r.room) r.date r.start r.count r.organiser cause)

/-- R44: a CONFIRMED meeting goes to CANCELLED. -/
def Book.cancelMeeting (b : Book) (n : Nat) (r : Record) : Book :=
  let r' := { r with state := .cancelled, bufState := r.bufState.freed, run := none }
  ((((b.uncover .live r).abortRun r).putRecord n r').news .cancelled r').tellCsc r.id .cancelled

/-- R49, R50: the meeting is released as a no-show. -/
def Book.noShowRelease (b : Book) (n : Nat) (r : Record) (cause : NoShowCause) : Book :=
  let r' := { r with state := .released, graceExpiry := none, bufState := r.bufState.freed, run := none }
  let kind := if cause = .grace then ChangeKind.releasedGrace else .releasedEnd
  let b' := (((b.uncover .live r).abortRun r).putRecord n r').news kind r'
  (b'.tellCsc r.id .released).post
    (.noShow r.id r.room (b.code r.room) r.date r.start r.count r.organiser cause)

/-- R27, R50: a meeting or a closure goes to ENDED; a RESERVED buffer stays. -/
def Book.endRecord (b : Book) (n : Nat) (r : Record) : Book :=
  let r' := { r with state := .ended }
  let b := (rowFamily b.bke.rooms r.room).foldl
    (fun b x => b.paintRow .live x r.date (freePatches (r.spanPatch x))) b
  (b.putRecord n r').news .ended r'

/-- R51: the buffer is released. -/
def Book.releaseBuf (b : Book) (n : Nat) (r : Record) : Book :=
  let r' := { r with bufState := .released }
  ((b.uncoverBuffer r).putRecord n r').news .buffer r'

/-! ## Finding the record a request names -/

/-- NOT_FOUND, then DAMAGED/RECORD; a record known by the draft index to be a draft one is no live record (R86). -/
def Book.tryLive (b : Book) (id : Nat) : Attempt (Book × Nat × Record) :=
  let f := b.fetch id
  match f.2 with
  | .live n r => .ok (f.1, n, r)
  | .damaged _ _ false => .error (f.1, Answer.because .damaged .record)
  | _ => .error (f.1, Answer.of .notFound)

/-- R6. -/
def Book.tryHorizon (b : Book) : Attempt Unit := refuseIf b [(b.bke.horizon.isNone, Answer.of .clockUnset)]

/-- R72: requests that act on LIVE only. -/
def Book.tryWriteLive (b : Book) : Attempt Unit :=
  refuseIf b [(b.bke.writeEdition == .draft, Answer.because .refused .draft)]

def closureRefusal (r : Record) : Bool × Answer := (r.kind == .closure, Answer.because .refused .closure)

def terminalRefusal (r : Record) : Bool × Answer := (!r.state.active, Answer.because .refused .terminal)

/-! ## HOLD, CONFIRM, BOOK, LOAD -/

/-- R37. -/
def Book.hold (t : Ctu) (f : BookFields) (minutes : Option Nat) (b : Book) : Attempt (Book × Answer) := do
  let asked := minutes.getD 0
  b.tryWriteLive
  refuseWith b (b.spanCheck t f.date f.start f.count (bookBad f || decide (30 < asked)))
  let rm ← b.tryBookable f.room f.attendees
  let buf := clipBuffer (f.start + f.count) (b.squ.bufferOf rm)
  let b ← b.tryConflict .live f.room f.date f.start f.count buf none
  refuseIf b
    [(b.tableFull, fullTable), (decide (Config.maxHolds ≤ b.bke.holds.length), Answer.because .full .holds)]
  let expiry := min 1439 (t.minute + (if asked = 0 then b.bke.holdMinutes else asked))
  let r := { bookRecord f b.newId buf .live .host .held with holdExpiry := some expiry }
  let entry : HoldEntry := { id := r.id, expiry := expiry, spent := t.minute == 1439 }
  let b := b.addNew r
  let b := b.withBke { b.bke with holds := insertBy (·.expiry) entry b.bke.holds }
  let b := (b.cover .live r).news .holdCreated r
  return (b, Answer.ok (.hold (b.placed r) expiry))

/-- R39. -/
def Book.confirm (t : Ctu) (id : Nat) (b : Book) : Attempt (Book × Answer) := do
  b.tryHorizon
  let (b, n, r) ← b.tryLive id
  refuseIf b [closureRefusal r, (r.state != .held, Answer.because .refused .state)]
  let b ← b.tryConflict .live r.room r.date r.start 0 0 none
  refuseIf b [((b.room r.room).any b.runsShort, fullRuns)]
  let r' := { r with state := .confirmed, holdExpiry := none }
  let b := ((b.putRecord n r').dropHold id).cover .live r'
  let b := b.confirmed t n
  return (b, b.reachedReply n)

/-- R40: BOOK in the LIVE write edition. -/
def Book.bookLive (t : Ctu) (f : BookFields) (b : Book) : Attempt (Book × Answer) := do
  refuseWith b (b.spanCheck t f.date f.start f.count (bookBad f))
  let rm ← b.tryBookable f.room f.attendees
  let buf := clipBuffer (f.start + f.count) (b.squ.bufferOf rm)
  let b ← b.tryConflict .live f.room f.date f.start f.count buf none
  refuseIf b [(b.tableFull, fullTable), (b.runsShort rm, fullRuns)]
  let r := bookRecord f b.newId buf .live .host .confirmed
  let n := b.newSlot
  let b := ((b.addNew r).cover .live r).confirmed t n
  return (b, b.bookedReply n)

/-- R41: the state of a LOAD as a state of a record. -/
def loadStateOf : LoadState → Option BState
  | .confirmed => some .confirmed
  | .checkedIn => some .checkedIn
  | .inProgress => some .inProgress
  | .other => none

/-- R41: the effects of the state a LOAD gives. -/
def Book.loadState (t : Ctu) (b : Book) (n : Nat) (r : Record) (past : Bool) : Book :=
  match r.state with
  | .checkedIn => (b.makeRun n (some (boundaryMinute r.start))).news .confirmed r
  | .inProgress => (b.makeRun n none).news .confirmed r
  | _ =>
    let b := (b.makeRun n none).news .confirmed r
    if past then b.startMeeting n (t.startNow r.start) else b

/-- R41. A state that is none of the three is answered BAD_REQUEST, without detail, with the other fields at the span
check (log 48). -/
def Book.load (t : Ctu) (f : BookFields) (id : Nat) (st : LoadState) (b : Book) : Attempt (Book × Answer) := do
  b.tryWriteLive
  let past := b.startPast t f.date f.start
  let bad := bookBad f || id == 0 || decide (65535 < id) || (loadStateOf st).isNone
  refuseWith b (b.spanCheckWith f.date f.start f.count bad (t.passed (f.start + f.count)))
  refuseIf b
    [(st != .confirmed && !past, Answer.because .badRequest .state),
     (b.usedIds.contains id, Answer.because .inUse .id)]
  let rm ← b.tryBookable f.room f.attendees
  let buf := clipBuffer (f.start + f.count) (b.squ.bufferOf rm)
  let b ← b.tryConflict .live f.room f.date f.start f.count buf none
  refuseIf b [(b.tableFull, fullTable), (b.runsShort rm, fullRuns)]
  let r := bookRecord f id buf .live .load ((loadStateOf st).getD .confirmed)
  let r := if r.state = .checkedIn then { r with check := .done } else r
  let n := b.newSlot
  let b := ((b.addRecord r).cover .live r).loadState t n r past
  return (b, b.reachedReply n)

/-! ## CLOSE_CELLS, CANCEL, MOVE in the LIVE write edition -/

/-- R26: a new closure record. -/
def closeRecord (f : CloseFields) (id : Nat) (ed : Edition) : Record :=
  { id := id, kind := .closure, edition := ed, room := f.room, date := f.date, start := f.start, count := f.count,
    organiser := f.organiser, attendees := 0, label := cleanLabel f.label, origin := .host, series := none,
    state := .confirmed, holdExpiry := none, graceExpiry := none, check := .none, bufSlots := 0, bufState := .none,
    order := none, run := none, cancelMark := false }

/-- R26 steps 1 and 2. A room index above 383 (R15) stands with the label among the grounds for BAD_REQUEST at step 2, so
before TOO_LATE (log 49). -/
def Book.closeSpan (t : Ctu) (b : Book) (f : CloseFields) : Option Answer :=
  b.spanCheck t f.date f.start f.count (decide (383 < f.room) || labelBad f.label)

/-- R26. -/
def Book.closeLive (t : Ctu) (f : CloseFields) (b : Book) : Attempt (Book × Answer) := do
  refuseWith b (b.closeSpan t f)
  let _ ← b.tryRoom f.room
  let b ← b.tryConflict .live f.room f.date f.start f.count 0 none
  refuseIf b [(b.tableFull, fullTable)]
  let r := closeRecord f b.newId .live
  let b := ((b.addNew r).cover .live r).news .closure r
  return (b, Answer.ok (.closed (b.placed r)))

/-- R27, R44: a closure goes to CANCELLED. -/
def Book.cancelClosure (b : Book) (n : Nat) (r : Record) : Book :=
  let r' := { r with state := .cancelled }
  ((b.uncover .live r).putRecord n r').news .cancelled r'

/-- R44. -/
def Book.cancelLive (id : Nat) (b : Book) : Attempt (Book × Answer) := do
  b.tryHorizon
  let (b, n, r) ← b.tryLive id
  refuseIf b [(r.kind == .meeting && r.state.started, Answer.because .refused .started), terminalRefusal r]
  if r.kind = .closure then
    return (b.cancelClosure n r, Answer.ok (.cancelled id (some .cancelled)))
  else if r.state = .held then
    return (b.removeHeld n r, Answer.ok (.cancelled id none))
  else
    return (b.cancelMeeting n r, Answer.ok (.cancelled id (some .cancelled)))

/-- R68: the other live instance records of the same series on the new date. -/
def Book.seriesOn (b : Book) (r : Record) (d : Date) : List (Nat × Record) :=
  b.sound.filter fun p =>
    r.series.isSome && d != r.date && p.2.edition == .live && p.2.series == r.series && p.2.date == d && p.2.id != r.id

/-- R68, R168: REFUSED/SERIES where one of them stands, once read. -/
def Book.trySeries (b : Book) (r : Record) (d : Date) : Attempt Book := do
  let b ← b.tryRecords ((b.seriesOn r d).map (·.1))
  refuseIf b [(!(b.seriesOn r d).isEmpty, Answer.because .refused .series)]
  return b

/-- R45 step 9, R147: the fit check of the record's order, and the order's move on FIT. -/
def Book.tryFit (b : Book) (r : Record) (rm : Room) (f : MoveFields) : Attempt Book :=
  match b.csc.orderFor r.id r.order with
  | none => .ok b
  | some o =>
    let slot := movedSlot o r.start f.start f.count
    match b.csc.fitRefusal o rm.kitchen f.date slot with
    | some a => .error (b, a)
    | none => match rm.kitchen with
      | some k => .ok (b.moveOrder o k f.date slot)
      | none => .ok b

/-- R162: the run of the moved record in slot `n`, behind every report handed to the SQU before (R43, log 61). -/
def Book.moveRun (b : Book) (n : Nat) (rm : Room) : Book :=
  match b.soundAt n with
  | none => b
  | some r =>
    if r.state ≠ .confirmed then b
    else
      let b := b.inClaim fun q => q
      match b.squ.ownRun r, b.squ.templateOf rm with
      | none, some _ => b.makeRun n r.earlyMinute
      | none, none => b
      | some run, some (t, _) =>
        if run.template = t then b.withSqu (b.squ.moveRetime run r.room rm r.date r.start r.count)
        else
          b.withSqu ((b.squ.dropRun run.id).create run.id r.id r.room rm r.date r.start r.count r.earlyMinute)
      | some run, none => (b.withSqu (b.squ.dropRun run.id)).putRecord n { r with run := none }

/-- R46: the record at its new place. -/
def Record.movedTo (r : Record) (f : MoveFields) (buf : Nat) : Record :=
  { r with
    room := f.room, date := f.date, start := f.start, count := f.count, bufSlots := buf, bufState := bufStateOf buf }

/-- R45, R46. The rows of the old family, whose cells the claim frees, are read behind the run availability check and
before the order's fit check, so that a row which this read finds uncorrectable refuses the MOVE with nothing changed
(R168, R169, log 62). -/
def Book.moveLive (t : Ctu) (f : MoveFields) (b : Book) : Attempt (Book × Answer) := do
  b.tryHorizon
  let (b, n, r) ← b.tryLive f.id
  refuseIf b
    [closureRefusal r, terminalRefusal r,
     (r.state.started || (r.state == .held && b.begun t r.date r.start), Answer.because .refused .started)]
  refuseWith b (b.spanCheck t f.date f.start f.count (decide (383 < f.room)))
  let b ← b.trySeries r f.date
  let rm ← b.tryBookable f.room r.attendees
  let buf := clipBuffer (f.start + f.count) (b.squ.bufferOf rm)
  let b ← b.tryConflict .live f.room f.date f.start f.count buf (some r)
  refuseIf b [(r.state == .confirmed && (b.squ.ownRun r).isNone && b.runsShort rm, fullRuns)]
  let b ← b.tryReadLive (b.familyDays r.room r.date)
  let b ← b.tryFit r rm f
  let r' := r.movedTo f buf
  let b := ((b.uncover .live r).putIndexed n r').cover .live r'
  let b := b.tellPpu
    (.change { kind := .moved, room := f.room, date := f.date, before := some (r.room, r.date), panel := none })
  let b := b.tellCsc r.id (.moved f.room f.date f.start f.count)
  let b := (b.moveRun n rm).startIfBegun t n
  return (b, Answer.ok (.placed (b.placed r') ((b.soundAt n).bind (·.run))))

/-! ## CHECK_IN, EXTEND, END_NOW -/

/-- R48: the check-in window of a CONFIRMED meeting is open. -/
def Book.windowOpen (t : Ctu) (b : Book) (r : Record) : Bool :=
  b.isToday r.date && decide (boundaryMinute r.start ≤ t.minute + Config.earlyMinutes)

/-- R48: the check-in of a meeting that awaits it or is in progress. -/
def Book.checkedIn (t : Ctu) (b : Book) (n : Nat) (r : Record) (panel : Option Nat) : Book :=
  let r' := { r with state := .checkedIn, check := .done, graceExpiry := none }
  ((b.putRecord n r').news .checkedIn r' panel).tellSqu r t.minute

/-- R48: the EARLY mark. -/
def Book.checkedEarly (b : Book) (n : Nat) (r : Record) (panel : Option Nat) : Book :=
  let r' := { r with check := .early }
  ((b.putRecord n r').news .checkedIn r' panel).tellSqu r (boundaryMinute r.start)

/-- R48: the outcome by state. A CONFIRMED meeting with mark EARLY is answered OK/EARLY also while its window is not open,
after a MOVE or a backward trim (log 50). -/
def Book.checkInMeeting (t : Ctu) (b : Book) (n : Nat) (r : Record) (panel : Option Nat) : Book × Answer :=
  match r.state with
  | .held => (b, Answer.because .refused .state)
  | .confirmed =>
    if r.check = .early then (b, Answer.because .ok .early)
    else if b.windowOpen t r then (b.checkedEarly n r panel, Answer.because .ok .early)
    else (b, Answer.because .refused .notOpen)
  | .awaitingCheckin | .inProgress => (b.checkedIn t n r panel, Answer.because .ok .checkedIn)
  | .checkedIn => (b, Answer.because .ok .checkedIn)
  | .released | .ended => (b, Answer.of .tooLate)
  | .cancelled => (b, Answer.because .refused .terminal)

/-- R48: CHECK_IN. -/
def Book.checkIn (t : Ctu) (id : Nat) (b : Book) : Attempt (Book × Answer) := do
  b.tryHorizon
  let f := b.fetch id
  match f.2 with
  | .nothing => .error (f.1, Answer.of .notFound)
  | .draft _ _ => .error (f.1, Answer.because .refused .draft)
  | .damaged _ _ true => .error (f.1, Answer.because .refused .draft)
  | .damaged _ _ false => .error (f.1, Answer.because .damaged .record)
  | .live n r =>
    refuseIf f.1 [closureRefusal r]
    return f.1.checkInMeeting t n r none

/-- R52 steps 4 to 7 and the extension, for the live record in slot `n`. -/
def Book.extendMeeting (n : Nat) (r : Record) (k : Nat) (panel : Option Nat) (b : Book) : Attempt (Book × Record) := do
  refuseIf b
    [closureRefusal r, (r.state == .held, Answer.because .refused .state), terminalRefusal r,
     (k == 0 || decide (4 < k) || decide (64 < r.start + r.count + k), Answer.of .badRequest)]
  let stop := r.start + r.count
  let buf := if r.bufState = .reserved then clipBuffer (stop + k) r.bufSlots else 0
  let b ← b.tryConflict .live r.room r.date stop k buf (some r)
  let grown := { r with count := r.count + k }
  let r' := if r.bufState = .reserved then { grown with bufSlots := buf, bufState := bufStateOf buf } else grown
  let b := ((b.uncover .live r).putRecord n r').cover .live r'
  let b := (b.news .retimed r' panel).tellCsc r.id (.extended r'.count)
  return (b.inClaim fun q => q.retime r r'.start r'.count, r')

/-- R52: EXTEND. -/
def Book.extend (id k : Nat) (b : Book) : Attempt (Book × Answer) := do
  b.tryWriteLive
  b.tryHorizon
  let (b, n, r) ← b.tryLive id
  let (b, r') ← b.extendMeeting n r k none
  return (b, Answer.ok (.extended r'.start r'.count r'.bufSlots))

/-- R53: slot `c`: the current slot, or the slot that contains the reach mark while BEFORE_DAY. -/
def Ctu.slotC (t : Ctu) : Nat :=
  match t.slot with
  | .slot c => c
  | .beforeDay => (t.reach - 360) / 15
  | .afterDay => 63

/-- R53: the record after its early end with `k` slots left, its buffer re-placed when `fits`. -/
def Record.endedAt (r : Record) (k buf : Nat) (fits : Bool) : Record :=
  if r.bufState = .reserved then
    if fits then { r with count := k, bufSlots := buf, bufState := bufStateOf buf }
    else { r with count := k, bufState := .released }
  else { r with count := k }

/-- R53: a started meeting ends at the boundary that closes slot `c`; none where nothing changes. Where its own read of the
family's rows finds one uncorrectable it still ends, its buffer RELEASED (log 87). -/
def Book.endMeeting (t : Ctu) (b : Book) (n : Nat) (r : Record) (panel : Option Nat) : Option (Book × Record) :=
  let k := max 1 (t.slotC + 1 - r.start)
  if r.count ≤ k then none
  else
    let buf := clipBuffer (r.start + k) r.bufSlots
    let b := b.readFamily .live r.room r.date
    let fits := (b.conflict .live r.room r.date (r.start + k) 0 buf (some r)).isNone
    let r' := r.endedAt k buf fits
    let b := ((b.uncover .live r).putRecord n r').cover .live r'
    let b := (b.news .retimed r' panel).tellCsc r.id (.endedEarly k)
    some (b.inClaim fun q => q.retime r r'.start k, r')

def endedReply (r : Record) (d : Detail) : Answer :=
  { status := .ok, detail := d, data := .endedEarly r.start r.count r.bufState }

/-- R53: END_NOW. -/
def Book.endNow (t : Ctu) (id : Nat) (b : Book) : Attempt (Book × Answer) := do
  b.tryHorizon
  let (b, n, r) ← b.tryLive id
  refuseIf b
    [closureRefusal r, (r.state == .held, Answer.because .refused .state),
     (r.state == .confirmed, Answer.because .refused .notStarted), terminalRefusal r]
  match b.endMeeting t n r none with
  | none => return (b, endedReply r .unchanged)
  | some (b, r') => return (b, endedReply r' .none)

/-! ## Claims from panels and runs -/

/-- R54: the live meetings of today that a panel claim on room `x` may choose from. -/
def Book.candidates (b : Book) (x : Nat) : List (Nat × Record) :=
  b.sound.filter fun p =>
    p.2.edition == .live && p.2.kind == .meeting && b.isToday p.2.date &&
      (candidateRooms b.bke.rooms x).contains p.2.room

/-- R57: a DAMAGED live record whose index entry places it among those meetings. -/
def Book.lostCandidate (b : Book) (x : Nat) : Option Damaged :=
  (b.damagedRecords.map (·.2)).find? fun d =>
    !b.isDraftId d.known && d.place.any fun p => b.isToday p.2 && (candidateRooms b.bke.rooms x).contains p.1

/-- The span of the record covers slot `c` of R53. -/
def Record.coversNow (r : Record) (t : Ctu) : Bool := decide (r.start ≤ t.slotC) && decide (t.slotC < r.start + r.count)

/-- R49, R54: the meeting a panel CHECK_IN chooses: one in AWAITING_CHECKIN, else a CONFIRMED one with its window open,
else one that the grace expiry has released in the slot it covers, whose check-in R49 answers TOO_LATE (log 51). -/
def Book.checkInChoice (t : Ctu) (b : Book) (x : Nat) : Option (Nat × Record) :=
  let l := b.candidates x
  let awaiting := l.find? fun p => p.2.state == .awaitingCheckin
  let early := l.find? fun p => p.2.state == .confirmed && b.windowOpen t p.2
  let gone := l.find? fun p => p.2.state == .released && p.2.coversNow t
  (awaiting.orElse fun _ => early).orElse fun _ => gone

/-- R54: the started meeting whose span covers slot `c`. -/
def Book.runningChoice (t : Ctu) (b : Book) (x : Nat) : Option (Nat × Record) :=
  (b.candidates x).find? fun p => p.2.state.started && p.2.coversNow t

/-- What a panel claim comes to: its answer, the booking concerned, and the span of an accepted WALKUP, END or
EXTEND. -/
structure PanelResult where
  answer : Answer
  subject : Option Nat
  placed : Option Placed

def PanelResult.refused (a : Answer) (subject : Option Nat) : PanelResult :=
  { answer := a, subject := subject, placed := none }

/-- R169: the first of the records in these slots that is DAMAGED. -/
def Book.lostAmong (b : Book) (l : List Nat) : Option Damaged :=
  l.findSome? fun n => match b.slot n with
    | some (.damaged d) => some d
    | _ => none

/-- R54, R57, R168, R169: the claim of a panel on the meeting chosen for its room. The candidates are read on the demand
path first, and where this read finds one of them lost the claim is answered DAMAGED; so it is where none is chosen and
a record among them was DAMAGED before (log 52). -/
def Book.onChoice (b : Book) (x : Nat) (choose : Book → Option (Nat × Record))
    (f : Book → Nat → Record → Book × PanelResult) : Book × PanelResult :=
  if b.bke.horizon.isNone then (b, .refused (Answer.of .clockUnset) none)
  else
    let l := (b.candidates x).map (·.1)
    let b := b.readSlots l
    match b.lostAmong l, choose b, b.lostCandidate x with
    | some d, _, _ => (b, .refused (Answer.of .damaged) d.id)
    | none, some p, _ => f b p.1 p.2
    | none, none, some d => (b, .refused (Answer.of .damaged) d.id)
    | none, none, none => (b, .refused (Answer.of .notFound) none)

/-- R54. -/
def Book.panelCheckIn (t : Ctu) (b : Book) (room : Nat) : Book × PanelResult :=
  b.onChoice room (fun b => b.checkInChoice t room) fun b n r =>
    let x := b.checkInMeeting t n r (some room)
    (x.1, .refused x.2 (some r.id))

/-- R54. -/
def Book.panelEnd (t : Ctu) (b : Book) (room : Nat) : Book × PanelResult :=
  b.onChoice room (fun b => b.runningChoice t room) fun b n r =>
    match b.endMeeting t n r (some room) with
    | none => (b, { answer := Answer.because .ok .unchanged, subject := some r.id, placed := some (b.placed r) })
    | some (b, r') => (b, { answer := Answer.of .ok, subject := some r.id, placed := some (b.placed r') })

/-- R54. -/
def Book.panelExtend (t : Ctu) (b : Book) (room : Nat) : Book × PanelResult :=
  b.onChoice room (fun b => b.runningChoice t room) fun b n r =>
    match b.extendMeeting n r 1 (some room) with
    | .error (b, a) => (b, .refused a (some r.id))
    | .ok (b, r') => (b, { answer := Answer.of .ok, subject := some r.id, placed := some (b.placed r') })

/-- R55: the fields of a walk-up. -/
def walkupFields (room : Nat) (d : Date) (start count : Nat) : BookFields :=
  { room := room, date := d, start := start, count := count, attendees := 0, organiser := 0, label := none }

/-- R55: the current slot, when one is open. -/
def Ctu.openSlot (t : Ctu) : Option Nat :=
  match t.slot with
  | .slot c => some c
  | _ => none

/-- R55. -/
def Book.walkup (t : Ctu) (room slots : Nat) (b : Book) : Attempt (Book × Record) := do
  b.tryHorizon
  match b.bke.horizon, t.openSlot with
  | some h, some c =>
    let rm ← b.tryRoom room
    refuseIf b [(!rm.bookable, Answer.because .refused .room), (!rm.walkup, Answer.because .refused .walkup)]
    let count := min slots (64 - c)
    let buf := clipBuffer (c + count) (b.squ.bufferOf rm)
    let b ← b.tryConflict .live room h.today c count buf none
    refuseIf b [(b.tableFull, fullTable), (b.runsShort rm, fullRuns)]
    let r := { bookRecord (walkupFields room h.today c count) b.newId buf .live .panel .checkedIn with check := .done }
    let n := b.newSlot
    let b := ((b.addNew r).cover .live r).makeRun n (some t.minute)
    return (b.news .walkup r (some room), r)
  | _, _ => .error (b, Answer.because .refused .notOpen)

/-- R55. -/
def Book.panelWalkup (t : Ctu) (b : Book) (room slots : Nat) : Book × PanelResult :=
  match b.walkup t room slots with
  | .error (b, a) => (b, .refused a none)
  | .ok (b, r) => (b, { answer := Answer.of .ok, subject := some r.id, placed := some (b.placed r) })

/-- R57, R169: a record found DAMAGED is answered DAMAGED to a panel, where a request has DAMAGED/RECORD. -/
def Answer.toPanel (a : Answer) : Answer :=
  if a.status = .damaged ∧ a.detail = .record then Answer.of .damaged else a

/-- R54, R125: take the panel claim at the head, when it is of the kind `f` serves, and return its outcome. -/
def Book.panelClaim (b : Book) (f : PanelClaim → Book → Option (Book × PanelResult)) : Book :=
  match b.mail.ppuToBke with
  | [] => b
  | c :: rest =>
    match f c (b.withMail { b.mail with ppuToBke := rest }) with
    | none => b
    | some (x, r) =>
      let x := x.bumpRows b.bke.rows
      x.withMail
        { x.mail with
          bkeToPanel := x.mail.bkeToPanel ++
            [{ claim := c, status := r.answer.toPanel.status, detail := r.answer.toPanel.detail, subject := r.subject,
               placed := r.placed }] }

/-- R51: a run's release claim, for the record that has the booking id when the claim is taken (log 112). -/
def Book.releaseClaim (b : Book) (booking : Nat) : Book :=
  let f := b.fetch booking
  match f.2 with
  | .live n r => if r.bufState = .reserved then f.1.releaseBuf n r else f.1
  | _ => f.1

/-- R51: take the release claim at the head. -/
def Book.releaseBuffer (b : Book) : Book :=
  match b.mail.squToBke with
  | [] => b
  | id :: rest => (b.withMail { b.mail with squToBke := rest }).claim fun b => b.releaseClaim id

/-! ## ORDER placement at the BKE -/

/-- R134: the BKE's checks of a placement claim, and the consultation they lead to. -/
def Book.placementChecks (f : OrderFields) (b : Book) : Attempt (Book × Nat × Record × Consultation) := do
  let x := b.fetch f.booking
  match x.2 with
  | .nothing => .error (x.1, Answer.of .notFound)
  | .draft _ _ => .error (x.1, Answer.because .refused .draft)
  | .damaged _ _ true => .error (x.1, Answer.because .refused .draft)
  | .damaged _ _ false => .error (x.1, Answer.because .damaged .record)
  | .live n r =>
    let slot := f.slot.getD r.start
    refuseIf x.1
      [closureRefusal r, (!(r.state == .confirmed || r.state.started), Answer.because .refused .state),
       (decide (slot < r.start) || decide (r.start + r.count ≤ slot), Answer.because .badRequest .slot)]
    match (b.room r.room).bind (·.kitchen) with
    | none => .error (x.1, Answer.because .refused .noKitchen)
    | some k =>
      return (x.1, n, r,
        { booking := r.id, kitchen := k, slot := slot, lines := f.lines, wait := f.wait
          copy := { date := r.date, room := r.room, start := r.start, count := r.count, state := some r.state,
                    label := r.label } })

/-- R134: the placement claim whole. -/
def Book.placeOrder (f : OrderFields) (b : Book) : Book × Answer :=
  match b.placementChecks f with
  | .error p => p
  | .ok (b, n, r, q) =>
    let x := b.consult q
    match x.2.2 with
    | some id => (x.1.putRecord n { r with order := some id }, x.2.1)
    | none => (x.1, x.2.1)

/-- R134: take the placement claim at the head; the CSC posts the reply. -/
def Book.orderPlacementClaim (b : Book) : Book :=
  match b.mail.cscToBke with
  | [] => b
  | c :: rest => (b.withMail { b.mail with cscToBke := rest }).answer c.ctx fun b => b.placeOrder c.fields

/-! ## The steps -/

/-- HOLD (R37). -/
def execHold (s : State) : Outcome :=
  onBook (fun t b => b.serve .bke fun q c b => match q with
    | .hold f m => some (b.answerClaim c (Book.hold t f m))
    | _ => none) s

/-- CONFIRM (R39). -/
def execConfirm (s : State) : Outcome :=
  onBook (fun t b => b.serve .bke fun q c b => match q with
    | .confirm id => some (b.answerClaim c (Book.confirm t id))
    | _ => none) s

/-- LOAD (R41). -/
def execLoad (s : State) : Outcome :=
  onBook (fun t b => b.serve .bke fun q c b => match q with
    | .load f id st => some (b.answerClaim c (Book.load t f id st))
    | _ => none) s

/-- EXTEND (R52). -/
def execExtend (s : State) : Outcome :=
  onBook (fun _ b => b.serve .bke fun q c b => match q with
    | .extend id k => some (b.answerClaim c (Book.extend id k))
    | _ => none) s

/-- END_NOW (R53). -/
def execEndNow (s : State) : Outcome :=
  onBook (fun t b => b.serve .bke fun q c b => match q with
    | .endNow id => some (b.answerClaim c (Book.endNow t id))
    | _ => none) s

/-- CHECK_IN (R48). -/
def execCheckIn (s : State) : Outcome :=
  onBook (fun t b => b.serve .bke fun q c b => match q with
    | .checkIn id _ => some (b.answerClaim c (Book.checkIn t id))
    | _ => none) s

/-- PANEL_CHECK_IN (R54). -/
def execPanelCheckIn (s : State) : Outcome :=
  onBook (fun t b => b.panelClaim fun c b => match c.event with
    | .checkIn _ => some (b.panelCheckIn t c.room)
    | _ => none) s

/-- PANEL_WALKUP (R55). -/
def execPanelWalkup (s : State) : Outcome :=
  onBook (fun t b => b.panelClaim fun c b => match c.event with
    | .walkup k => some (b.panelWalkup t c.room k)
    | _ => none) s

/-- PANEL_END (R53, R54). -/
def execPanelEnd (s : State) : Outcome :=
  onBook (fun t b => b.panelClaim fun c b => match c.event with
    | .endMeeting => some (b.panelEnd t c.room)
    | _ => none) s

/-- PANEL_EXTEND (R52, R54). -/
def execPanelExtend (s : State) : Outcome :=
  onBook (fun t b => b.panelClaim fun c b => match c.event with
    | .extend => some (b.panelExtend t c.room)
    | _ => none) s

/-- RELEASE_BUFFER (R51). -/
def execReleaseBuffer (s : State) : Outcome := onBook (fun _ b => b.releaseBuffer) s

/-- ORDER_PLACEMENT_CLAIM (R134, R135). -/
def execOrderPlacementClaim (s : State) : Outcome := onBook (fun _ b => b.orderPlacementClaim) s

end Sys2Proof.Machine
end

