-- ==== Sys2Proof/Machine/Bodies.lean ====
section
/-! DEFINITION. The bodies of replies and notices, field after field: the named fields of each in the order that the rule
that owns it lists them (R180); the bytes of one field are a free value (log 5). The host room code follows the room it
belongs to in every body that names a room (R15), also where the rule that owns the body lists none (log 93). -/

namespace Sys2Proof.Machine

/-- One named field of a body, whose bytes are taken for the rule that lists it. -/
abbrev BodyField := Nat → List Byte

/-- A field with its name and value; a list, and a value that may be absent, is one field. -/
def named {α : Type} (name : String) (value : α) : BodyField := fun rule => Config.fieldBytes rule name value

/-- R180: the fields of a rule, in the order given. -/
def bodyOf (rule : Nat) (l : List BodyField) : List Byte := l.flatMap fun f => f rule

/-! ## Parts that several bodies share -/

def spanField (start count : Nat) : BodyField := named "span" (start, count)

/-- R26. -/
def Placed.closureFields (p : Placed) : List BodyField :=
  [named "booking id" p.id, named "room index" p.room, named "host room code" p.code, named "date" p.date,
    spanField p.start p.count]

/-- R37, R40, R46, R79, R80: the place of a meeting. -/
def Placed.placeFields (p : Placed) : List BodyField :=
  [named "host room code" p.code, named "date" p.date, spanField p.start p.count, named "buffer slots" p.bufSlots]

/-- R37, R40, R46, R80. -/
def Placed.fields (p : Placed) : List BodyField := named "booking id" p.id :: p.placeFields

/-- R56: the fields of R33, with the host room code of the record's room. -/
def Record.fields (r : Record) (code : Option RoomCode) : List BodyField :=
  [named "booking id" r.id, named "kind" r.kind, named "edition" r.edition, named "room" r.room, named "date" r.date,
    named "start slot" r.start, named "slot count" r.count, named "organiser reference" r.organiser,
    named "attendees" r.attendees, named "label" r.label, named "origin" r.origin, named "series id" r.series,
    named "state" r.state, named "hold expiry minute" r.holdExpiry, named "grace expiry minute" r.graceExpiry,
    named "check-in mark" r.check, named "buffer slots" r.bufSlots, named "buffer state" r.bufState,
    named "order id" r.order, named "run id" r.run, named "draft-cancel mark" r.cancelMark, named "condition" "SOUND",
    named "host room code" code]

/-- R71: the fields of R60. -/
def Series.bodyFields (s : Series) : List BodyField :=
  [named "series id" s.id, named "room" s.room, named "start slot" s.start, named "slot count" s.count,
    named "weekday mask" s.mask, named "first date" s.first, named "last date" s.last,
    named "first-date-reached mark" s.firstReached, named "last-date-reached mark" s.lastReached,
    named "organiser reference" s.organiser, named "attendees" s.attendees, named "label" s.label,
    named "materialised count" s.made, named "skipped count" s.skipped]

/-- R65, R66: what a skip tells of a CONFLICT: the covering booking id and the slot. -/
def Skip.cover (k : Skip) : Option (Option Nat × Nat) := k.clash.map fun c => (c.booking, c.slot)

/-- R127: the fields of R110, inputs and content, with the version. -/
def Page.fields (room : Nat) (p : Page) : List BodyField :=
  [named "room index" room, named "overlay setting" p.overlay, named "release mark" p.release,
    named "reference slot" p.reference, named "display state" p.content.display,
    named "walk-up offered" p.content.walkup, named "check-in open" p.content.checkinOpen,
    named "overlay message" p.content.overlay, named "latch group" p.content.group,
    named "host room code" p.content.code, named "current end minute" p.content.endMinute,
    named "next booking start minute" p.content.nextMinute, named "free-until minute" p.content.freeUntil,
    named "current label" p.content.label, named "next label" p.content.nextLabel, named "version" p.version]

/-- R107. -/
def StationView.fields (s : StationView) : List BodyField :=
  [named "type" s.type, named "binding" s.binding, named "host room code" s.code, named "state" s.state,
    named "cause" s.cause, named "session number" s.session, named "advertised credits" s.advertised,
    named "credits in hand" s.credits, named "page slot" s.pageSlot, named "delivered page version" s.delivered.1,
    named "delivered page kind" s.delivered.2, named "reported shown version" s.shown,
    named "result list length" s.results, named "results awaited" s.resultsAwaited, named "ticket slot" s.ticketSlot,
    named "call slot" s.callSlot, named "clear mark" s.clearMark, named "consecutive failures" s.failures,
    named "fault count" s.faults, named "last poll minute" s.lastPoll, named "transaction in flight" s.inFlight]

/-- R136, R150: the fields of R132. -/
def OrderView.fields (o : OrderView) : List BodyField :=
  [named "order id" o.id, named "booking id" o.booking, named "kitchen" o.kitchen, named "delivery slot" o.slot,
    named "window" o.window, named "lines" o.lines, named "covers" o.covers, named "cut-off minute" o.cutOff,
    named "cut-off fired" o.fired, named "state" o.state, named "ticket" o.ticket, named "void owed" o.voidOwed,
    named "booking copy" o.copy]

/-- R135. -/
def PlacedOrderView.fields (o : PlacedOrderView) : List BodyField :=
  [named "order id" o.id, named "booking id" o.booking, named "kitchen" o.kitchen, named "delivery slot" o.slot,
    named "window" o.window, named "covers" o.covers, named "state" o.state, named "cut-off minute" o.cutOff,
    named "remaining covers" o.remaining]

/-- R150: READ_CAPACITY's fields of the kitchen. -/
def KitchenView.fields (k : KitchenView) : List BodyField :=
  [named "cut-off minutes" k.cutOff, named "terminal station" k.terminal, named "terminal link" k.online,
    named "unreachable mark" k.unreachable, named "waitlist length" k.waitlist, named "pending list length" k.tickets,
    named "call list length" k.calls, named "ignored event count" k.ignored]

/-- R165: a step with its number, as READ_RUN lists it. -/
def RunStep.listed (n : Nat) (s : RunStep) : Nat × Anchor × Int × StepAction × StepMark × Option Nat × Option Nat :=
  (n, s.step.anchor, s.step.offset, s.step.action, s.mark, s.due, s.firedAt)

/-- R165. -/
def Run.fields (r : Run) (code : Option RoomCode) (offset : Option Nat) : List BodyField :=
  [named "run id" r.id, named "booking id" r.booking, named "template id" r.template, named "state" r.state,
    named "check-in basis" r.fromCheckin, named "room index" r.room, named "host room code" code, named "date" r.date,
    named "day offset" offset, named "start minute" r.startMinute, named "end minute" r.endMinute,
    named "check-in minute" r.checkinMinute,
    named "steps" ((r.steps.zipIdx 1).map fun p => p.1.listed p.2)]

/-- R194: every field of an item of R192, behind its kind and key (log 5). -/
def itemFields : Item → List BodyField
  | .room x i =>
    [named "kind" "ROOM", named "key" x, named "host room code" i.code, named "building" i.building,
      named "floor" i.floor, named "seats" i.seats, named "bookable" i.bookable, named "walk-up allowed" i.walkup,
      named "check-in required" i.checkin, named "grace minutes" i.grace, named "kitchen" i.kitchen,
      named "template" i.template, named "latch group" i.group, named "room kind" i.kind,
      named "combined room" i.combined]
  | .combined x l => [named "kind" "COMBINED", named "key" x, named "part list" l]
  | .kitchen k i =>
    [named "kind" "KITCHEN", named "key" k, named "capacity" i.capacity, named "cut-off minutes" i.cutOff]
  | .template n t =>
    [named "kind" "TEMPLATE", named "key" n, named "buffer slots" t.buffer, named "step list" t.steps]
  | .station g a i =>
    [named "kind" "STATION", named "key" (g, a), named "type" i.type, named "binding" i.binding]
  | .group g i => [named "kind" "GROUP", named "key" g, named "mode" i.latched, named "dark flag" i.dark]
  | .settings x =>
    [named "kind" "SETTINGS", named "default hold minutes" x.holdMinutes, named "poll period" x.pollPeriod,
      named "grace default" x.graceDefault]

/-- R194: what CONFIG_GET carries of SETTINGS beside the item. -/
def settingsFields : Option (Nat × Bool × Half) → List BodyField
  | none => []
  | some x =>
    [named "early check-in minutes" x.1, named "configuration state" x.2.1, named "commit number" x.2.2]

/-! ## Replies -/

/-- R180: the bytes of a reply's named fields; none where it has no field. MOVE of a draft record is answered with the body
of R46, its run id absent (R80, log 89). -/
def ReplyData.bytes : ReplyData → List Byte
  | .none => []
  | .clockSet date weekday minute slot =>
    bodyOf 8 [named "date" date, named "weekday" weekday, named "minute" minute, named "current slot" slot]
  | .trimmed minute slot => bodyOf 10 [named "minute" minute, named "current slot" slot]
  | .clock state date minute second reach slot window day13 =>
    bodyOf 13
      [named "clock state" state, named "date" (date.map (·.1)), named "weekday" (date.map (·.2)),
        named "minute" minute, named "second" second, named "reach mark" reach, named "current slot" slot,
        named "current window" window, named "day offset 13 date" day13]
  | .room x code => bodyOf 25 [named "room" x, named "host room code" code]
  | .roomDay x code date => bodyOf 82 [named "room" x, named "host room code" code, named "date" date]
  | .clash c =>
    bodyOf 25
      [named "room" c.room, named "host room code" c.code, named "slot" c.slot, named "cell state" c.cell,
        named "covering booking id" c.booking]
  | .closed p => bodyOf 26 p.closureFields
  | .placed p runId => bodyOf 46 (p.fields ++ [named "run id" runId])
  | .row x r date offset edition state version base cells covers more =>
    bodyOf 28
      [named "room index" x, named "host room code" r.code, named "kind" r.kind, named "building" r.building,
        named "floor" r.floor, named "date" date, named "day offset" offset, named "edition read" edition,
        named "draft row used" base.isSome, named "row state" state, named "live row version" version,
        named "base version" base, named "cell states" cells, named "cover list" covers, named "more" more]
  | .damagedIds ids total => bodyOf 28 [named "booking ids" ids, named "number" total]
  | .found rooms skipped next =>
    bodyOf 29 [named "rooms" rooms, named "skipped count" skipped, named "next room" next]
  | .hold p expiry => bodyOf 37 (p.fields ++ [named "hold expiry minute" expiry])
  | .booked p state runId => bodyOf 40 (p.fields ++ [named "state reached" state, named "run id" runId])
  | .reached id state runId =>
    bodyOf 39 [named "booking id" id, named "state reached" state, named "run id" runId]
  | .cancelled id state => bodyOf 44 [named "booking id" id, named "state reached" state]
  | .draftMoved old p => bodyOf 79 ([named "old booking id" old, named "new booking id" p.id] ++ p.placeFields)
  | .marked id => bodyOf 78 [named "booking id" id]
  | .extended start count bufSlots => bodyOf 52 [spanField start count, named "buffer slots" bufSlots]
  | .endedEarly start count bufState => bodyOf 53 [spanField start count, named "buffer state" bufState]
  | .booking r code => bodyOf 56 (r.fields code)
  | .damaged id place code =>
    bodyOf 56
      [named "booking id" id, named "room index" (place.map (·.1)), named "host room code" code,
        named "date" (place.map (·.2))]
  | .seriesMade id x code lastReached made skipped ids skips more =>
    bodyOf 65
      [named "series id" id, named "room index" x, named "host room code" code,
        named "last-date-reached mark" lastReached, named "materialised count" made, named "skipped count" skipped,
        named "booking ids" ids, named "skip list" (skips.map fun k => (k.date, k.status, k.detail, k.cover)),
        named "more skips" more]
  | .seriesCancelled id gone running terminal ids =>
    bodyOf 69
      [named "series id" id, named "instances cancelled" gone, named "instances left running" running,
        named "terminal instances" terminal, named "booking ids" ids]
  | .series s code dates =>
    bodyOf 71 (s.bodyFields ++ [named "host room code" code, named "instance list" dates])
  | .editions read write => bodyOf 72 [named "read edition" read, named "write edition" write]
  | .draftState read write lost rows records marks =>
    bodyOf 72
      [named "read edition" read, named "write edition" write, named "draft condition" lost,
        named "draft rows" rows, named "draft records" records, named "marked records" marks]
  | .stale total days => bodyOf 82 [named "stale room-days" total, named "list" days]
  | .runsNeeded needed free => bodyOf 83 [named "count needed" needed, named "entries free" free]
  | .published rows live runs gone lapsed lapsedIds =>
    bodyOf 84
      [named "rows replaced" rows, named "records made live" live, named "runs created" runs,
        named "records cancelled" gone, named "lapsed count" lapsed, named "lapsed ids" lapsedIds]
  | .discarded rows records marks =>
    bodyOf 85 [named "draft rows" rows, named "draft records" records, named "marks" marks]
  | .stationReset segment address before =>
    bodyOf 106 [named "segment" segment, named "address" address, named "state before" before]
  | .station s => bodyOf 107 s.fields
  | .latched groups => bodyOf 121 [named "groups" groups]
  | .page x p mode dark darkPeriod panels =>
    bodyOf 127
      (p.fields x ++
        [named "group mode" mode, named "dark flag" dark, named "dark-period mark" darkPeriod,
          named "panels" panels])
  | .order o => bodyOf 135 o.fields
  | .orderChanged o code => bodyOf 136 (o.fields ++ [named "host room code" code])
  | .readOrder o minute code =>
    bodyOf 150 (o.fields ++ [named "delivery minute" minute, named "host room code" code])
  | .capacity k entries more => bodyOf 150 (k.fields ++ [named "entries" entries, named "more" more])
  | .waitlist orders => bodyOf 150 [named "waitlist" orders]
  | .run r code offset => bodyOf 165 (r.fields code offset)
  | .rebuilt x code date state version counted =>
    bodyOf 175
      [named "room index" x, named "host room code" code, named "date" date, named "row state" state,
        named "row version" version, named "damaged records" counted]
  | .forgotten id place code rows =>
    bodyOf 176
      [named "booking id" id, named "room index" (place.map (·.1)), named "host room code" code,
        named "date" (place.map (·.2)), named "rows" rows]
  | .scrub passes position place isRow corrected uncorrectable rebuilding quarantined lost unknownPlace
      draftDamaged =>
    bodyOf 177
      [named "pass count" passes, named "patrol position" position, named "item named" (isRow, place),
        named "corrected count" corrected, named "uncorrectable count" uncorrectable, named "REBUILDING" rebuilding,
        named "QUARANTINED" quarantined, named "DAMAGED records" lost, named "room unknown" unknownPlace,
        named "draft condition" draftDamaged]
  | .identity part revision valid lastReset occupied awaiting credit tags replies notices batch dropped rejected
      overruns clashes =>
    bodyOf 190
      [named "part identity" part, named "revision number" revision, named "configuration state" valid,
        named "last reset" lastReset, named "occupied count" occupied, named "awaiting-return count" awaiting,
        named "host credit count" credit, named "outstanding tags" tags, named "reply places" replies,
        named "notice places" notices, named "batch state" batch, named "dropped count" dropped,
        named "rejected-frame count" rejected, named "overrun count" overruns, named "tag-clash count" clashes]
  | .putIndex index => bodyOf 193 [named "put index" index]
  | .item i following settings =>
    bodyOf 194 (itemFields i ++ named "following key" following :: settingsFields settings)

/-! ## Notices -/

/-- R182: the fields of OVERRUN in either form. -/
def overrunBytes (tag code length occupied tags : Nat) : List Byte :=
  bodyOf 182
    [named "tag" tag, named "code" code, named "length" length, named "occupied count" occupied,
      named "outstanding tags" tags]

/-- R126. -/
def PanelAction.fields (a : PanelAction) : List BodyField :=
  [named "segment" a.segment, named "address" a.address, named "room index" a.room, named "host room code" a.code,
    named "event kind" (eventKindOf a.event), named "status" a.status, named "detail" a.detail, named "id" a.subject,
    named "badge reference" (badgeOf a.event), named "span" a.span]

/-- R180: the bytes of a notice's named fields behind the "dropped before" count. -/
def Notice.bytes : Notice → List Byte
  | .hello part revision credit valid kind =>
    bodyOf 188
      [named "part identity" part, named "revision number" revision, named "host credit count" credit,
        named "configuration state" valid, named "reset kind" kind]
  | .frameRejected received freed failed =>
    bodyOf 182 [named "blocks received" received, named "blocks freed" freed, named "check failed" failed]
  | .overrun tag code length occupied tags => overrunBytes tag code length occupied tags
  | .tagClash tag code => bodyOf 182 [named "tag" tag, named "code" code]
  | .clockState state date weekday minute slot reach cause =>
    bodyOf 14
      ([named "clock state" state, named "date" date, named "weekday" weekday, named "minute" minute,
        named "current slot" slot, named "reach mark" reach] ++
        match cause with
        | .set => [named "cause" "SET"]
        | .trim amount => [named "cause" "TRIM", named "trim amount" amount])
  | .dayOpened today weekday day13 =>
    bodyOf 14 [named "date" today, named "weekday" weekday, named "day offset 13 date" day13]
  | .holdLapsed id room code date start count organiser cause =>
    bodyOf 38
      [named "booking id" id, named "room index" room, named "host room code" code, named "date" date,
        spanField start count, named "organiser reference" organiser, named "cause" cause]
  | .noShow id room code date start count organiser cause =>
    bodyOf 49
      [named "booking id" id, named "room index" room, named "host room code" code, named "date" date,
        spanField start count, named "organiser reference" organiser, named "cause" cause]
  | .walkup id room code start count bufSlots segment address =>
    bodyOf 126
      [named "booking id" id, named "room index" room, named "host room code" code, spanField start count,
        named "buffer slots" bufSlots, named "station" (segment, address)]
  | .panelAction a => bodyOf 126 a.fields
  | .seriesSkip series offset room code organiser skip skipped =>
    bodyOf 66
      [named "series id" series, named "date" skip.date, named "day offset" offset, named "room index" room,
        named "host room code" code, named "organiser reference" organiser, named "status" skip.status,
        named "detail" skip.detail, named "covering booking" skip.cover, named "skipped count" skipped]
  | .stationState segment address type binding code old new cause faults reported frame =>
    bodyOf 108
      [named "segment" segment, named "address" address, named "type" type, named "binding" binding,
        named "host room code" code, named "old state" old, named "new state" new, named "cause" cause, named "fault count" faults,
        named "reported" reported, named "frame kind" frame]
  | .orderState order booking kitchen date slot window covers old new cause mark =>
    bodyOf 151
      [named "order id" order, named "booking id" booking, named "kitchen" kitchen, named "date" date,
        named "delivery slot" slot, named "window" window, named "covers" covers, named "old state" old,
        named "new state" new, named "cause" cause, named "mark" mark]
  | .kitchenUnreachable kitchen terminal known tickets calls =>
    bodyOf 151
      [named "kitchen id" kitchen, named "terminal station" terminal, named "station state" known,
        named "pending list length" tickets, named "call list length" calls]
  | .runStep run booking room code date step stepCode anchor offset due fired catchUp =>
    bodyOf 166
      [named "run id" run, named "booking id" booking, named "room index" room, named "host room code" code,
        named "date" date, named "step number" step, named "step code" stepCode, named "anchor" anchor,
        named "offset" offset, named "due minute" due, named "minute fired" fired, named "catch-up mark" catchUp]
  | .storeError path kind place code offset id slot effect count =>
    bodyOf 178
      [named "path" path, named "item kind" kind, named "room index" (place.map (·.1)), named "host room code" code,
        named "date" (place.map (·.2)), named "day offset" offset, named "booking id or slot" (id, slot),
        named "effect" effect, named "uncorrectable count" count]
  | .rowState room code date offset old new cause version counted =>
    bodyOf 178
      [named "room index" room, named "host room code" code, named "date" date, named "day offset" offset,
        named "old state" old, named "new state" new, named "cause" cause, named "row version" version,
        named "damaged records" counted]
  | .configApplied applied commitNumber puts tallies =>
    bodyOf 197
      [named "result" applied, named "commit number" commitNumber, named "puts" puts, named "counts" tallies]

/-! ## Station frames -/

/-- R91 RESULT. -/
def ResultItem.bytes (i : ResultItem) : List Byte :=
  bodyOf 91 [named "event kind" i.event, named "status" i.status, named "detail" i.detail, named "booking id" i.booking]

/-- R140 TICKET. -/
def Ticket.bytes (t : Ticket) : List Byte :=
  bodyOf 140
    [named "order id" t.order, named "host room code" t.code, named "date" t.date, named "delivery minute" t.minute,
      named "covers" t.covers, named "lines" t.lines, named "label" t.label]

/-- R91 VOID and PICKUP_CALL. -/
def Call.bytes (c : Call) : List Byte := bodyOf 91 [named "order id" c.order]

end Sys2Proof.Machine
end

