-- ==== Sys2Proof/Machine/Codec.lean ====
section
/-! DEFINITION. Bytes on the link and on the segments: cyclic checks, multi-byte values, the header of a host frame
(R180). -/

namespace Sys2Proof.Machine

/-- One bit enters a cyclic check register whose top bit leaves. -/
def crcBit {w : Nat} (gen r : BitVec w) (bit : Bool) : BitVec w :=
  let shifted := r <<< (1 : Nat)
  if r.msb != bit then shifted ^^^ gen else shifted

/-- The bits of a byte, most significant first. -/
def byteBits (b : Byte) : List Bool :=
  [b.getLsbD 7, b.getLsbD 6, b.getLsbD 5, b.getLsbD 4, b.getLsbD 3, b.getLsbD 2, b.getLsbD 1, b.getLsbD 0]

def crcBytes {w : Nat} (gen preset : BitVec w) (bytes : List Byte) : BitVec w :=
  bytes.foldl (fun r b => (byteBits b).foldl (crcBit gen) r) preset

/-- R180: the 32-bit check of a host frame. -/
def linkCheck (bytes : List Byte) : BitVec 32 := ~~~ crcBytes 0x04C11DB7#32 0xFFFFFFFF#32 bytes

/-- Multi-byte values are sent high byte first. -/
def bytesToNat (l : List Byte) : Nat := l.foldl (fun n b => n * 256 + b.toNat) 0

/-- The byte at place `i`; 0 past the end. -/
def byteAt (l : List Byte) (i : Nat) : Nat := ((l[i]?).getD 0).toNat

/-- R180: the fields of a host frame's header. -/
structure LinkHeader where
  kind : Nat
  code : Nat
  tag : Nat
  length : Nat
  copy : Nat
  mark : Nat
deriving DecidableEq, Repr

/-- R180: bytes 0 to 6. -/
def linkHeader (l : List Byte) : LinkHeader :=
  { kind := byteAt l 0, code := byteAt l 1, tag := byteAt l 2 * 256 + byteAt l 3, length := byteAt l 4,
    copy := byteAt l 5, mark := byteAt l 6 }

/-- R181, R182: the length is 1-8 and equals its copy. -/
def LinkHeader.lengthOk (h : LinkHeader) : Bool := decide (1 ≤ h.length) && decide (h.length ≤ 8) && h.length == h.copy

/-- R180: the last four bytes are the check over all the others. -/
def linkCheckGood (l : List Byte) : Bool :=
  bytesToNat (l.drop (l.length - 4)) == (linkCheck (l.take (l.length - 4))).toNat

/-- R182 step 1: the first receipt check a frame fails. -/
def receiptFault (l : List Byte) : Option FrameCheck :=
  let h := linkHeader l
  firstFail
    [(h.kind != 1, .kind), (!h.lengthOk, .length), (l.length != 16 * h.length, .size), (decide (3 < h.mark), .mark),
     (decide (1023 < h.tag), .tag), (!linkCheckGood l, .check)]

/-! ## Frames the part sends -/

/-- `k` bytes of a value, high byte first. -/
def natBytes (n : Nat) : Nat → List Byte
  | 0 => []
  | k + 1 => natBytes (n / 256) k ++ [BitVec.ofNat 8 n]

/-- R180: a host frame: header, body region padded with zeros, check. -/
def linkFrame (kind code tag length credit : Nat) (mark : Mark) (body : List Byte) : List Byte :=
  let front :=
    natBytes kind 1 ++ natBytes code 1 ++ natBytes tag 2 ++ natBytes length 1 ++ natBytes length 1 ++
      natBytes mark.value 1 ++ natBytes credit 1 ++ body ++ List.replicate (16 * length - 12 - body.length) 0
  front ++ natBytes (linkCheck front).toNat 4

/-- R183: a CREDIT frame. -/
def creditFrame (returned : Nat) : List Byte := linkFrame 3 65 0 1 returned .sole []

/-- R180: the byte of a detail; a detail of 0 names no reason. -/
def Detail.byte (d : Detail) : Byte := if d = .none then 0 else Config.detailByte d

/-- R180: a body fits in the body region of 8 blocks. -/
def bodyBytes (l : List Byte) : List Byte := l.take 116

/-- R180, R182, R186: the body of a queued frame: status and detail of a reply, the "dropped before" count of a notice,
then the named fields. -/
def OutFrame.body : OutFrame → List Byte
  | .reply _ a => bodyBytes (natBytes a.status.value 1 ++ [a.detail.byte] ++ a.data.bytes)
  | .overrun _ d arrived code length occupied tags =>
    bodyBytes (natBytes Status.full.value 1 ++ [d.byte] ++ overrunBytes arrived code length occupied tags)
  | .notice dropped n => bodyBytes (natBytes dropped 2 ++ n.bytes)

/-- R180: the fewest blocks that hold the header, a body of `n` bytes and the check (log 5). -/
def blocksFor (n : Nat) : Nat := (n + 12 + 15) / 16

/-- R180, R183: the bytes of a queued frame with the credit return given. -/
def OutFrame.bytes (f : OutFrame) (credit : Nat) : List Byte :=
  let h := f.header
  linkFrame h.1 h.2.1 h.2.2.1 (blocksFor f.body.length) credit h.2.2.2 f.body

/-- R183: the bytes clocked out: the head of the queue, a CREDIT frame, or a block of zero bytes. -/
def ReadSelect.bytes (r : ReadSelect) : List Byte :=
  match r.yield with
  | .frame f => f.bytes r.credit
  | .credit => creditFrame r.credit
  | .nothing => List.replicate 16 0

/-- R179: the first `n` bytes that a select sends on data out: the frame's bytes, and bytes of 0 after its last. -/
def ReadSelect.clocked (r : ReadSelect) (n : Nat) : List Byte := (r.bytes ++ List.replicate n 0).take n

/-- R179: every byte of the frame yielded has been clocked out when `n` bytes have. -/
def ReadSelect.complete (r : ReadSelect) (n : Nat) : Bool := decide (r.bytes.length ≤ n)

/-- R179: the first `n` bytes on data out in a select of either kind that begins in this state; in a write select they
are disregarded, and the frame that they carry is not read. -/
def State.dataOut (s : State) (n : Nat) : List Byte := (selectOut s.link s.book.hmp).clocked n

/-- R92: the 16-bit check of a station frame. -/
def stationCheck (bytes : List Byte) : BitVec 16 := crcBytes 0x1021#16 0xFFFF#16 bytes

/-- R92: a frame on a segment. -/
def stationFrame (address kind : Nat) (sequence : Bool) (body : List Byte) : List Byte :=
  let front :=
    natBytes address 1 ++ natBytes kind 1 ++ natBytes body.length 1 ++ natBytes sequence.toNat 1 ++ body
  front ++ natBytes (stationCheck front).toNat 2

end Sys2Proof.Machine
end

