-- ==== Sys2Proof/Machine/Kitchens.lean ====
section
/-! DEFINITION. The Catering Scheduler's steps (08): the host's catering requests, time events, booking changes,
terminal and cart events, and the new kitchens of a commit. -/

namespace Sys2Proof.Machine

/-! ## Host requests -/

/-- R134: the field checks of ORDER. -/
def Book.orderCheck (b : Book) (f : OrderFields) : Option Answer :=
  firstFail
    [(b.csc.horizon.isNone, Answer.of .clockUnset),
     (f.booking == 0 || linesBad f.lines || f.slot.any (fun s => decide (63 < s)), Answer.of .badRequest)]

/-- R134: the CSC checks the fields and hands the BKE a placement claim. -/
def Book.order (b : Book) : Book :=
  b.serve .csc fun q c b => match q with
    | .order f =>
      some <| match b.orderCheck f with
        | some a => b.reply c a
        | none => b.withMail { b.mail with cscToBke := b.mail.cscToBke ++ [{ ctx := c, fields := f }] }
    | _ => none

/-- R136: the order with the fields of an ORDER_CHANGE. -/
def Csc.changedOrder (c : Csc) (o : Order) (lines : Option (List OrderLine)) (slot : Option Nat) : Order :=
  { o with
    lines := lines.getD o.lines
    slot := slot.getD o.slot
    cutOff := (slot.map (c.cutOffMinute o.kitchen)).getD o.cutOff }

/-- R15, R136: the reply to a change. -/
def Book.changedReply (b : Book) (o : Order) (d : Detail) : Answer :=
  { status := .ok, detail := d, data := .orderChanged o.view (b.code o.copy.room) }

/-- R136: the change of a CONFIRMED order. -/
def Book.changeConfirmed (b : Book) (o n : Order) : Book × Answer :=
  let back := b.csc.giveBack o.kitchen o.date o.window o.covers
  if back.fits n.kitchen n.date n.window n.covers then
    let b := (b.withCsc (back.commit n.kitchen n.date n.window n.covers)).putOrder n
    (if n.covers < o.covers ∨ n.window ≠ o.window then b.scan o.kitchen else b, b.changedReply n .confirmed)
  else (b, Answer.because .full .capacity)

/-- R136: the change of a WAITLISTED order. -/
def Book.changeWaiting (b : Book) (n : Order) : Book × Answer :=
  if b.csc.fits n.kitchen n.date n.window n.covers then
    let n' := { n with state := .confirmed }
    let b := (b.withCsc (b.csc.commit n.kitchen n.date n.window n.covers)).putOrder n'
    let b := (b.leaveWaitlist n.kitchen n.id).postOrder n' (some .waitlisted) .host
    (b, b.changedReply n' .confirmed)
  else
    (b.putOrder n, b.changedReply n .waiting)

/-- R136 steps 4 to 7, R196: the checks against the order. -/
def Csc.changeCheck (c : Csc) (o : Order) (slot : Option Nat) : Option Answer :=
  firstFail
    [(o.state.replaceable, Answer.because .refused .terminal),
     (!(o.state == .confirmed || o.state == .waitlisted), Answer.of .tooLate),
     (slot.any (fun s => decide (s < o.copy.start) || decide (o.copy.start + o.copy.count ≤ s)),
       Answer.because .badRequest .slot),
     (slot.any (c.cutOffPassed o.kitchen o.date), Answer.of .tooLate),
     (c.guarded o.kitchen, Answer.because .busy .commit)]

/-- R136. -/
def Book.changeOrder (b : Book) (id : Nat) (lines : Option (List OrderLine)) (slot : Option Nat) : Book × Answer :=
  let checks :=
    [(b.csc.horizon.isNone, Answer.of .clockUnset),
     (id == 0 || decide (1023 < id) || (lines.isNone && slot.isNone) || lines.any linesBad, Answer.of .badRequest)]
  match firstFail checks with
  | some a => (b, a)
  | none =>
    match b.csc.orders.find id with
    | none => (b, Answer.of .notFound)
    | some o =>
      let n := b.csc.changedOrder o lines slot
      match b.csc.changeCheck o slot with
      | some a => (b, a)
      | none => if o.state = .confirmed then b.changeConfirmed o n else b.changeWaiting n

/-- R136. -/
def Book.orderChange (b : Book) : Book :=
  b.serve .csc fun q c b => match q with
    | .orderChange id lines slot => some (b.answer c fun b => b.changeOrder id lines slot)
    | _ => none

/-- R137, R150: the checks every request naming an order id begins with. -/
def Book.orderById (b : Book) (id : Nat) : Except Answer Order :=
  if b.csc.horizon.isNone then .error (Answer.of .clockUnset)
  else if id = 0 ∨ 1023 < id then .error (Answer.of .badRequest)
  else match b.csc.orders.find id with
    | none => .error (Answer.of .notFound)
    | some o => .ok o

/-- R137. -/
def Book.cancelOrder (b : Book) (id : Nat) : Book × Answer :=
  match b.orderById id with
  | .error a => (b, a)
  | .ok o =>
    match o.state with
    | .waitlisted => (b.dropWaiting o .cancelled .host, Answer.ok .none)
    | .confirmed => (b.cancelConfirmed o .host, Answer.ok .none)
    | .cancelled | .declined => (b, Answer.because .refused .terminal)
    | _ => (b, Answer.of .tooLate)

/-- R137. -/
def Book.orderCancel (b : Book) : Book :=
  b.serve .csc fun q c b => match q with
    | .orderCancel id => some (b.answer c fun b => b.cancelOrder id)
    | _ => none

/-- R150. -/
def Book.readOrderAnswer (b : Book) (id : Nat) : Answer :=
  match b.orderById id with
  | .error a => a
  | .ok o => Answer.ok (.readOrder o.view (deliveryMinute o.slot) (b.code o.copy.room))

/-- R150. -/
def Book.readOrder (b : Book) : Book :=
  b.serve .csc fun q c b => match q with
    | .readOrder id => some (b.reply c (b.readOrderAnswer id))
    | _ => none

/-- R150: a kitchen as READ_CAPACITY shows it. -/
def Kitchen.view (k : Kitchen) : KitchenView :=
  { cutOff := k.cutOff, terminal := k.terminal, online := k.online, unreachable := k.unreachable
    waitlist := k.waitlist.length, tickets := k.tickets.length, calls := k.calls.length, ignored := k.ignored }

/-- R150: an entry as READ_CAPACITY shows it. -/
def CapEntry.view (e : CapEntry) : CapacityView :=
  { window := e.window, capacity := e.capacity, committed := e.committed, remaining := e.capacity - e.committed
    closed := e.closed }

/-- R150: READ_CAPACITY. -/
def Book.readCapacityAnswer (b : Book) (k : Nat) (d : Date) (first : Option Nat) : Answer :=
  let w := first.getD 0
  match b.csc.horizon with
  | none => Answer.of .clockUnset
  | some h =>
    if 5 < k ∨ (h.offset d).isNone ∨ 31 < w then Answer.of .badRequest
    else match b.csc.kitchen k with
      | none => Answer.because .notFound .kitchen
      | some kit =>
        Answer.ok
          (.capacity kit.view
            ((List.range' w (min 8 (32 - w))).filterMap fun x => (b.csc.entry k d x).map CapEntry.view)
            (decide (w + 8 < 32)))

/-- R150. -/
def Book.readCapacity (b : Book) : Book :=
  b.serve .csc fun q c b => match q with
    | .readCapacity k d first => some (b.reply c (b.readCapacityAnswer k d first))
    | _ => none

/-- R150: READ_WAITLIST. -/
def Book.readWaitlistAnswer (b : Book) (k : Nat) : Answer :=
  if b.csc.horizon.isNone then Answer.of .clockUnset
  else if 5 < k then Answer.of .badRequest
  else match b.csc.kitchen k with
    | none => Answer.because .notFound .kitchen
    | some kit =>
      Answer.ok
        (.waitlist
          (kit.waitlist.filterMap fun id =>
            (b.csc.orders.find id).map fun o => (o.id, o.booking, o.date, o.window, o.covers)))

/-- R150. -/
def Book.readWaitlist (b : Book) : Book :=
  b.serve .csc fun q c b => match q with
    | .readWaitlist k => some (b.reply c (b.readWaitlistAnswer k))
    | _ => none

/-! ## Time events -/

/-- Take the event at the head of the CSC's events, when it is of the kind `f` takes. -/
def Book.cscEvent (b : Book) (f : TimeEvent → Book → Option Book) : Book :=
  match b.mail.cscEvents with
  | [] => b
  | e :: rest => (f e (b.withMail { b.mail with cscEvents := rest })).getD b

/-- R130. -/
def Book.cscHorizonOpen (t : Ctu) (b : Book) : Book :=
  b.cscEvent fun e b => match e.kind with
    | .horizonOpen w m _ =>
      let c := { b.csc with horizon := some { today := e.date, weekday := w }, minute := some m }
      some (b.withCsc (c.kitchens.entries.foldl (fun c p => c.openKitchen t p.1 p.2) c))
    | _ => none

/-- R148: the order leaves every list of its kitchen. -/
def Kitchen.without (k : Kitchen) (id : Nat) : Kitchen :=
  { k with
    waitlist := k.waitlist.filter (· != id)
    tickets := k.tickets.filter (· != id)
    calls := k.calls.filter fun c => c.order != id }

/-- R148: an order still open at its retirement. -/
def OrderState.unresolved (s : OrderState) : Bool :=
  !(s == .delivered || s == .cleared || s == .cancelled || s == .declined || s == .writtenOff)

/-- R148: one order of the retired date. -/
def Book.retireOrder (b : Book) (o : Order) : Book :=
  let b := if o.state.unresolved then b.postOrder o (some o.state) .retire .unresolved else b
  (b.withCsc { b.csc with orders := b.csc.orders.drop o.id }).modifyKitchen o.kitchen fun k => k.without o.id

/-- R148. -/
def Book.cscDayRetire (b : Book) : Book :=
  b.cscEvent fun e b => match e.kind with
    | .dayRetire =>
      let b := (b.csc.orders.values.filter fun o => o.date == e.date).foldl Book.retireOrder b
      some (b.withCsc { b.csc with capacity := b.csc.capacity.keep fun x => x.date != e.date })
    | _ => none

/-- R130, R148. -/
def Book.cscDayOpen (b : Book) : Book :=
  b.cscEvent fun e b => match e.kind with
    | .dayOpen d w =>
      let c := { b.csc with horizon := some (Horizon.dayOpened e.date w) }
      some
        (b.withCsc
          (c.kitchens.entries.foldl (fun c p => c.addEntries (newEntries p.1 p.2 d fun _ => false)) c))
    | _ => none

/-- R131: the window that boundary `b` closes. -/
def closedWindow (x : Nat) : Option Nat := if 2 ≤ x ∧ x % 2 = 0 then some (x / 2 - 1) else none

/-- R131. -/
def Book.cscSlotBoundary (b : Book) : Book :=
  b.cscEvent fun e b => match e.kind with
    | .slotBoundary x _ _ =>
      some <| match closedWindow x with
        | none => b
        | some w =>
          b.withCsc
            { b.csc with
              capacity := b.csc.capacity.mapValues fun _ y =>
                if y.date == e.date && y.window == w then { y with closed := true } else y }
    | _ => none

/-- The minute event at the head of the CSC's events. -/
def Mail.cscMinuteEvent (m : Mail) : Option (Date × Nat) :=
  match m.cscEvents with
  | e :: _ => match e.kind with
    | .minute x => some (e.date, x)
    | _ => none
  | [] => none

/-- R139: the orders whose cut-off falls due at minute `m`, by cut-off minute and id. -/
def Csc.dueCutOffs (c : Csc) (d : Date) (m : Nat) : List Nat :=
  (sortBy (fun o => o.cutOff * 2048 + o.id)
    (c.orders.values.filter fun o => o.date == d && !o.fired && decide (o.cutOff ≤ m))).map (·.id)

/-- R139: the cut-off of an order fires. -/
def Book.fireCutOff (b : Book) (id : Nat) : Book :=
  match b.csc.orders.find id with
  | none => b
  | some o =>
    let o := { o with fired := true }
    match o.state with
    | .confirmed =>
      let o' := { o with state := .locked, ticket := .pending }
      ((b.putOrder o').postOrder o' (some .confirmed) .cutOff).joinTickets o.kitchen o.id
    | .waitlisted => b.dropWaiting o .declined .cutOff
    | _ => b.putOrder o

/-- R129: the CSC minute. -/
def Book.setCscMinute (b : Book) (m : Nat) : Book := b.withCsc { b.csc with minute := some m }

/-- R139: the next cut-off that falls due fires (log 8). -/
def Book.cutOff (b : Book) : Book :=
  match b.mail.cscMinuteEvent with
  | none => b
  | some (d, m) =>
    match b.csc.dueCutOffs d m with
    | [] => b
    | id :: _ => (b.setCscMinute m).fireCutOff id

/-- R129, R139: the rest of the minute event. -/
def Book.cscMinute (b : Book) : Book :=
  match b.mail.cscMinuteEvent with
  | none => b
  | some (d, m) =>
    let x := (b.csc.dueCutOffs d m).foldl Book.fireCutOff (b.setCscMinute m)
    x.withMail { x.mail with cscEvents := x.mail.cscEvents.drop 1 }

/-! ## Booking changes and pickup claims -/

/-- R146: the order effects of END_NOW. -/
def Book.endedEarlyOrder (b : Book) (o : Order) : Book :=
  if o.slot < o.copy.start + o.copy.count then b
  else match o.state with
    | .waitlisted => b.dropWaiting o .cancelled .bookingEnd
    | .confirmed => b.cancelConfirmed o .bookingEnd
    | _ => b

/-- R145, R146, R147: the booking copy after a change. A copy that is REMOVED keeps its last room, by which a cart is judged
and a room code read, and its last date, span and label, which READ_ORDER gives (log 77). -/
def BookingCopy.after (p : BookingCopy) : CscChange → BookingCopy
  | .started st => { p with state := some st }
  | .extended n => { p with count := n }
  | .endedEarly n => { p with count := n }
  | .moved room d start n => { p with room := room, date := d, start := start, count := n }
  | .cancelled => { p with state := some .cancelled }
  | .released => { p with state := some .released }
  | .forgotten => { p with state := none }

/-- R147: the date of an order after a handed change (log 28). The fit check has moved a live order's already; a
CANCELLED or DECLINED order follows its booking copy. -/
def Order.dateAfter (o : Order) : CscChange → Date
  | .moved _ d _ _ => if o.state.replaceable then d else o.date
  | _ => o.date

/-- R145, R146, R147: a change of the booking of an order. -/
def Book.applyCscNews (b : Book) (n : CscNews) : Book :=
  match b.csc.orderOf n.booking with
  | none => b
  | some o =>
    let o := { o with copy := o.copy.after n.change, date := o.dateAfter n.change }
    let b := b.putOrder o
    match n.change with
    | .endedEarly _ => b.endedEarlyOrder o
    | .cancelled => b.bookingGone o .bookingCancel
    | .released => b.bookingGone o .bookingRelease
    | .forgotten => b.bookingGone o .bookingForget
    | _ => b

/-- R145. -/
def Book.cscBookingChange (b : Book) : Book :=
  match b.mail.bkeToCsc with
  | [] => b
  | n :: rest => (b.withMail { b.mail with bkeToCsc := rest }).applyCscNews n

/-- R141: a pickup claim. -/
def Book.pickupCall (b : Book) : Book :=
  match b.mail.squToCsc with
  | [] => b
  | booking :: rest =>
    let b := b.withMail { b.mail with squToCsc := rest }
    match b.csc.orderOf booking with
    | some o =>
      if o.state = .delivered then
        b.joinCalls o.kitchen { kind := .pickupCall, order := o.id, serial := o.serial }
      else b
    | none => b

/-! ## Terminals and carts -/

/-- Take the oldest report of a segment to the CSC, when it is of the kind `f` takes. -/
def Book.cscReport (b : Book) (segment : Nat) (f : CscReport → Book → Option Book) : Book :=
  match nextOf segment b.mail.sbcToCsc with
  | none => b
  | some (r, rest) => (f r (b.withMail { b.mail with sbcToCsc := rest })).getD b

/-- R142. A report for a kitchen that the CSC has yet to take in a commit is dropped (log 98). -/
def Book.terminalLink (b : Book) (k : Nat) (session : Option (BitVec 8)) (st : Option StationState) : Book :=
  if st = some .online then
    let b := b.modifyKitchen k fun x =>
      { x with online := true, session := session.getD x.session, unreachable := false, known := st }
    (b.offerTicket k).offerCall k
  else (b.modifyKitchen k fun x => { x with online := false, known := st }).checkReach k

/-- R142. -/
def Book.terminalLinkChange (b : Book) (segment : Nat) : Book :=
  b.cscReport segment fun r b => match r with
    | .link k session st => some (b.terminalLink k session st)
    | _ => none

/-- R148: the order a report speaks of, unless it has been removed; a later order that took its id is another one
(log 42). -/
def Csc.reported (c : Csc) (id serial : Nat) : Option Order := (c.orders.find id).filter fun o => o.serial == serial

/-- R140: a ticket is delivered; a ticket of a removed order is disregarded (R148). -/
def Book.ticketSent (b : Book) (k id serial : Nat) : Book :=
  match b.csc.reported id serial with
  | none => b
  | some o =>
    if o.ticket = .offered ∧ o.kitchen = k then
      let b' := b.putOrder { o with ticket := .sent, voidOwed := false }
      if o.voidOwed then b'.joinCalls k { kind := .void, order := id, serial := serial } else b'
    else b

/-- R140. -/
def Book.ticketDelivered (b : Book) (segment : Nat) : Book :=
  b.cscReport segment fun r b => match r with
    | .ticketDelivered k id serial => some ((b.ticketSent k id serial).offerTicket k)
    | _ => none

/-- R140: a ticket comes back not delivered. -/
def Book.ticketBack (b : Book) (k id serial : Nat) : Book :=
  match b.csc.reported id serial with
  | none => b
  | some o =>
    if o.ticket = .offered ∧ o.kitchen = k then
      if o.state = .locked then (b.putOrder { o with ticket := .pending }).joinTickets k id
      else b.putOrder { o with ticket := .none, voidOwed := false }
    else b

/-- R140. -/
def Book.ticketNotDelivered (b : Book) (segment : Nat) : Book :=
  b.cscReport segment fun r b => match r with
    | .ticketBack k id serial => some ((b.ticketBack k id serial).offerTicket k)
    | _ => none

/-- R141. -/
def Book.callDelivered (b : Book) (segment : Nat) : Book :=
  b.cscReport segment fun r b => match r with
    | .callDelivered k _ => some ((b.modifyKitchen k fun x => { x with callOut := none }).offerCall k)
    | _ => none

/-- R141: a call comes back: it rejoins the head of the list, which never holds an entry twice; a call of a removed
order is disregarded (R148). -/
def Book.callBack (b : Book) (k : Nat) (c : Call) : Book :=
  let b := b.modifyKitchen k fun x => { x with callOut := none }
  if (b.csc.reported c.order c.serial).isSome then
    (b.modifyKitchen k fun x => { x with calls := c :: x.calls.filter (· != c) }).checkReach k
  else b

/-- R141. -/
def Book.callNotDelivered (b : Book) (segment : Nat) : Book :=
  b.cscReport segment fun r b => match r with
    | .callBack k c => some ((b.callBack k c).offerCall k)
    | _ => none

/-- R103, R140, R141. -/
def Book.slotFree (b : Book) (segment : Nat) : Book :=
  b.cscReport segment fun r b => match r with
    | .slotFree k ticket => some (if ticket then b.offerTicket k else b.offerCall k)
    | _ => none

/-- R143: the state an event takes an order to, when the event applies. -/
def eventTarget (s : OrderState) : StationEvent → Option (Nat × OrderState)
  | .ticketTaken id => if s = .locked then some (id, .ticketed) else none
  | .dispatched id => if s = .locked ∨ s = .ticketed then some (id, .dispatched) else none
  | .pickedUp id => if s = .delivered ∨ s = .dispatched then some (id, .cleared) else none
  | _ => none

/-- The order a terminal event names. -/
def eventOrder : StationEvent → Option Nat
  | .ticketTaken id => some id
  | .dispatched id => some id
  | .pickedUp id => some id
  | _ => none

/-- R143. -/
def Book.applyTerminalEvent (b : Book) (k : Nat) (session : BitVec 8) (e : StationEvent) : Book :=
  let ignored := b.modifyKitchen k fun x => { x with ignored := bump 65535 x.ignored }
  match b.csc.kitchen k, ((eventOrder e).bind fun id => b.csc.orders.find id) with
  | some kit, some o =>
    if kit.session = session ∧ o.kitchen = k then
      match eventTarget o.state e with
      | some (_, s) => b.advanceOrder o s .terminal
      | none => ignored
    else ignored
  | _, _ => ignored

/-- The report is a terminal event. -/
def CscReport.isEvent : CscReport → Bool
  | .event .. => true
  | _ => false

/-- R143: a terminal event was handed before the oldest report of this segment. -/
def Mail.eventBefore (m : Mail) (segment : Nat) : Bool :=
  (m.sbcToCsc.takeWhile fun e => e.1 != segment).any fun e => e.2.isEvent

/-- R143: the CSC takes the terminal events in the order handed, whichever segments they come from: the one of this segment
waits while an earlier one of another has yet to be taken (log 94). -/
def Book.terminalEvent (b : Book) (segment : Nat) : Book :=
  if b.mail.eventBefore segment then b
  else b.cscReport segment fun r b => match r with
    | .event k _ session e => some (b.applyTerminalEvent k session e)
    | _ => none

/-- R144: the panel's room is the order's room or one of its parts. -/
def Book.rightRoom (b : Book) (o : Order) (room : Nat) : Bool := (rowFamily b.bke.rooms o.copy.room).contains room

/-- R144. -/
def Book.cartOutcome (b : Book) (room id : Nat) : Book × Answer :=
  if b.csc.horizon.isNone then (b, Answer.of .clockUnset)
  else match b.csc.orders.find id with
    | none => (b, Answer.of .notFound)
    | some o =>
      if !b.rightRoom o room then
        (b.postOrder o (some o.state) .cart (.wrongRoom room (b.code room)), Answer.because .refused .room)
      else match o.state with
        | .locked | .ticketed | .dispatched =>
          (b.advanceOrder o .delivered .cart, Answer.because .ok .delivered)
        | .delivered => (b, Answer.because .ok .unchanged)
        | _ => (b, Answer.because .refused .state)

/-- R125, R144. -/
def Book.cartArrived (b : Book) : Book :=
  match b.mail.ppuToCsc with
  | [] => b
  | c :: rest =>
    let b := b.withMail { b.mail with ppuToCsc := rest }
    match c.event with
    | .cartArrived id =>
      let r := b.cartOutcome c.room id
      r.1.withMail
        { r.1.mail with
          cscToPanel := r.1.mail.cscToPanel ++
            [{ claim := c, status := r.2.status, detail := r.2.detail, subject := some id, placed := none }] }
    | _ => b

/-! ## New kitchens -/

/-- R129: a kitchen record with the held values of reset. -/
def Kitchen.fresh (profile : List Nat) (cutOff : Nat) (terminal : Option (Nat × Nat)) : Kitchen :=
  { profile := profile, cutOff := cutOff, terminal := terminal, online := false, session := 0, unreachable := false,
    ignored := 0, waitlist := [], tickets := [], calls := [], callOut := none, known := none }

/-- R149: kitchens that the new tables lack: records, lists and entries are dropped. -/
def Csc.dropKitchens (c : Csc) (new : Table Kitchen) : Csc :=
  { c with
    kitchens := ⟨c.kitchens.entries.filter fun p => new.has p.1⟩
    capacity := c.capacity.keep fun e => new.has e.kitchen }

/-- R149: every open entry of the kitchen takes its window's new capacity. -/
def Csc.newProfile (c : Csc) (k : Nat) (profile : List Nat) : Csc :=
  { c with
    capacity := c.capacity.mapValues fun _ e =>
      if e.kitchen == k && !e.closed then { e with capacity := (profile[e.window]?).getD 0 } else e }

/-- R149: some open entry of the kitchen has a capacity that rose. -/
def Csc.capacityRose (c : Csc) (k : Nat) (profile : List Nat) : Bool :=
  c.capacity.values.any fun e => e.kitchen == k && !e.closed && decide (e.capacity < (profile[e.window]?).getD 0)

/-- R149: new cut-off minutes for the orders whose cut-off has not fired. -/
def Csc.newCutOffs (c : Csc) (k : Nat) : Csc :=
  { c with
    orders := c.orders.mapValues fun _ o =>
      if o.kitchen == k && !o.fired && (o.state == .waitlisted || o.state == .confirmed) then
        { o with cutOff := c.cutOffMinute k o.slot }
      else o }

/-- R149: one kitchen of the new tables. The scan after a rise is not held by the commit's own guard (log 26). -/
def Book.takeKitchen (t : Ctu) (b : Book) (k : Nat) (new : Kitchen) : Book :=
  match b.csc.kitchen k with
  | none =>
    let c := { b.csc with kitchens := b.csc.kitchens.put k new }
    b.withCsc (c.openKitchen t k new)
  | some old =>
    let kit := { old with profile := new.profile, cutOff := new.cutOff, terminal := new.terminal }
    let rose := b.csc.capacityRose k new.profile
    let c := { b.csc with kitchens := b.csc.kitchens.put k kit }
    let c := if old.profile = new.profile then c else c.newProfile k new.profile
    let c := if old.cutOff = new.cutOff then c else c.newCutOffs k
    let b := b.withCsc c
    if rose then b.scanList k else b

/-- R149: the kitchens are taken in rising kitchen id, and so are the scans and their notices; R149 sets no order
(log 70). -/
def Book.takeKitchens (t : Ctu) (b : Book) (new : Table Kitchen) : Book :=
  new.entries.foldl (fun b p => b.takeKitchen t p.1 p.2) (b.withCsc (b.csc.dropKitchens new))

/-! ## The steps -/

/-- ORDER (R134). -/
def execOrder (s : State) : Outcome := onBook (fun _ b => b.order) s

/-- ORDER_CHANGE (R136). -/
def execOrderChange (s : State) : Outcome := onBook (fun _ b => b.orderChange) s

/-- ORDER_CANCEL (R137). -/
def execOrderCancel (s : State) : Outcome := onBook (fun _ b => b.orderCancel) s

/-- READ_ORDER (R150). -/
def execReadOrder (s : State) : Outcome := onBook (fun _ b => b.readOrder) s

/-- READ_CAPACITY (R150). -/
def execReadCapacity (s : State) : Outcome := onBook (fun _ b => b.readCapacity) s

/-- READ_WAITLIST (R150). -/
def execReadWaitlist (s : State) : Outcome := onBook (fun _ b => b.readWaitlist) s

/-- CSC_HORIZON_OPEN (R130). -/
def execCscHorizonOpen (s : State) : Outcome := onBook Book.cscHorizonOpen s

/-- CSC_DAY_RETIRE (R148). -/
def execCscDayRetire (s : State) : Outcome := onBook (fun _ b => b.cscDayRetire) s

/-- CSC_DAY_OPEN (R148). -/
def execCscDayOpen (s : State) : Outcome := onBook (fun _ b => b.cscDayOpen) s

/-- CSC_SLOT_BOUNDARY (R131). -/
def execCscSlotBoundary (s : State) : Outcome := onBook (fun _ b => b.cscSlotBoundary) s

/-- CSC_MINUTE (R129, R139). -/
def execCscMinute (s : State) : Outcome := onBook (fun _ b => b.cscMinute) s

/-- CUT_OFF (R139). -/
def execCutOff (s : State) : Outcome := onBook (fun _ b => b.cutOff) s

/-- CSC_BOOKING_CHANGE (R145, R146, R147). -/
def execCscBookingChange (s : State) : Outcome := onBook (fun _ b => b.cscBookingChange) s

/-- PICKUP_CALL (R141). -/
def execPickupCall (s : State) : Outcome := onBook (fun _ b => b.pickupCall) s

/-- TERMINAL_LINK_CHANGE (R142). -/
def execTerminalLinkChange (segment : Nat) (s : State) : Outcome := onBook (fun _ b => b.terminalLinkChange segment) s

/-- TICKET_DELIVERED (R140). -/
def execTicketDelivered (segment : Nat) (s : State) : Outcome := onBook (fun _ b => b.ticketDelivered segment) s

/-- TICKET_NOT_DELIVERED (R140). -/
def execTicketNotDelivered (segment : Nat) (s : State) : Outcome := onBook (fun _ b => b.ticketNotDelivered segment) s

/-- CALL_DELIVERED (R141). -/
def execCallDelivered (segment : Nat) (s : State) : Outcome := onBook (fun _ b => b.callDelivered segment) s

/-- CALL_NOT_DELIVERED (R141). -/
def execCallNotDelivered (segment : Nat) (s : State) : Outcome := onBook (fun _ b => b.callNotDelivered segment) s

/-- SLOT_FREE (R103). -/
def execSlotFree (segment : Nat) (s : State) : Outcome := onBook (fun _ b => b.slotFree segment) s

/-- TERMINAL_EVENT (R143). -/
def execTerminalEvent (segment : Nat) (s : State) : Outcome := onBook (fun _ b => b.terminalEvent segment) s

/-- CART_ARRIVED (R144). -/
def execCartArrived (s : State) : Outcome := onBook (fun _ b => b.cartArrived) s

end Sys2Proof.Machine
end

