-- ==== Sys2Proof/Machine/Pages.lean ====
section
/-! DEFINITION. The Panel Page Unit (07), its pages: how a page is derived from the live records of today, built and
handed to the panels, and its body on a segment (06, R93). -/

namespace Sys2Proof.Machine

/-! ## The reference slot -/

/-- The slot a reference names, if it names one. -/
def CurSlot.number : CurSlot → Option Nat
  | .slot n => some n
  | _ => none

/-- R112, Projection: slot `n` lies at or before the reference. -/
def CurSlot.reaches (ref : CurSlot) (n : Nat) : Bool :=
  match ref with
  | .beforeDay => false
  | .slot r => decide (n ≤ r)
  | .afterDay => true

/-- The mode of a latch group; a group that is not named is IMMEDIATE (R111). -/
def Ppu.isLatched (p : Ppu) (group : Nat) : Bool := (p.groups.find group).any (·.latched)

/-- The dark flag of a latch group (R111). -/
def Ppu.isDark (p : Ppu) (group : Nat) : Bool := (p.groups.find group).any (·.dark)

/-- R112: the reference slot of a room of a group. -/
def Ppu.reference (p : Ppu) (t : Ctu) (group : Nat) : CurSlot :=
  match p.isLatched group, p.coming with
  | true, some b => slotOfBoundary (some b)
  | _, _ =>
    if t.slot = .beforeDay ∧ 360 ≤ t.minute then
      if t.minute < 1320 then .slot ((t.minute - 360) / 15) else .afterDay
    else t.slot

/-! ## The records a page is derived from -/

/-- R112, R113: what a page is derived from: the reference, the records of the candidate rooms and those of the
neighbour rooms, each judged (Projection). -/
structure PageView where
  reference : CurSlot
  minute : Nat
  candidates : List Record
  neighbours : List Record

/-- R112, Projection: a CONFIRMED meeting whose start is at or before the reference stands as R47 would start it. -/
def Ppu.judged (p : Ppu) (ref : CurSlot) (r : Record) : Record :=
  if r.kind = .meeting ∧ r.state = .confirmed ∧ ref.reaches r.start then
    { r with state := (r.started ((p.rooms.find r.room).any (·.checkin)) 0 0).state }
  else r

/-- R112: the live records of the rooms, dated `d`. -/
def Ppu.recordsOf (p : Ppu) (b : Book) (d : Date) (ref : CurSlot) (rooms : List Nat) : List Record :=
  ((b.viewRecords .live d).filter fun r => rooms.contains r.room).map (p.judged ref)

/-- R112: for a COMBINED room its parts are neighbour rooms. -/
def Ppu.neighbourRooms (p : Ppu) (x : Nat) : List Nat :=
  match p.rooms.find x with
  | some r => if r.kind = .combined then r.parts else []
  | none => []

def Ppu.pageView (p : Ppu) (t : Ctu) (b : Book) (h : Horizon) (x : Nat) (ref : CurSlot) : PageView :=
  { reference := ref
    minute := t.minute
    candidates := p.recordsOf b h.today ref (candidateRooms p.rooms x)
    neighbours := p.recordsOf b h.today ref (p.neighbourRooms x) }

/-- R112: the span of the record covers the reference slot. -/
def Record.coversRef (r : Record) (ref : CurSlot) : Bool :=
  ref.number.any fun n => decide (r.start ≤ n) && decide (n < r.start + r.count)

/-- R113 row 4. -/
def Record.shuts (r : Record) (ref : CurSlot) : Bool :=
  r.kind == .closure && r.state == .confirmed && r.coversRef ref

/-- R113 row 5. -/
def Record.awaits (r : Record) (ref : CurSlot) : Bool :=
  r.kind == .meeting && r.state == .awaitingCheckin && r.coversRef ref

/-- R113 row 6, for a candidate. -/
def Record.fills (r : Record) (ref : CurSlot) : Bool :=
  r.kind == .meeting && (r.state == .checkedIn || r.state == .inProgress) && r.coversRef ref

/-- R113 row 6, for a neighbour room's record. -/
def Record.occupies (r : Record) (ref : CurSlot) : Bool :=
  (r.shuts ref || (r.kind == .meeting && r.state.started && r.coversRef ref))

/-- A CONFIRMED meeting that starts after the reference. -/
def Record.follows (r : Record) (ref : CurSlot) : Bool :=
  r.kind == .meeting && r.state == .confirmed && !ref.reaches r.start

/-! ## Display state and content -/

/-- R113 row 8. -/
def PageView.startsSoon (v : PageView) : Bool :=
  v.candidates.any fun r =>
    r.kind == .meeting && r.state == .confirmed &&
      match v.reference with
      | .beforeDay => r.start == 0 && decide (345 ≤ v.minute)
      | .slot n => r.start == n + 1
      | .afterDay => false

/-- R113 rows 4 to 9, with the covering record; its label is absent for a neighbour room's record (R114, log 33). -/
def PageView.display (v : PageView) (release : Option Nat) : Display × Option (Record × Option Label) :=
  match v.candidates.find? (·.shuts v.reference) with
  | some r => (.closed, some (r, r.label))
  | none => match v.candidates.find? (·.awaits v.reference) with
    | some r => (.awaitingCheckin, some (r, r.label))
    | none => match v.candidates.find? (·.fills v.reference) with
      | some r => (.inUse, some (r, r.label))
      | none => match v.neighbours.find? (·.occupies v.reference) with
        | some r => (.inUse, some (r, none))
        | none =>
          if release.isSome ∧ release = v.reference.number then (.released, none)
          else if v.startsSoon then (.startingSoon, none)
          else (.free, none)

/-- R114: the earliest candidate CONFIRMED meeting after the reference. -/
def PageView.next (v : PageView) : Option Record :=
  (sortBy (·.start) (v.candidates.filter (·.follows v.reference))).head?

/-- A candidate record in an active state, or a reserved buffer, covers the slot. -/
def PageView.busyAt (v : PageView) (slot : Nat) : Bool :=
  v.candidates.any fun r => (r.patches r.room).any (·.has slot)

/-- R114: the free-until minute of a page that shows FREE, STARTING_SOON or RELEASED. -/
def PageView.freeUntil (v : PageView) : Option Nat :=
  if v.reference.number.any v.busyAt then none
  else
    (((List.range Config.slotsPerDay).find? fun n => !v.reference.reaches n && v.busyAt n)).map boundaryMinute

/-- R114: the slot's cell is FREE in every row of the room's family, as the live records make it. -/
def Ppu.cellsFree (p : Ppu) (b : Book) (d : Date) (x slot : Nat) : Bool :=
  (rowFamily p.rooms x).all fun y =>
    (b.viewRecords .live d).all fun r =>
      !(rowFamily p.rooms r.room).contains y || !(r.patches y).any (·.has slot)

/-- R114: walk-up offered, for a display state that admits it. -/
def Ppu.walkupAt (p : Ppu) (t : Ctu) (b : Book) (d : Date) (x : Nat) (rm : Room) (ref : CurSlot) : Bool :=
  match ref.number with
  | none => false
  | some n =>
    rm.walkup && (t.delivered n || (p.isLatched rm.group && p.coming == some n)) && p.cellsFree b d x n

/-- R114: check-in open, for a page that is not DARK, NOT_READY or OUT_OF_SERVICE: the page shows AWAITING_CHECKIN, or a
candidate meeting that the projection leaves CONFIRMED has mark NONE and its window open. -/
def PageView.checkinOpen (v : PageView) (shown : Display) : Bool :=
  shown == .awaitingCheckin ||
    v.candidates.any fun r =>
      r.kind == .meeting && r.state == .confirmed && r.check == .none &&
        decide (boundaryMinute r.start ≤ v.minute + Config.earlyMinutes)

/-- R110: the content of a page with nothing to show, in the display state given. -/
def PageContent.blank (display : Display) (rm : Room) (overlay : Nat) : PageContent :=
  { display := display, walkup := false, checkinOpen := false, overlay := overlay, group := rm.group, code := rm.code,
    endMinute := none, nextMinute := none, freeUntil := none, label := none, nextLabel := none }

def Display.open : Display → Bool
  | .free => true
  | .startingSoon => true
  | .released => true
  | _ => false

/-- R113 row 3. -/
def Ppu.outOfService (b : Book) (d : Date) (x : Nat) (rm : Room) : Bool :=
  !rm.bookable || (b.row x d).any fun r => r.state == .quarantined

/-- R114: the content of a page in rows 4 to 9 of R113. -/
def Ppu.shownContent (p : Ppu) (t : Ctu) (b : Book) (h : Horizon) (x : Nat) (rm : Room) (pg : Page) (ref : CurSlot) :
    PageContent :=
  let v := p.pageView t b h x ref
  let d := v.display pg.release
  { display := d.1
    walkup := d.1.open && p.walkupAt t b h.today x rm ref
    checkinOpen := v.checkinOpen d.1
    overlay := pg.overlay
    group := rm.group
    code := rm.code
    endMinute := d.2.map fun c => boundaryMinute (c.1.start + c.1.count)
    nextMinute := v.next.map fun r => boundaryMinute r.start
    freeUntil := if d.1.open then v.freeUntil else none
    label := d.2.bind (·.2)
    nextLabel := v.next.bind (·.label) }

/-- R113, R114: the content of a room's page, judged at the reference. -/
def Ppu.content (p : Ppu) (t : Ctu) (b : Book) (x : Nat) (rm : Room) (pg : Page) (ref : CurSlot) : PageContent :=
  match p.horizon with
  | none => .blank .notReady rm 0
  | some h =>
    if p.isDark rm.group && p.darkPeriod then .blank .dark rm 0
    else if Ppu.outOfService b h.today x rm then .blank .outOfService rm pg.overlay
    else p.shownContent t b h x rm pg ref

/-! ## The page body -/

def highByte (n : Nat) : Byte := BitVec.ofNat 8 (n / 256)

def lowByte (n : Nat) : Byte := BitVec.ofNat 8 n

/-- R93: a value of two bytes; 65535 for an absent one. -/
def minuteBytes (m : Option Nat) : List Byte := [highByte (m.getD 65535), lowByte (m.getD 65535)]

/-- R93: a label of 25 bytes, its length first. -/
def labelBytes (l : Option Label) : List Byte :=
  let x := l.getD []
  [lowByte x.length] ++ x ++ List.replicate (24 - x.length) 0

/-- R93 byte 2. -/
def Display.value : Display → Nat
  | .notReady => 0 | .dark => 1 | .free => 2 | .startingSoon => 3 | .awaitingCheckin => 4 | .inUse => 5
  | .released => 6 | .closed => 7 | .outOfService => 8

/-- R93: the body of a STAGE_PAGE or a SHOW_PAGE. -/
def PageContent.body (c : PageContent) (version : Half) : List Byte :=
  [highByte version.toNat, lowByte version.toNat, lowByte c.display.value, lowByte c.walkup.toNat,
    lowByte c.checkinOpen.toNat, lowByte c.overlay, lowByte c.group, lowByte (c.code.toNat / 65536),
    highByte c.code.toNat, lowByte c.code.toNat] ++
    minuteBytes c.endMinute ++ minuteBytes c.nextMinute ++ minuteBytes c.freeUntil ++ labelBytes c.label ++
    labelBytes c.nextLabel

/-! ## Handing pages to panels -/

def Book.toSbc (b : Book) (i : SbcItem) : Book := b.withMail { b.mail with ppuToSbc := b.mail.ppuToSbc ++ [i] }

def Ppu.putPage (p : Ppu) (x : Nat) (pg : Page) : Ppu := { p with pages := p.pages.put x pg }

def Ppu.putView (p : Ppu) (v : PanelView) : Ppu := { p with views := p.views.put (stationKey v.segment v.address) v }

def Ppu.view (p : Ppu) (segment address : Nat) : Option PanelView := p.views.find (stationKey segment address)

/-- R115: a panel view after an item is handed. -/
def PanelView.handed (v : PanelView) (version : Half) (kind : PageKind) : PanelView :=
  { v with lastHanded := some (version, kind), awaiting := true }

/-- R115, R123: hand a panel its room's page as it stands; not to one that is not ONLINE, nor for a room whose page the PPU
has yet to take in a commit (log 110). -/
def handPage (kind : PageKind) (v : PanelView) (b : Book) (p : Ppu) : Book × Ppu :=
  match v.online, p.pages.find v.room with
  | true, some pg =>
    (b.toSbc (.page v.segment v.address { kind := kind, version := pg.version, content := pg.content }),
      p.putView (v.handed pg.version kind))
  | _, _ => (b, p)

/-- R115: what brought a build about. -/
inductive BuildCause where
  | plain
  | wholePage
  | panel (asking : Nat)
deriving DecidableEq, Repr

/-- R115: the kind of item a changed page is handed as. -/
def BuildCause.kindFor (cause : BuildCause) (latched : Bool) (room : Nat) : PageKind :=
  if !latched then .display
  else match cause with
    | .plain => .stage
    | .wholePage => .display
    | .panel asking => if asking = room then .display else .stage

/-- R115: raised by one, from 65535 to 1. -/
def nextVersion (v : Half) : Half := if v = 65535 then 1 else v + 1

/-- R115: hand the new page to every panel of the room, by rising segment and address (log 74). -/
def handRoom (kind : PageKind) (x : Nat) (r : Book × Ppu) : Book × Ppu :=
  (r.2.views.values.filter fun v => v.room == x).foldl (fun r v => handPage kind v r.1 r.2) r

/-- R115: a build. -/
def buildPage (t : Ctu) (cause : BuildCause) (r : Book × Ppu) (x : Nat) : Book × Ppu :=
  match r.2.rooms.find x, r.2.pages.find x with
  | some rm, some pg =>
    let ref := r.2.reference t rm.group
    let c := r.2.content t r.1 x rm pg ref
    if c = pg.content then (r.1, r.2.putPage x { pg with reference := ref })
    else
      handRoom (cause.kindFor (r.2.isLatched rm.group) x) x
        (r.1, r.2.putPage x { pg with reference := ref, content := c, version := nextVersion pg.version })
  | _, _ => r

/-- R115: the pages of the rooms given are built one after another, in the order given (log 74). -/
def buildPages (t : Ctu) (cause : BuildCause) (rooms : List Nat) (r : Book × Ppu) : Book × Ppu :=
  rooms.foldl (buildPage t cause) r

/-- Build every page, by rising room index (log 74). -/
def buildAll (t : Ctu) (cause : BuildCause) (r : Book × Ppu) : Book × Ppu := buildPages t cause r.2.pages.keys r

/-- The rooms whose record passes. -/
def Ppu.roomsWhere (p : Ppu) (f : Nat → Room → Bool) : List Nat :=
  (p.rooms.entries.filter fun e => f e.1 e.2).map (·.1)

/-- R118: the rooms whose pages a record of a room can affect. -/
def Ppu.affected (p : Ppu) (x : Nat) : List Nat :=
  match p.rooms.find x with
  | some r =>
    match r.kind with
    | .single => [x]
    | .part => x :: r.combined.toList
    | .combined => x :: r.parts
  | none => [x]

/-! ## Latch waits -/

/-- R120, R121: a wait ends: one latch is handed, and the LATCH_GROUPS it answers is answered. -/
def endWait (b : Book) (w : LatchWait) : Book :=
  let b := b.toSbc (.latch w.groups)
  match w.ctx with
  | some c => b.reply c (Answer.ok (.latched w.groups))
  | none => b

/-- R120: the panels a claim waits for. -/
def Ppu.awaited (p : Ppu) (groups : List Nat) : List Nat :=
  (p.views.entries.filter fun e =>
    e.2.online && e.2.awaiting && (p.rooms.find e.2.room).any fun r => groups.contains r.group).map (·.1)

/-- R120: a latch claim. -/
def latchClaim (groups : List Nat) (ctx : Option Ctx) (r : Book × Ppu) : Book × Ppu :=
  let w : LatchWait := { groups := groups, panels := r.2.awaited groups, minutes := 0, ctx := ctx }
  if w.panels.isEmpty || r.2.horizon.isNone then (endWait r.1 w, r.2)
  else (r.1, { r.2 with waits := r.2.waits ++ [w] })

/-- R120: a latch claim for the groups given, and none when there is none. -/
def latchIfAny (groups : List Nat) (r : Book × Ppu) : Book × Ppu :=
  if groups.isEmpty then r else latchClaim groups none r

/-- R120: the waits whose awaited set is empty end, the oldest first (log 76). -/
def settleWaits (r : Book × Ppu) : Book × Ppu :=
  ((r.2.waits.filter fun w => w.panels.isEmpty).foldl endWait r.1,
    { r.2 with waits := r.2.waits.filter fun w => !w.panels.isEmpty })

/-- R120: a panel leaves every wait. -/
def leaveWaits (key : Nat) (r : Book × Ppu) : Book × Ppu :=
  settleWaits
    (r.1, { r.2 with waits := r.2.waits.map fun w => { w with panels := w.panels.filter (· != key) } })

/-- R117, R120: every LATCHED group. -/
def Ppu.latchedGroups (p : Ppu) : List Nat := (p.groups.entries.filter fun e => e.2.latched).map (·.1)

end Sys2Proof.Machine
end

