-- ==== Sys2Proof/Machine/Bus.lean ====
section
/-! DEFINITION. The Station Bus Controller (06): stations, credits, items, the arbiter, attempts, answers, faults and
discovery. -/

namespace Sys2Proof.Machine

/-! ## Segments and stations -/

def Segments.get (x : Segments) : Nat → Option Segment
  | 0 => some x.seg0
  | 1 => some x.seg1
  | 2 => some x.seg2
  | 3 => some x.seg3
  | _ => none

def Segments.set (x : Segments) (n : Nat) (g : Segment) : Segments :=
  match n with
  | 0 => { x with seg0 := g }
  | 1 => { x with seg1 := g }
  | 2 => { x with seg2 := g }
  | 3 => { x with seg3 := g }
  | _ => x

def Segments.mapAll (x : Segments) (f : Segment → Segment) : Segments :=
  { seg0 := f x.seg0, seg1 := f x.seg1, seg2 := f x.seg2, seg3 := f x.seg3 }

def Sbc.seg (x : Sbc) (n : Nat) : Option Segment := x.segments.get n

def Sbc.putSeg (x : Sbc) (n : Nat) (g : Segment) : Sbc := { x with segments := x.segments.set n g }

def Sbc.station (x : Sbc) (segment address : Nat) : Option Station := x.stations.find (stationKey segment address)

def Sbc.putStation (x : Sbc) (s : Station) : Sbc :=
  { x with stations := x.stations.put (stationKey s.segment s.address) s }

/-- The stations of one segment in rising address order. -/
def Sbc.onSegment (x : Sbc) (segment : Nat) : List Station := x.stations.values.filter fun s => s.segment == segment

/-- R90: the record of a station after either reset. -/
def Station.reset (segment address : Nat) (i : StationItem) : Station :=
  { segment := segment, address := address, type := i.type, binding := i.binding, state := .absent, cause := none,
    session := 0, sequence := false, advertised := 0, credits := 0, pageSlot := none, results := [],
    resultsAwaited := 0, ticketSlot := none, callSlot := none, clearMark := false, failures := 0, faults := 0,
    lastPoll := none, delivered := (0, none), shown := 0, pollStart := none, pollDue := false }

/-- R89: the transaction in flight with a station. -/
def Sbc.flightWith (x : Sbc) (segment address : Nat) : Option Transaction :=
  (x.seg segment).bind fun g => g.inFlight.filter fun t => t.address == address

/-- R91: the frame kind of a transaction. -/
def Work.frame : Work → FrameKind
  | .latch _ => .latch
  | .clear => .clear
  | .probe => .probe
  | .poll => .poll
  | .page i => if i.kind = .stage then .stagePage else .showPage
  | .result _ => .result
  | .ticket _ => .ticket
  | .call c => if c.kind = .void then .void else .pickupCall

/-- R92: the values of byte 1. -/
def FrameKind.value : FrameKind → Nat
  | .probe => 1 | .poll => 2 | .stagePage => 3 | .showPage => 4 | .latch => 5 | .result => 6 | .ticket => 7
  | .void => 8 | .pickupCall => 9 | .clear => 10 | .probeAnswer => 17 | .pollAnswer => 18 | .ack => 19

/-- R91, R93: the body of a transaction's frame; one whose fields have no stated form has at most 96 bytes (log 5). -/
def Work.body : Work → List Byte
  | .clear => []
  | .probe => []
  | .poll => []
  | .page i => i.content.body i.version
  | .latch groups => (List.range 32).map fun n => if groups.contains n then 1 else 0
  | .result i => i.bytes.take 96
  | .ticket t => t.bytes.take 96
  | .call c => c.bytes.take 96

/-- R92: the frame an attempt sends. -/
def Transaction.bytes (f : Transaction) : List Byte :=
  stationFrame f.address f.work.frame.value f.sequence f.work.body

/-- R91: the answer a transaction waits for. -/
def Work.awaited : Work → Option FrameKind
  | .latch _ => none
  | .clear => none
  | .probe => some .probeAnswer
  | .poll => some .pollAnswer
  | _ => some .ack

/-! ## What the SBC tells other blocks -/

def Book.tellPanel (b : Book) (segment : Nat) (r : PpuReport) : Book :=
  b.withMail { b.mail with sbcToPpu := b.mail.sbcToPpu ++ [(segment, r)] }

def Book.tellKitchen (b : Book) (segment : Nat) (r : CscReport) : Book :=
  b.withMail { b.mail with sbcToCsc := b.mail.sbcToCsc ++ [(segment, r)] }

/-- R96, R97, R106: the binding owner is told of the station's state as it now stands. -/
def Book.tellOwner (b : Book) (s : Station) : Book :=
  match s.type with
  | .panel =>
    b.tellPanel s.segment (.link s.address (if s.state = .online then .online s.session else .offline))
  | .terminal =>
    b.tellKitchen s.segment
      (.link s.binding (if s.state = .online then some s.session else none) (some s.state))

/-- R108: STATION_STATE. -/
def Book.postStation (b : Book) (s : Station) (old : StationState) (new : Option StationState) (cause : StateCause)
    (reported : Option (StationType × Nat) := none) (frame : Option FrameKind := none) : Book :=
  b.post (.stationState s.segment s.address s.type s.binding (b.stationCode s) old new cause s.faults reported frame)

/-- R96, R103: a ticket is handed back as not delivered, and its slot is free. -/
def Book.ticketReturned (b : Book) (s : Station) : Option Ticket → Book
  | some t =>
    (b.tellKitchen s.segment (.ticketBack s.binding t.order t.serial)).tellKitchen s.segment (.slotFree s.binding true)
  | none => b

/-- R96, R103: a call is handed back as not delivered, and its slot is free. -/
def Book.callReturned (b : Book) (s : Station) : Option Call → Book
  | some c => (b.tellKitchen s.segment (.callBack s.binding c)).tellKitchen s.segment (.slotFree s.binding false)
  | none => b

def Transaction.ticket (t : Transaction) : Option Ticket :=
  match t.work with
  | .ticket x => some x
  | _ => none

def Transaction.call (t : Transaction) : Option Call :=
  match t.work with
  | .call x => some x
  | _ => none

/-- R96, R106, R109: any ticket and any call, in the slot or in flight, go back to the CSC. -/
def Book.handBack (b : Book) (s : Station) (flight : Option Transaction) : Book :=
  let b := (b.ticketReturned s (flight.bind Transaction.ticket)).ticketReturned s s.ticketSlot
  (b.callReturned s (flight.bind Transaction.call)).callReturned s s.callSlot

/-- R96, R106, R109: slots, lists, credits and the poll of a station that leaves ONLINE. -/
def Station.emptied (s : Station) : Station :=
  { s with
    advertised := 0, credits := 0, pageSlot := none, results := [], resultsAwaited := 0, ticketSlot := none
    callSlot := none, lastPoll := none, pollStart := none, pollDue := false }

/-! ## The arbiter -/

/-- R98: the poll of the station is due. -/
def Station.pollReady (s : Station) : Bool :=
  s.pollDue && (s.type == .terminal || (s.resultsAwaited == 0 && s.results.isEmpty))

/-- R104: the work chosen within a station. -/
def Station.choice (s : Station) : Option Work :=
  let poll := if s.pollReady then some Work.poll else none
  match s.type with
  | .panel =>
    match s.results with
    | r :: _ => some (.result r)
    | [] => match s.pageSlot with
      | some p => if 0 < s.credits then some (.page p) else poll
      | none => poll
  | .terminal =>
    match s.callSlot with
    | some c => some (.call c)
    | none => match s.ticketSlot with
      | some t => if 0 < s.credits then some (.ticket t) else poll
      | none => poll

/-- R98, R100, R101: the station's record when the first attempt of the work is sent. A call leaves its slot then, as a
ticket does, and is in flight until it is delivered or handed back (R96, R103, log 71). -/
def Station.sending (s : Station) (now : Nat) : Work → Station
  | .page _ => { s with pageSlot := none, credits := s.credits - 1 }
  | .ticket _ => { s with ticketSlot := none, credits := s.credits - 1 }
  | .call _ => { s with callSlot := none }
  | .poll => { s with pollStart := some now, pollDue := false }
  | _ => s

/-- The list from the first station after an address, wrapping. -/
def wrapAfter (last : Option Nat) (l : List Station) : List Station :=
  match last with
  | none => l
  | some a => (l.filter fun s => decide (a < s.address)) ++ l.filter fun s => decide (s.address ≤ a)

/-- R104 step 3: the station served next, with its work. -/
def Sbc.roundRobin (x : Sbc) (segment : Nat) (g : Segment) : Option (Station × Work) :=
  (wrapAfter g.lastServed (x.onSegment segment)).findSome? fun s =>
    if s.state = .online then s.choice.map fun w => (s, w) else none

def Transaction.first (address : Nat) (w : Work) (sequence : Bool) : Transaction :=
  { address := address, work := w, attempt := 1, sequence := sequence }

/-- R105: the LATCH broadcast and its record. -/
def latchChosen (segment : Nat) (g : Segment) (b : Book) (x : Sbc) : Book × Sbc :=
  let panels := (x.onSegment segment).filter fun s => s.type == .panel && s.state == .online
  (b.tellPanel segment (.broadcast g.mask (panels.map fun s => (s.address, s.session))),
    x.putSeg segment { g with inFlight := some (.first 0 (.latch g.mask) false), mask := [] })

/-- R106: CLEAR to a station with the clear mark. -/
def clearChosen (segment : Nat) (g : Segment) (s : Station) (x : Sbc) : Sbc :=
  (x.putStation { s with clearMark := false }).putSeg segment
    { g with inFlight := some (.first s.address .clear false) }

/-- R94, R100, R104: a transaction with an ONLINE station. -/
def stationChosen (now segment : Nat) (g : Segment) (s : Station) (w : Work) (x : Sbc) : Sbc :=
  (x.putStation (s.sending now w)).putSeg segment
    { g with inFlight := some (.first s.address w s.sequence), lastServed := some s.address }

/-- R97: the station probed next. -/
def Sbc.probeNext (x : Sbc) (segment : Nat) (g : Segment) : Option Station :=
  if g.probeReady then (wrapAfter g.pointer (x.onSegment segment)).find? fun s => s.state == .absent else none

/-- R97: a PROBE. -/
def probeChosen (now segment : Nat) (g : Segment) (s : Station) (x : Sbc) : Sbc :=
  x.putSeg segment
    { g with
      inFlight := some (.first s.address .probe false), pointer := some s.address, probeReady := false
      probeSent := some now }

/-- R104. -/
def arbiterChoose (segment : Nat) (t : Ctu) (b : Book) (x : Sbc) : Book × Sbc :=
  match x.seg segment with
  | none => (b, x)
  | some g =>
    if g.inFlight.isSome then (b, x)
    else if !g.mask.isEmpty then latchChosen segment g b x
    else match (x.onSegment segment).find? (·.clearMark) with
      | some s => (b, clearChosen segment g s x)
      | none => match x.roundRobin segment g with
        | some (s, w) => (b, stationChosen t.elapsed segment g s w x)
        | none => match x.probeNext segment g with
          | some s => (b, probeChosen t.elapsed segment g s x)
          | none => (b, x)

/-! ## The end of an attempt -/

def Sbc.endFlight (x : Sbc) (segment : Nat) : Sbc :=
  match x.seg segment with
  | none => x
  | some g => x.putSeg segment { g with inFlight := none }

/-- R96. -/
def stationFault (s : Station) (f : Transaction) (b : Book) (x : Sbc) : Book × Sbc :=
  let s' := { s.emptied with state := .faulted, cause := some .fault, failures := 4, faults := bump 65535 s.faults }
  let b := ((b.handBack s (some f)).tellOwner s').postStation s' s.state (some .faulted) .fault none
    (some f.work.frame)
  (b, (x.putStation s').endFlight s.segment)

/-- R95, R97: a failed attempt. -/
def attemptFailed (segment : Nat) (f : Transaction) (b : Book) (x : Sbc) : Book × Sbc :=
  match f.work, x.station segment f.address with
  | .probe, _ => (b, x.endFlight segment)
  | _, none => (b, x.endFlight segment)
  | _, some s =>
    if s.failures < 3 then
      let x := x.putStation { s with failures := s.failures + 1 }
      match x.seg segment with
      | some g => (b, x.putSeg segment { g with inFlight := some { f with attempt := f.attempt + 1 } })
      | none => (b, x)
    else stationFault s f b x

/-- R97: the credits a type may report. -/
def creditsInRange (t : StationType) (n : Nat) : Bool :=
  match t with
  | .panel => decide (1 ≤ n) && decide (n ≤ 4)
  | .terminal => decide (1 ≤ n) && decide (n ≤ 16)

/-- R97: the record of a station that comes ONLINE. -/
def Station.found (s : Station) (credits now : Nat) : Station :=
  { s with
    state := .online, cause := some .found, session := s.session + 1, sequence := false, advertised := credits
    credits := credits, failures := 0, delivered := (0, none), shown := 0, lastPoll := none, pollStart := some now
    pollDue := false }

/-- R97: a PROBE_ANSWER. -/
def probeAnswered (now : Nat) (s : Station) (type : StationType) (credits : Nat) (b : Book) (x : Sbc) : Book × Sbc :=
  if type = s.type ∧ creditsInRange s.type credits then
    let s' := s.found credits now
    ((b.tellOwner s').postStation s' s.state (some .online) .found, (x.putStation s').endFlight s.segment)
  else
    let s' := { s with state := .mismatch, cause := some .mismatch }
    (b.postStation s' s.state (some .mismatch) .mismatch (some (type, credits)),
      (x.putStation s').endFlight s.segment)

/-- R91: the event belongs to the type, with every field in its range. -/
def eventValid (t : StationType) : StationEvent → Bool
  | .checkIn _ => t == .panel
  | .walkup n => t == .panel && decide (1 ≤ n) && decide (n ≤ 4)
  | .endMeeting => t == .panel
  | .extend => t == .panel
  | .cartArrived n => t == .panel && decide (1 ≤ n) && decide (n ≤ 1023)
  | .ticketTaken n => t == .terminal && decide (1 ≤ n) && decide (n ≤ 1023)
  | .dispatched n => t == .terminal && decide (1 ≤ n) && decide (n ≤ 1023)
  | .pickedUp n => t == .terminal && decide (1 ≤ n) && decide (n ≤ 1023)

/-- R91, R95: the body of a POLL_ANSWER is valid; the shown version of a terminal is 0. -/
def pollValid (s : Station) (credits shown : Nat) (events : List StationEvent) : Bool :=
  decide (events.length ≤ 2) && events.all (eventValid s.type) && decide (credits ≤ 16) && decide (shown ≤ 65535) &&
    (s.type == .panel || shown == 0) && decide (credits ≤ s.advertised - s.credits)

/-- R99 step 4: hand one event to its owner. -/
def Book.handEvent (b : Book) (s : Station) (e : StationEvent) : Book :=
  match s.type with
  | .panel => b.tellPanel s.segment (.event s.address s.session s.binding e)
  | .terminal => b.tellKitchen s.segment (.event s.binding s.address s.session e)

/-- R94, R95: the record after a success. -/
def Station.succeeded (s : Station) : Station := { s with failures := 0, sequence := !s.sequence }

/-- R99. -/
def pollAnswered (t : Ctu) (s : Station) (credits shown : Nat) (events : List StationEvent) (b : Book) (x : Sbc) :
    Book × Sbc :=
  let panel := s.type == .panel
  let s' :=
    { s.succeeded with
      credits := s.credits + credits
      shown := if panel then BitVec.ofNat 16 shown else s.shown
      lastPoll := (t.clock.map (·.minute)).orElse fun _ => s.lastPoll
      resultsAwaited := if panel then s.resultsAwaited + events.length else s.resultsAwaited }
  let b := if panel then b.tellPanel s.segment (.shown s.address s.session (BitVec.ofNat 16 shown)) else b
  (events.foldl (fun b e => b.handEvent s e) b, (x.putStation s').endFlight s.segment)

/-- R95, R103: the effects of an ACK, on the record and on the owners. The CSC is told that the ticket or call is delivered
before it is told that its slot is free (log 106). -/
def ackEffects (s : Station) (w : Work) (b : Book) : Book × Station :=
  let s' := s.succeeded
  match w with
  | .page i =>
    (b.tellPanel s.segment (.delivered s.address i.version i.kind i.content.group),
      { s' with delivered := (i.version, some i.kind) })
  | .result _ => (b, { s' with results := s.results.drop 1 })
  | .ticket k =>
    ((b.tellKitchen s.segment (.ticketDelivered s.binding k.order k.serial)).tellKitchen s.segment
      (.slotFree s.binding true), s')
  | .call c =>
    ((b.tellKitchen s.segment (.callDelivered s.binding c)).tellKitchen s.segment (.slotFree s.binding false), s')
  | _ => (b, s')

/-- R92: the check of a station frame is good. -/
def stationCheckGood (l : List Byte) : Bool :=
  bytesToNat (l.drop (l.length - 2)) == (stationCheck (l.take (l.length - 2))).toNat

/-- R92: the frame is whole and its check good; any other is treated as not received (log 16). -/
def frameReceived (l : List Byte) : Bool := l.length == byteAt l 2 + 6 && stationCheckGood l

/-- R92, R95 conditions 2 to 4: the frame answers the attempt. -/
def frameAnswers (l : List Byte) (f : Transaction) (kind : FrameKind) : Bool :=
  decide (byteAt l 2 ≤ 96) && byteAt l 0 == f.address && byteAt l 1 == kind.value && byteAt l 3 == f.sequence.toNat

/-- R95 condition 5: the body is valid for its kind, at this station. -/
def bodyValid (s : Station) (l : List Byte) (kind : FrameKind) : AnswerBody → Bool
  | .probe _ _ => kind == .probeAnswer
  | .poll credits shown events => kind == .pollAnswer && pollValid s credits shown events
  | .ack => kind == .ack && byteAt l 2 == 0
  | .unreadable => false

/-- R95: the attempt succeeds. -/
def attemptSucceeded (t : Ctu) (s : Station) (f : Transaction) (body : AnswerBody) (b : Book) (x : Sbc) : Book × Sbc :=
  match body with
  | .probe type credits => probeAnswered t.elapsed s type credits b x
  | .poll credits shown events => pollAnswered t s credits shown events b x
  | _ =>
    let r := ackEffects s f.work b
    (r.1, (x.putStation r.2).endFlight s.segment)

/-- R95: an answer frame arrives within the wait. One that comes when no answer is awaited is ignored, and one whose check
differs is not received, so that the wait goes on (R92, log 16). -/
def stationAnswer (segment : Nat) (bytes : List Byte) (body : AnswerBody) (t : Ctu) (b : Book) (x : Sbc) : Book × Sbc :=
  match (x.seg segment).bind (·.inFlight) with
  | none => (b, x)
  | some f =>
    match f.work.awaited, x.station segment f.address with
    | some kind, some s =>
      if !frameReceived bytes then (b, x)
      else if frameAnswers bytes f kind && bodyValid s bytes kind body then attemptSucceeded t s f body b x
      else attemptFailed segment f b x
    | _, _ => (b, x)

/-- R95: the wait runs out. -/
def replyWaitExpiry (segment : Nat) (b : Book) (x : Sbc) : Book × Sbc :=
  match (x.seg segment).bind (·.inFlight) with
  | none => (b, x)
  | some f => if f.work.awaited.isSome then attemptFailed segment f b x else (b, x)

/-- R89: the last byte of a frame that expects no answer has left. -/
def frameSent (segment : Nat) (x : Sbc) : Sbc :=
  match (x.seg segment).bind (·.inFlight) with
  | none => x
  | some f => if f.work.awaited.isNone then x.endFlight segment else x

/-- R3: an interval of whole seconds that started at `start` on the elapsed-time base has run out (log 7). -/
def Ctu.ranOut (t : Ctu) (seconds : Nat) (start : Option Nat) : Bool :=
  start.any fun n => decide (n + seconds * Config.crystal ≤ t.elapsed)

/-- R98: the poll period has run out since the interval start of an ONLINE station. -/
def pollDue (segment address : Nat) (t : Ctu) (x : Sbc) : Sbc :=
  match x.station segment address with
  | none => x
  | some s =>
    if s.state = .online ∧ t.ranOut x.pollPeriod s.pollStart then x.putStation { s with pollDue := true } else x

/-- R97: the probe interval runs out. -/
def probeIntervalExpiry (segment : Nat) (t : Ctu) (x : Sbc) : Sbc :=
  match x.seg segment with
  | none => x
  | some g => if t.ranOut Config.probeSeconds g.probeSent then x.putSeg segment { g with probeReady := true } else x

/-! ## Items handed to the SBC -/

/-- R101: the page slot after an item is taken. -/
def slotWith (old : Option PageItem) (i : PageItem) : PageItem :=
  match old with
  | none => i
  | some o => if o.kind = .display ∨ i.kind = .display then { i with kind := .display } else i

/-- Take the item at the head of what the PPU handed. -/
def Book.popSbc (b : Book) : Book := b.withMail { b.mail with ppuToSbc := b.mail.ppuToSbc.drop 1 }

/-- R101. -/
def pageItem (b : Book) (x : Sbc) : Book × Sbc :=
  match b.mail.ppuToSbc with
  | .page segment address i :: _ =>
    let b := b.popSbc
    match x.station segment address with
    | some s =>
      if s.state = .online then (b, x.putStation { s with pageSlot := some (slotWith s.pageSlot i) })
      else (b.tellPanel segment (.refused address), x)
    | none => (b.tellPanel segment (.refused address), x)
  | _ => (b, x)

/-- R102. -/
def resultItem (b : Book) (x : Sbc) : Book × Sbc :=
  match b.mail.ppuToSbc with
  | .result segment address session i :: _ =>
    let b := b.popSbc
    match x.station segment address with
    | some s =>
      if s.state = .online ∧ s.session = session ∧ 0 < s.resultsAwaited then
        (b, x.putStation { s with results := s.results ++ [i], resultsAwaited := s.resultsAwaited - 1 })
      else (b.tellPanel segment (.unsent address), x)
    | none => (b.tellPanel segment (.unsent address), x)
  | _ => (b, x)

/-- R105: groups added to a mask. -/
def maskWith (mask groups : List Nat) : List Nat :=
  (List.range 32).filter fun g => mask.contains g || groups.contains g

/-- R105. -/
def latchHanded (b : Book) (x : Sbc) : Book × Sbc :=
  match b.mail.ppuToSbc with
  | .latch groups :: _ =>
    (b.popSbc, { x with segments := x.segments.mapAll fun g => { g with mask := maskWith g.mask groups } })
  | _ => (b, x)

/-- The terminal of a kitchen, as the SBC's station table has it. -/
def Sbc.terminalOf (x : Sbc) (kitchen : Nat) : Option Station :=
  x.stations.values.find? fun s => s.type == .terminal && s.binding == kitchen

/-- R140: the ticket of an order. -/
def Book.ticketFor (b : Book) (o : Order) : Ticket :=
  { order := o.id, serial := o.serial, code := b.code o.copy.room, date := o.date, minute := deliveryMinute o.slot
    covers := o.covers, lines := o.lines, label := o.copy.label }

/-- R103, R140: the SBC takes the head ticket of the kitchen, or refuses it. -/
def ticketOffer (kitchen : Nat) (b : Book) (x : Sbc) : Book × Sbc :=
  if !b.mail.ticketOffers.contains kitchen then (b, x)
  else
    let b := b.withMail { b.mail with ticketOffers := b.mail.ticketOffers.erase kitchen }
    let head := (b.csc.kitchen kitchen).bind fun k => k.tickets.head?
    match x.terminalOf kitchen, head.bind (fun id => b.csc.orders.find id) with
    | some s, some o =>
      if s.state = .online ∧ s.ticketSlot.isNone then
        ((b.putOrder { o with ticket := .offered }).leaveTickets kitchen o.id,
          x.putStation { s with ticketSlot := some (b.ticketFor o) })
      else (b, x)
    | _, _ => (b, x)

/-- R103, R141: the SBC takes the head call of the kitchen, or refuses it. -/
def callOffer (kitchen : Nat) (b : Book) (x : Sbc) : Book × Sbc :=
  if !b.mail.callOffers.contains kitchen then (b, x)
  else
    let b := b.withMail { b.mail with callOffers := b.mail.callOffers.erase kitchen }
    match x.terminalOf kitchen, (b.csc.kitchen kitchen).bind fun k => k.calls.head? with
    | some s, some c =>
      if s.state = .online ∧ s.callSlot.isNone then
        (b.modifyKitchen kitchen fun k => { k with calls := k.calls.drop 1, callOut := some c },
          x.putStation { s with callSlot := some c })
      else (b, x)
    | _, _ => (b, x)

/-! ## Host requests -/

def stationRange (segment address : Nat) : Bool :=
  decide (segment ≤ 3) && decide (1 ≤ address) && decide (address ≤ 48)

/-- R106: the record and the owners after a RESET_STATION is taken. -/
def resetTaken (s : Station) (b : Book) (x : Sbc) : Book × Sbc :=
  let s' :=
    { s.emptied with
      state := .absent, cause := some .reset, failures := 0, delivered := (0, none), shown := 0, clearMark := true }
  let b := (b.handBack s none).tellOwner s'
  (if s.state = .absent then b else b.postStation s' s.state (some .absent) .reset, x.putStation s')

/-- R106: a RESET_STATION that no transaction in flight holds back; one out of range names no station. -/
def resetReady (x : Sbc) (h : Handed) : Bool :=
  match h.request with
  | .resetStation segment address => !stationRange segment address || (x.flightWith segment address).isNone
  | _ => false

/-- R106: RESET_STATION. -/
def resetStation (b : Book) (x : Sbc) : Book × Sbc :=
  match b.pickRequest (resetReady x) with
  | none => (b, x)
  | some (h, b') =>
    match h.request with
    | .resetStation segment address =>
      if !stationRange segment address then (b'.reply h.ctx (Answer.of .badRequest), x)
      else match x.station segment address with
        | none => (b'.reply h.ctx (Answer.because .notFound .station), x)
        | some s =>
          let r := resetTaken s b' x
          (r.1.reply h.ctx (Answer.ok (.stationReset segment address s.state)), r.2)
    | _ => (b, x)

/-- R107: a station as READ_STATION shows it, with the host room code and the transaction in flight with it. -/
def Station.view (s : Station) (code : Option RoomCode) (flight : Option Transaction) : StationView :=
  { type := s.type, binding := s.binding, code := code, state := s.state, cause := s.cause, session := s.session
    advertised := s.advertised, credits := s.credits, pageSlot := s.pageSlot.map fun i => (i.kind, i.version)
    delivered := s.delivered, shown := s.shown, results := s.results.length, resultsAwaited := s.resultsAwaited
    ticketSlot := s.ticketSlot.map (·.order), callSlot := s.callSlot.map fun c => { kind := c.kind, order := c.order }
    clearMark := s.clearMark, failures := s.failures, faults := s.faults, lastPoll := s.lastPoll
    inFlight := flight.map fun f => (f.work.frame, f.attempt) }

/-- R107: the reply to READ_STATION. -/
def Book.stationReply (b : Book) (x : Sbc) (segment address : Nat) : Answer :=
  if !stationRange segment address then Answer.of .badRequest
  else match x.station segment address with
    | none => Answer.because .notFound .station
    | some s =>
      Answer.ok
        (.station (s.view (b.stationCode s) (x.flightWith segment address)))

def Handed.isReadStation (h : Handed) : Bool :=
  match h.request with
  | .readStation _ _ => true
  | _ => false

/-- R107: READ_STATION is taken at once. -/
def readStation (b : Book) (x : Sbc) : Book :=
  match b.pickRequest Handed.isReadStation with
  | none => b
  | some (h, b') => match h.request with
    | .readStation segment address => b'.reply h.ctx (b'.stationReply x segment address)
    | _ => b

/-! ## The new station set of a commit -/

/-- R109: a transaction in flight with the station is ended at once. -/
def Sbc.cutFlight (x : Sbc) (s : Station) : Sbc :=
  if (x.flightWith s.segment s.address).isSome then x.endFlight s.segment else x

/-- R109: the owner of a station's old binding is told that the station is gone from it. -/
def Book.tellGone (b : Book) (s : Station) : Book :=
  match s.type with
  | .panel => b.tellPanel s.segment (.link s.address .removed)
  | .terminal => b.tellKitchen s.segment (.link s.binding none none)

/-- R109: a station that the new set lacks. Its owner is told after what is handed back (log 106). -/
def stationRemoved (s : Station) (b : Book) (x : Sbc) : Book × Sbc :=
  let b := ((b.handBack s (x.flightWith s.segment s.address)).tellGone s).postStation s s.state none .config
  let x := x.cutFlight s
  (b, { x with stations := x.stations.drop (stationKey s.segment s.address) })

/-- R109: a station whose type or binding changed. A clear mark still pending is dropped with the rest, since R109 has no
CLEAR sent (log 72). Its STATION_STATE carries the new type and binding (log 96), and its owners are told after what is
handed back (log 106). -/
def stationChanged (s : Station) (i : StationItem) (b : Book) (x : Sbc) : Book × Sbc :=
  let s' :=
    { s.emptied with
      type := i.type, binding := i.binding, state := .absent, cause := some .config, failures := 0
      delivered := (0, none), shown := 0, clearMark := false }
  let b := b.handBack s (x.flightWith s.segment s.address)
  let b := match s.type, i.type with
    | .panel, .panel => b.tellPanel s.segment (.link s.address (.rebound i.binding))
    | .terminal, .terminal => (b.tellGone s).tellOwner s'
    | .panel, .terminal => (b.tellGone s).tellOwner s'
    | .terminal, .panel => (b.tellGone s).tellPanel s.segment (.link s.address (.added i.binding))
  let b := if s.state = .absent then b else b.postStation s' s.state (some .absent) .config
  (b, (x.cutFlight s).putStation s')

/-- R109: one station of the old set against the new one. -/
def stationCompared (new : Table StationItem) (r : Book × Sbc) (s : Station) : Book × Sbc :=
  match new.find (stationKey s.segment s.address) with
  | none => stationRemoved s r.1 r.2
  | some i => if i.type = s.type ∧ i.binding = s.binding then r else stationChanged s i r.1 r.2

/-- R109: a station that the old set lacked. -/
def stationAdded (key : Nat) (i : StationItem) (b : Book) (x : Sbc) : Book × Sbc :=
  let s := Station.reset (key / 64) (key % 64) i
  (if i.type = .panel then b.tellPanel s.segment (.link s.address (.added i.binding)) else b, x.putStation s)

/-- R109: an ONLINE station under a changed poll period: its poll is due when that period has run out since its present
interval start. -/
def Station.underPeriod (s : Station) (t : Ctu) (period : Nat) : Station :=
  if s.state = .online then { s with pollDue := t.ranOut period s.pollStart } else s

/-- R109: a poll period, applied to every station when it differs from the present one. -/
def Sbc.withPeriod (x : Sbc) (t : Ctu) (period : Nat) : Sbc :=
  if x.pollPeriod = period then x
  else { x with pollPeriod := period, stations := x.stations.mapValues fun _ s => s.underPeriod t period }

/-- R109: the new station set and poll period. The stations are compared by rising segment and address over the old set,
then those added are taken in the same order (log 90). -/
def takeStations (new : Table StationItem) (period : Nat) (t : Ctu) (b : Book) (x : Sbc) : Book × Sbc :=
  let added := new.entries.filter fun p => !x.stations.has p.1
  let x := x.withPeriod t period
  let r := x.stations.values.foldl (stationCompared new) (b, x)
  added.foldl (fun r p => stationAdded p.1 p.2 r.1 r.2) r

/-! ## The steps -/

/-- ARBITER_CHOOSE (R104). -/
def execArbiterChoose (segment : Nat) (s : State) : Outcome := onSbc (arbiterChoose segment) s

/-- STATION_ANSWER (R95, R97, R99). -/
def execStationAnswer (segment : Nat) (bytes : List Byte) (reading : AnswerBody) (s : State) : Outcome :=
  onSbc (stationAnswer segment bytes reading) s

/-- REPLY_WAIT_EXPIRY (R95, R96). -/
def execReplyWaitExpiry (segment : Nat) (s : State) : Outcome := onSbc (fun _ => replyWaitExpiry segment) s

/-- POLL_DUE (R98). -/
def execPollDue (segment address : Nat) (s : State) : Outcome := onSbc (fun t b x => (b, pollDue segment address t x)) s

/-- PROBE_INTERVAL_EXPIRY (R97). -/
def execProbeIntervalExpiry (segment : Nat) (s : State) : Outcome :=
  onSbc (fun t b x => (b, probeIntervalExpiry segment t x)) s

/-- FRAME_SENT (R89). -/
def execFrameSent (segment : Nat) (s : State) : Outcome := onSbc (fun _ b x => (b, frameSent segment x)) s

/-- PAGE_ITEM (R101). -/
def execPageItem (s : State) : Outcome := onSbc (fun _ => pageItem) s

/-- RESULT_ITEM (R102). -/
def execResultItem (s : State) : Outcome := onSbc (fun _ => resultItem) s

/-- TICKET_OFFER (R103). -/
def execTicketOffer (kitchen : Nat) (s : State) : Outcome := onSbc (fun _ => ticketOffer kitchen) s

/-- CALL_OFFER (R103). -/
def execCallOffer (kitchen : Nat) (s : State) : Outcome := onSbc (fun _ => callOffer kitchen) s

/-- LATCH_HANDED (R105). -/
def execLatchHanded (s : State) : Outcome := onSbc (fun _ => latchHanded) s

/-- RESET_STATION (R106). -/
def execResetStation (s : State) : Outcome := onSbc (fun _ => resetStation) s

/-- READ_STATION (R107). -/
def execReadStation (s : State) : Outcome := onSbc (fun _ b x => (readStation b x, x)) s

end Sys2Proof.Machine
end

