-- ==== Sys2Proof/Machine/Clock.lean ====
section
/-! DEFINITION. The steps of the CTU (01): seconds, minutes, midnight, the setting, trimming and reading of the clock. -/

namespace Sys2Proof.Machine

/-- The time events handed to each recipient at once. -/
structure Delivery where
  bke : List TimeEvent
  ppu : List TimeEvent
  csc : List TimeEvent
  squ : List TimeEvent

def Book.deliver (b : Book) (d : Delivery) : Book :=
  { b with mail :=
      { b.mail with
        bkeEvents := b.mail.bkeEvents ++ d.bke
        ppuEvents := b.mail.ppuEvents ++ d.ppu
        cscEvents := b.mail.cscEvents ++ d.csc
        squEvents := b.mail.squEvents ++ d.squ } }

/-- The same events to all four recipients. -/
def Book.deliverAll (b : Book) (l : List TimeEvent) : Book := b.deliver { bke := l, ppu := l, csc := l, squ := l }

/-- R4: some recipient has not yet taken an event that passes. -/
def Mail.eventLeft (m : Mail) (p : EventKind → Bool) : Bool :=
  (m.bkeEvents ++ m.ppuEvents ++ m.cscEvents ++ m.squEvents).any fun e => p e.kind

def EventKind.isHorizonOpen : EventKind → Bool
  | .horizonOpen _ _ _ => true
  | _ => false

def EventKind.isMidnight : EventKind → Bool
  | .dayRetire => true
  | .dayOpen _ _ => true
  | _ => false

/-- R4: slot boundary `b` falls due at `x` and the reach mark held before lies below `x`. -/
def boundaryDue (mark x : Nat) : Option Nat := if mark < x then boundaryAt 360 x else none

/-- R4: what falls due when the clock, with the mark given, reaches minute `x` of `date`. -/
def eventsAt (date : Date) (mark x : Nat) : Delivery :=
  let ev (k : EventKind) : TimeEvent := { date := date, kind := k }
  let fresh := decide (mark < x)
  let slot := (boundaryDue mark x).toList.map fun b => ev (boundaryEvent b)
  let early :=
    if fresh && x == 345 then [ev .morningBuild]
    else if fresh then (boundaryAt 359 x).toList.map fun b => ev (.preBoundary b) else []
  let late := if fresh && x == 1320 then [ev .dayEnd] else []
  let minute := [ev (.minute x)]
  { bke := slot ++ minute, ppu := early ++ slot ++ late ++ minute, csc := slot ++ minute, squ := minute }

/-- R2, R4: the clock after it reaches minute `x` of the same date. -/
def Clock.reaching (c : Clock) (x : Nat) : Clock :=
  { c with
    minute := x
    reach := max c.reach x
    lastBoundary := (boundaryDue c.reach x).orElse fun _ => c.lastBoundary }

def Clock.slot (c : Clock) : CurSlot := slotOfBoundary c.lastBoundary

/-- R14: CLOCK_STATE for the clock as it stands. -/
def Clock.notice (c : Clock) (cause : ClockCause) : Notice :=
  .clockState .running c.date c.weekday c.minute c.slot c.reach cause

/-- R2: one second of the crystal; each sixtieth is a minute completion, which then waits to be applied. -/
def Ctu.oneSecond (t : Ctu) : Ctu :=
  let t := { t with elapsed := t.elapsed + Config.crystal }
  if t.second < 59 then { t with second := t.second + 1 }
  else { t with second := 0, minutesDue := t.minutesDue + 1 }

/-- R8, R9, R12: a minute completion is held while a SET_CLOCK, a forward trim or a midnight is being taken. -/
def Ctu.holding (t : Ctu) : Bool := t.setting.isSome || t.trimming.isSome || t.opening

/-- R12: midnight. -/
def midnight (c : Clock) (t : Ctu) (b : Book) : Ctu × Book :=
  let today := c.date.next
  let w := c.weekday.next
  ({ t with clock := some { date := today, weekday := w, minute := 0, reach := 0, lastBoundary := none },
            opening := true },
    b.deliverAll
      [{ date := c.date, kind := .dayRetire },
       { date := today, kind := .dayOpen (today.after 13) (weekday13 w) },
       { date := today, kind := .minute 0 }])

/-- R2: a minute completion applied. -/
def Ctu.minutePassed (t : Ctu) (b : Book) : Ctu × Book :=
  match t.clock with
  | none => (t, b)
  | some c =>
    if c.minute < 1439 then
      ({ t with clock := some (c.reaching (c.minute + 1)) }, b.deliver (eventsAt c.date c.reach (c.minute + 1)))
    else midnight c t b

/-- R2. -/
def Ctu.minuteCompletion (t : Ctu) (b : Book) : Ctu × Book :=
  if t.minutesDue = 0 ∨ t.holding then (t, b)
  else { t with minutesDue := t.minutesDue - 1 }.minutePassed b

/-- R12. -/
def Ctu.dayOpened (t : Ctu) (b : Book) : Ctu × Book :=
  match t.clock with
  | some c =>
    if t.opening && !b.mail.eventLeft EventKind.isMidnight then
      ({ t with opening := false }, b.post (.dayOpened c.date c.weekday (c.date.after 13)))
    else (t, b)
  | none => (t, b)

/-- R9: requests that reach the CTU while a forward trim is being taken wait behind it. R9 says so of TRIM_CLOCK and R13
of READ_CLOCK; that a SET_CLOCK waits too, and is answered REFUSED/SET after the trim's reply, is the model's choice
(log 43). So is that no request waits behind a SET_CLOCK whose horizon opens are being taken (log 107). -/
def Ctu.nextRequest (t : Ctu) (b : Book) : Option (Handed × Book) :=
  if t.trimming.isSome then none else b.nextRequest .ctu

/-- R7: the clock a SET_CLOCK sets. -/
def Clock.set (d : Date) (m : Nat) : Clock :=
  { date := d, weekday := d.weekday, minute := m, reach := m, lastBoundary := none }

/-- R7: the checks of SET_CLOCK. -/
def Ctu.setCheck (t : Ctu) (d : Date) (m : Nat) : Option Answer :=
  firstFail
    [(!d.valid || decide (1439 < m), Answer.of .badRequest),
     (t.clock.isSome, Answer.because .refused .set)]

/-- R7, R8. -/
def Ctu.setClock (t : Ctu) (b : Book) : Ctu × Book :=
  match t.nextRequest b with
  | some (h, b') =>
    match h.request with
    | .setClock d m =>
      match t.setCheck d m with
      | some a => (t, b'.reply h.ctx a)
      | none =>
        ({ t with
            clock := some (Clock.set d m), second := 0, minutesDue := 0, setting := some (h.ctx, Clock.set d m) },
          b'.deliverAll [{ date := d, kind := .horizonOpen d.weekday m (Clock.set d m).slot }])
    | _ => (t, b)
  | none => (t, b)

/-- R8. -/
def Ctu.setComplete (t : Ctu) (b : Book) : Ctu × Book :=
  match t.setting with
  | some (ctx, c) =>
    if b.mail.eventLeft EventKind.isHorizonOpen then (t, b)
    else
      ({ t with setting := none },
        (b.post (c.notice .set)).reply ctx
          (Answer.ok (.clockSet c.date c.weekday c.minute c.slot)))
  | none => (t, b)

/-- R10: the `k` minutes of a forward trim, in rising order. -/
def trimForward (c : Clock) (b : Book) : Nat → Clock × Book
  | 0 => (c, b)
  | k + 1 => trimForward (c.reaching (c.minute + 1)) (b.deliver (eventsAt c.date c.reach (c.minute + 1))) k

/-- R9: the checks of TRIM_CLOCK, and the clock trimmed. -/
def Ctu.trimCheck (t : Ctu) (amount : Int) : Except Answer Clock :=
  if amount = 0 ∨ amount < -30 ∨ 30 < amount then .error (Answer.of .badRequest)
  else match t.clock with
    | none => .error (Answer.of .clockUnset)
    | some c =>
      if (c.minute : Int) + amount < 0 ∨ 1439 < (c.minute : Int) + amount then
        .error (Answer.because .refused .trim)
      else .ok c

/-- R11, R156: the SQU minute goes back with a backward trim of today's clock (log 44). -/
def Book.squMinuteBack (b : Book) (today : Date) (m : Nat) : Book :=
  if b.squ.horizon.any fun h => h.today == today then b.withSqu { b.squ with minute := b.squ.minute.map (min m) }
  else b

/-- R9, R10, R11. -/
def Ctu.trimClock (t : Ctu) (b : Book) : Ctu × Book :=
  match t.nextRequest b with
  | some (h, b') =>
    match h.request with
    | .trimClock amount =>
      match t.trimCheck amount with
      | .error a => (t, b'.reply h.ctx a)
      | .ok c =>
        if 0 < amount then
          let r := trimForward c b' amount.toNat
          ({ t with clock := some r.1, trimming := some (h.ctx, amount) }, r.2)
        else
          let c' := { c with minute := ((c.minute : Int) + amount).toNat }
          ({ t with clock := some c' },
            ((b'.squMinuteBack c'.date c'.minute).post (c'.notice (.trim amount))).reply h.ctx
              (Answer.ok (.trimmed c'.minute c'.slot)))
    | _ => (t, b)
  | none => (t, b)

/-- R10. -/
def Ctu.trimComplete (t : Ctu) (b : Book) : Ctu × Book :=
  match t.trimming, t.clock with
  | some (ctx, amount), some c =>
    if b.mail.eventLeft (fun _ => true) then (t, b)
    else
      ({ t with trimming := none },
        (b.post (c.notice (.trim amount))).reply ctx (Answer.ok (.trimmed c.minute c.slot)))
  | _, _ => (t, b)

/-- R13: the reply to READ_CLOCK. -/
def Ctu.reading (t : Ctu) : ReplyData :=
  match t.clock with
  | none => .clock .unset none none t.second none none none none
  | some c =>
    .clock .running (some (c.date, c.weekday)) (some c.minute) t.second (some c.reach) (some c.slot)
      (some (windowOfBoundary c.lastBoundary)) (some (c.date.after 13))

/-- R13. -/
def Ctu.readClock (t : Ctu) (b : Book) : Ctu × Book :=
  match t.nextRequest b with
  | some (h, b') =>
    match h.request with
    | .readClock => (t, b'.reply h.ctx (Answer.ok t.reading))
    | _ => (t, b)
  | none => (t, b)

/-- SECOND_COMPLETION (R2). -/
def execSecondCompletion (s : State) : Outcome := onCtu (fun t b => (t.oneSecond, b)) s

/-- MINUTE_COMPLETION (R2, R4, R12). -/
def execMinuteCompletion (s : State) : Outcome := onCtu Ctu.minuteCompletion s

/-- DAY_OPENED (R12). -/
def execDayOpened (s : State) : Outcome := onCtu Ctu.dayOpened s

/-- SET_CLOCK (R7, R8). -/
def execSetClock (s : State) : Outcome := onCtu Ctu.setClock s

/-- CLOCK_SET_COMPLETE (R8). -/
def execClockSetComplete (s : State) : Outcome := onCtu Ctu.setComplete s

/-- TRIM_CLOCK (R9, R10, R11). -/
def execTrimClock (s : State) : Outcome := onCtu Ctu.trimClock s

/-- TRIM_COMPLETE (R10). -/
def execTrimComplete (s : State) : Outcome := onCtu Ctu.trimComplete s

/-- READ_CLOCK (R13). -/
def execReadClock (s : State) : Outcome := onCtu Ctu.readClock s

end Sys2Proof.Machine
end

