-- ==== Sys2Proof/Machine/SeriesSteps.lean ====
section
/-! DEFINITION. Recurring series (04): instance claims, creation, cancelling, reading, and the materialisation of a
new day. -/

namespace Sys2Proof.Machine

/-! ## Instance claims -/

/-- R64: the fields an instance takes from its series. -/
def Series.fields (s : Series) (d : Date) : BookFields :=
  { room := s.room, date := d, start := s.start, count := s.count, attendees := s.attendees, organiser := s.organiser,
    label := s.label }

/-- R64: one instance claim; the id of the instance made. -/
def Book.instanceClaim (t : Ctu) (s : Series) (d : Date) (b : Book) : Attempt (Book × Nat) := do
  let rm ← b.tryBookable s.room s.attendees
  let buf := clipBuffer (s.start + s.count) (b.squ.bufferOf rm)
  let b ← b.tryConflict .live s.room d s.start s.count buf none
  refuseIf b [(b.tableFull, fullTable), (b.runsShort rm, fullRuns)]
  let r := { bookRecord (s.fields d) b.newId buf .live .series .confirmed with series := some s.id }
  let n := b.newSlot
  return (((b.addNew r).cover .live r).confirmed t n, r.id)

/-- R65, R66: the skip an instance claim's refusal gives. -/
def Skip.of (d : Date) (a : Answer) : Skip :=
  { date := d, status := a.status, detail := a.detail, clash := match a.data with
      | .clash c => some c
      | _ => none }

def Book.putSeries (b : Book) (s : Series) : Book := b.withBke { b.bke with series := b.bke.series.put s.id s }

/-- R64: the instance claim of the series with this id on one date, and the counts. -/
def Book.materialise (t : Ctu) (sid : Nat) (d : Date) (b : Book) : Book × Except Skip Nat :=
  match b.bke.series.find sid with
  | none => (b, .error (Skip.of d (Answer.of .notFound)))
  | some s =>
    match b.instanceClaim t s d with
    | .ok (x, id) => ((x.bumpRows b.bke.rows).putSeries { s with made := bump 65535 s.made }, .ok id)
    | .error (x, a) =>
      ((x.bumpRows b.bke.rows).putSeries { s with skipped := bump 65535 s.skipped }, .error (Skip.of d a))

/-! ## Creation -/

/-- R63 step 3. -/
def Book.seriesBad (b : Book) (f : SeriesFields) : Bool :=
  let first := (f.first.orElse fun _ => b.bke.horizon.map (·.today)).bind b.offset
  let last := f.last.bind b.offset
  decide (383 < f.room) || !spanInDay f.start f.count || f.mask.isEmpty || first.isNone ||
    f.last.any (fun d => !d.valid) || decide (500 < f.attendees) || labelBad f.label ||
    (match first, last with
      | some x, some y => decide (y < x)
      | _, _ => false)

/-- R62, R63: a new series record. -/
def Book.newSeries (b : Book) (f : SeriesFields) (first : Date) : Series :=
  { id := nextId b.bke.series.keys 127 b.bke.lastSeries b.bke.series.size, room := f.room, start := f.start,
    count := f.count, mask := f.mask, first := first, last := f.last, firstReached := true,
    lastReached := (f.last.bind b.offset).isSome, organiser := f.organiser, attendees := f.attendees,
    label := cleanLabel f.label, made := 0, skipped := 0 }

/-- R62, R65: the dates a creation claims on. -/
def Book.creationDates (t : Ctu) (b : Book) (s : Series) : List Date :=
  match b.bke.horizon with
  | none => []
  | some h =>
    let lo := (h.offset s.first).getD 0
    let hi := (s.last.bind h.offset).getD 13
    (h.days.zipIdx.filter fun p =>
      decide (lo ≤ p.2) && decide (p.2 ≤ hi) && s.mask.contains p.1.2 &&
        !(p.1.1 == h.today && t.tooLate s.start)).map (·.1.1)

/-- R65: the instance claims of a creation, with the ids made and the skips. -/
def Book.materialiseAll (t : Ctu) (sid : Nat) (b : Book) (l : List Date) : Book × List Nat × List Skip :=
  l.foldl
    (fun x d =>
      let r := x.1.materialise t sid d
      match r.2 with
      | .ok id => (r.1, x.2.1 ++ [id], x.2.2)
      | .error k => (r.1, x.2.1, x.2.2 ++ [k]))
    (b, [], [])

/-- R63, R65. -/
def Book.seriesCreate (t : Ctu) (f : SeriesFields) (b : Book) : Attempt (Book × Answer) := do
  b.tryWriteLive
  b.tryHorizon
  refuseIf b [(b.seriesBad f, Answer.of .badRequest)]
  let _ ← b.tryBookable f.room f.attendees
  refuseIf b [(decide (Config.maxSeries ≤ b.bke.series.size), Answer.because .full .series)]
  let first := (f.first.orElse fun _ => b.bke.horizon.map (·.today)).getD { year := 0, month := 1, day := 1 }
  let s := b.newSeries f first
  let b := (b.withBke { b.bke with lastSeries := s.id }).putSeries s
  let x := b.materialiseAll t s.id (b.creationDates t s)
  return (x.1,
      Answer.ok
        (.seriesMade s.id s.room (b.code s.room) s.lastReached x.2.1.length x.2.2.length (x.2.1.take 14)
          (x.2.2.take 8) (decide (8 < x.2.2.length))))

/-! ## Cancelling and reading -/

/-- R61: the live instance records of a series, in rising booking id. -/
def Book.instances (b : Book) (sid : Nat) : List (Nat × Record) :=
  sortBy (·.2.id) (b.sound.filter fun p => p.2.edition == .live && p.2.series == some sid)

/-- R168, R169: the demand read of every instance of a series; DAMAGED/RECORD when this read finds one of them lost
(log 45). -/
def Book.tryInstances (b : Book) (sid : Nat) : Attempt Book := b.tryRecords ((b.instances sid).map (·.1))

/-- R69: what a SERIES_CANCEL does to one instance. -/
def Book.cancelInstance (b : Book) (n : Nat) (r : Record) : Book :=
  if r.state = .confirmed then (b.unmark r.id).cancelMeeting n { r with series := none, cancelMark := false }
  else b.putRecord n { r with series := none }

/-- R69: the series record goes. -/
def Book.dropSeries (b : Book) (sid : Nat) : Book := b.withBke { b.bke with series := b.bke.series.drop sid }

/-- R69. -/
def Book.seriesCancel (sid : Nat) (b : Book) : Attempt (Book × Answer) := do
  b.tryWriteLive
  b.tryHorizon
  refuseIf b
    [(sid == 0 || decide (127 < sid), Answer.of .badRequest), (!b.bke.series.has sid, Answer.of .notFound)]
  let b ← b.tryInstances sid
  let l := b.instances sid
  let gone := l.filter fun p => p.2.state == .confirmed
  let running := l.filter fun p => p.2.state.started
  let b := (l.foldl (fun b p => b.cancelInstance p.1 p.2) b).dropSeries sid
  return (b,
      Answer.ok
        (.seriesCancelled sid gone.length running.length (l.length - gone.length - running.length)
          ((gone.map (·.2.id)).take 14)))

/-- R71: the instance list, in date order and then booking id order. -/
def Book.instanceList (b : Book) (sid : Nat) : List (Nat × Date × Option Nat × Nat × Nat × BState) :=
  let l := (b.instances sid).map fun p => p.2
  (sortBy (fun r : Record => (b.offset r.date).getD 14) l).map fun r =>
    (r.id, r.date, b.offset r.date, r.start, r.count, r.state)

/-- R71: READ_SERIES. -/
def Book.readSeriesAnswer (sid : Nat) (b : Book) : Attempt (Book × Answer) := do
  b.tryHorizon
  refuseIf b [(sid == 0 || decide (127 < sid), Answer.of .badRequest)]
  match b.bke.series.find sid with
  | none => .error (b, Answer.of .notFound)
  | some s =>
    let b ← b.tryInstances sid
    return (b, Answer.ok (.series s (b.code s.room) ((b.instanceList sid).take 14)))

/-! ## Midnight -/

/-- R66: one series visited at day open. -/
def Book.visitSeries (t : Ctu) (day : Date) (w : Weekday) (b : Book) (sid : Nat) : Book :=
  match b.bke.series.find sid with
  | none => b
  | some s =>
    if s.lastReached then b
    else
      let b := if s.last = some day then b.putSeries { s with lastReached := true } else b
      if s.mask.contains w then
        let r := b.materialise t sid day
        match r.2 with
        | .ok _ => r.1
        | .error k =>
          r.1.post
            (.seriesSkip sid 13 s.room (r.1.code s.room) s.organiser k
              (((r.1.bke.series.find sid).map (·.skipped)).getD 0))
      else b

/-- R66. -/
def Book.materialiseDay (t : Ctu) (b : Book) (day : Date) (w : Weekday) : Book :=
  b.bke.series.keys.foldl (Book.visitSeries t day w) b

/-- R67: a record loses its series id. -/
def Book.clearSeries (b : Book) (n : Nat) : Book :=
  match b.soundAt n with
  | some r => b.putRecord n { r with series := none }
  | none => b

/-- R67: the series whose last date is retired leave the table, and no record carries their ids. Each record is read on
the demand path before it is written, and one that this read finds lost is passed over (log 46). -/
def Book.retireSeries (b : Book) (d : Date) : Book :=
  let gone := (b.bke.series.values.filter fun s => s.last == some d && s.lastReached).map (·.id)
  let b := gone.foldl Book.dropSeries b
  (b.sound.filter fun p => p.2.series.any fun s => gone.contains s).foldl
    (fun b p => (b.readSlot .demand p.1).clearSeries p.1) b

/-! ## The steps -/

/-- SERIES_CREATE (R63, R64, R65). -/
def execSeriesCreate (s : State) : Outcome :=
  onBook (fun t b => b.serve .bke fun q c b => match q with
    | .seriesCreate f =>
      let r := (Book.seriesCreate t f b).ends
      some (r.1.reply c r.2)
    | _ => none) s

/-- SERIES_CANCEL (R69). -/
def execSeriesCancel (s : State) : Outcome :=
  onBook (fun _ b => b.serve .bke fun q c b => match q with
    | .seriesCancel id => some (b.answerClaim c (Book.seriesCancel id))
    | _ => none) s

/-- READ_SERIES (R71). -/
def execReadSeries (s : State) : Outcome :=
  onBook (fun _ b => b.serve .bke fun q c b => match q with
    | .readSeries id => some (b.answer c fun b => (Book.readSeriesAnswer id b).ends)
    | _ => none) s

end Sys2Proof.Machine
end

