-- ==== Sys2Proof/Machine/MeetingDay.lean ====
section
/-! DEFINITION. What campus time does to the book (02, 03): horizon open, day retire with day open, slot boundaries,
hold lapses and no-shows. -/

namespace Sys2Proof.Machine

/-- The event at the head of the BKE's events. -/
def Book.bkeHead (b : Book) : Option TimeEvent := b.mail.bkeEvents.head?

/-- Take the `n` events at the head of the BKE's events. -/
def Book.popBke (b : Book) (n : Nat) : Book := b.withMail { b.mail with bkeEvents := b.mail.bkeEvents.drop n }

/-- R18: new rows of one room for the dates given. -/
def Book.createRows (b : Book) (room : Nat) (l : List Date) : Book := l.foldl (fun b d => b.createRow room d) b

/-- R18: the horizon copy and 14 rows for every room. -/
def Book.openHorizon (b : Book) (h : Horizon) : Book :=
  let b := b.withBke { b.bke with horizon := some h }
  b.bke.rooms.keys.foldl (fun b x => b.createRows x h.dates) b

/-- R18. -/
def Book.bkeHorizonOpen (b : Book) : Book :=
  match b.bkeHead with
  | none => b
  | some e => match e.kind with
    | .horizonOpen w _ _ => (b.popBke 1).openHorizon { today := e.date, weekday := w }
    | _ => b

/-! ## Day retire and day open -/

/-- R36, R58, R176: the record with id `i` leaves the table and every list, the hold list also where the id can no longer be
read (log 86). -/
def Book.retireSlot (b : Book) (n i : Nat) : Book :=
  let b := (b.dropSlot n).dropHold i
  b.withDraft { b.bke.draft.unmark i with records := b.bke.draft.records.filter (· != i) }

/-- R58: every record of the date, by its index entry. Each entry is read on the demand path first (R168); a record whose
entry this read finds uncorrectable becomes DAMAGED with room unknown and stays (log 59). -/
def Book.retireRecords (b : Book) (d : Date) : Book :=
  let b := b.bke.records.keys.foldl Book.readIndex b
  (b.bke.records.entries.filter fun p => p.2.place.any fun q => q.2 == d).foldl
    (fun b p => b.retireSlot p.1 p.2.own) b

/-- R30: one row of the retired date is cleared. -/
def Book.retireRow (b : Book) (r : Row) : Book :=
  let b :=
    if r.state = .good then b
    else b.postRowState { r with state := .good, version := 0 } r.state .dayRetired none
  (b.withBke { b.bke with rows := b.bke.rows.drop (rowKey r.room r.date) }).fresh (.liveRow r.room r.date)

/-- R175: the REBUILD_ROW requests that pass are answered. -/
def Book.answerWaiters (b : Book) (p : Waiter → Bool) (a : Answer) : Book :=
  let b' := b.withBke { b.bke with waiters := b.bke.waiters.filter fun w => !p w }
  (b.bke.waiters.filter p).foldl (fun b w => b.reply w.ctx a) b'

/-- R87: a draft row is freed. -/
def Book.dropDraftRow (b : Book) (r : DraftRow) : Book :=
  (b.withDraft { b.bke.draft with rows := b.bke.draft.rows.drop (rowKey r.room r.date) }).fresh
    (.draftRow r.room r.date)

/-- R30, R58, R67, R87, R175: day retire. The ROW_STATE notices of its rows go by rising room index, and before the TOO_LATE
answers of the waiting REBUILD_ROW requests (log 84). -/
def Book.retireDay (b : Book) (d : Date) : Book :=
  let b := (b.retireRecords d).retireSeries d
  let b := (b.bke.rows.values.filter fun r => r.date == d).foldl Book.retireRow b
  let b := (b.bke.draft.rows.values.filter fun r => r.date == d).foldl Book.dropDraftRow b
  b.answerWaiters (fun w => w.date == d) (Answer.of .tooLate)

/-- R31, R66: day open, with the date opened as day offset 13 and its weekday. -/
def Book.openDay (t : Ctu) (b : Book) (today opened : Date) (w : Weekday) : Book :=
  let b := b.withBke { b.bke with horizon := some (Horizon.dayOpened today w) }
  let b := b.bke.rooms.keys.foldl (fun b x => b.createRow x opened) b
  b.materialiseDay t opened w

/-- R30, R31: day retire and day open are one claim. -/
def Book.bkeDayRetire (t : Ctu) (b : Book) : Book :=
  match b.mail.bkeEvents with
  | e :: o :: _ =>
    match e.kind, o.kind with
    | .dayRetire, .dayOpen d w => ((b.popBke 2).retireDay e.date).openDay t o.date d w
    | _, _ => b
  | _ => b

/-! ## Slot boundaries -/

/-- R47 to R51, R57: each live record of the date that passes, in slot order, read on the demand path; one found
DAMAGED is passed over, its boundary spent. -/
def Book.forLive (b : Book) (d : Date) (p : Record → Bool) (f : Book → Nat → Record → Book) : Book :=
  (b.sound.filter fun q => q.2.edition == .live && q.2.date == d && p q.2).foldl
    (fun b q =>
      let b := b.readSlot .demand q.1
      match b.foundAt q.1 with
      | .live n r => f b n r
      | _ => b)
    b

/-- R27, R50: the record's span ends at boundary `x`. -/
def Record.endsAt (r : Record) (x : Nat) : Bool :=
  r.start + r.count == x && (r.state.started || (r.kind == .closure && r.state == .confirmed))

/-- R50: the end of a record. -/
def Book.endAtBoundary (b : Book) (n : Nat) (r : Record) : Book :=
  if r.state = .awaitingCheckin then b.noShowRelease n r .ended else b.endRecord n r

/-- R27, R38, R47, R50, R51: slot boundary `x` of a date. -/
def Book.takeBoundary (b : Book) (d : Date) (x : Nat) : Book :=
  let b := b.forLive d (fun r => r.kind == .meeting && r.state == .confirmed && r.start == x)
    fun b n _ => b.startMeeting n (boundaryMinute x)
  let b := b.forLive d (fun r => r.endsAt x) Book.endAtBoundary
  let b := b.forLive d (fun r => r.bufState == .reserved && r.start + r.count + r.bufSlots == x) Book.releaseBuf
  b.forLive d (fun r => r.state == .held && r.start + r.count == x) fun b n r => b.lapse n r .ended

/-- R47. -/
def Book.bkeSlotBoundary (b : Book) : Book :=
  match b.bkeHead with
  | none => b
  | some e => match e.kind with
    | .slotBoundary x _ _ => (b.popBke 1).claim fun b => b.takeBoundary e.date x
    | _ => b

/-! ## Minute timers -/

/-- The minute event at the head of the BKE's events. -/
def Book.bkeMinuteEvent (b : Book) : Option (Date × Nat) :=
  b.bkeHead.bind fun e => match e.kind with
    | .minute m => some (e.date, m)
    | _ => none

/-- R36, R38: the first hold whose expiry falls due at minute `m`. -/
def Book.dueHold (b : Book) (m : Nat) : Option HoldEntry :=
  b.bke.holds.find? fun h => h.spent || decide (h.expiry ≤ m)

/-- R49: the first meeting whose grace expiry falls due at minute `m` of a date: R10 has the expiries go by due minute, and
those of one minute are taken in record slot order (log 64). -/
def Book.dueGrace (b : Book) (d : Date) (m : Nat) : Option Nat :=
  ((sortBy (fun p : Nat × Record => p.2.graceExpiry.getD 0)
      (b.sound.filter fun p =>
        p.2.edition == .live && p.2.date == d && p.2.state == .awaitingCheckin &&
          p.2.graceExpiry.any (fun g => decide (g ≤ m)))).head?).map (·.1)

/-- The minute event is taken once no expiry is due under it (log 8). -/
def Book.settleMinute (b : Book) (d : Date) (m : Nat) : Book :=
  if (b.dueHold m).isNone && (b.dueGrace d m).isNone then b.popBke 1 else b

/-- R38, R57: the expiry of a hold entry is taken. -/
def Book.takeHoldExpiry (b : Book) (h : HoldEntry) : Book :=
  let x := b.fetch h.id
  match x.2 with
  | .live n r => if r.state = .held then x.1.lapse n r .expired else x.1.dropHold h.id
  | _ => x.1.dropHold h.id

/-- R38. -/
def Book.holdLapse (b : Book) : Book :=
  match b.bkeMinuteEvent with
  | none => b
  | some (d, m) =>
    let b' := match b.dueHold m with
      | some h => b.claim fun b => b.takeHoldExpiry h
      | none => b
    b'.settleMinute d m

/-- R49, R57: the grace expiry of the meeting in slot `n` is taken. -/
def Book.takeGraceExpiry (b : Book) (n : Nat) : Book :=
  let b := b.readSlot .demand n
  match b.foundAt n with
  | .live n r => if r.state = .awaitingCheckin then b.noShowRelease n r .grace else b
  | _ => b

/-- R49. -/
def Book.noShow (b : Book) : Book :=
  match b.bkeMinuteEvent with
  | none => b
  | some (d, m) =>
    let b' := match b.dueGrace d m with
      | some n => b.claim fun b => b.takeGraceExpiry n
      | none => b
    b'.settleMinute d m

/-- BKE_HORIZON_OPEN (R18). -/
def execBkeHorizonOpen (s : State) : Outcome := onBook (fun _ b => b.bkeHorizonOpen) s

/-- BKE_DAY_RETIRE (R30, R31, R58, R66, R67). -/
def execBkeDayRetire (s : State) : Outcome := onBook Book.bkeDayRetire s

/-- BKE_SLOT_BOUNDARY (R47, R50, R51). -/
def execBkeSlotBoundary (s : State) : Outcome := onBook (fun _ b => b.bkeSlotBoundary) s

/-- HOLD_LAPSE (R38). -/
def execHoldLapse (s : State) : Outcome := onBook (fun _ b => b.holdLapse) s

/-- NO_SHOW (R49). -/
def execNoShow (s : State) : Outcome := onBook (fun _ b => b.noShow) s

end Sys2Proof.Machine
end

