-- ==== Sys2Proof/Machine/Drafts.lean ====
section
/-! DEFINITION. The draft edition (05): draft writes, PUBLISH, DISCARD, the edition settings; and BOOK, CLOSE_CELLS,
CANCEL and MOVE, which the write edition sends to the live book or to the draft. -/

namespace Sys2Proof.Machine

/-! ## Draft rows -/

/-- R74: the condition DAMAGED refuses every draft write. -/
def Book.trySoundDraft (b : Book) : Attempt Unit := refuseIf b [(b.bke.draft.damaged, draftDamaged)]

/-- R75: the room-days that still need a draft row. -/
def Book.missingDraft (b : Book) (l : List (Nat × Date)) : List (Nat × Date) :=
  (l.filter fun p => (b.draftRow p.1 p.2).isNone).eraseDups

/-- R75: why a live row cannot be copied: the first row, in the order of the room-days, that is not GOOD decides between
BUSY/REBUILDING and DAMAGED/QUARANTINED (log 55). The answer names the room as R25 has it, where R75 lists no field
(log 82). -/
def Book.copyRefusal (b : Book) (l : List (Nat × Date)) : Option Answer :=
  let rows := l.filterMap fun p => b.row p.1 p.2
  match rows.find? fun r => r.state != .good with
  | none => none
  | some r =>
    if r.state = .rebuilding then some (b.refuseRoom .busy .rebuilding r.room)
    else some (b.refuseRoom .damaged .quarantined r.room)

/-- R75: copy one live row into a draft row. Which of the 256 places the copy takes is left open: the model takes the
lowest free one (log 95). -/
def Book.copyRow (b : Book) (p : Nat × Date) : Book :=
  match b.row p.1 p.2 with
  | none => b
  | some r =>
    let place := firstFree (b.bke.draft.rows.values.map (·.place)) 0 Config.maxDraftRows
    (b.putDraftRow
      { room := p.1, date := p.2, base := r.version, place := place, cells := r.cells, damaged := false,
        freed := [] }).fresh
      (.draftRow p.1 p.2)

/-- R75, R76: every draft row the room-days need, copied before any cell is written. -/
def Book.tryDraftRows (b : Book) (l : List (Nat × Date)) : Attempt Book := do
  let b := l.foldl (fun b p => b.readDraft .demand p.1 p.2) b
  b.trySoundDraft
  let need := b.missingDraft l
  refuseIf b [(decide (Config.maxDraftRows < b.bke.draft.rows.size + need.length), fullDraft)]
  let b := need.foldl (fun b p => b.readLive .demand p.1 p.2) b
  refuseWith b (b.copyRefusal need)
  return need.foldl Book.copyRow b

/-- R74, R77: a new draft record. -/
def Book.addDraft (b : Book) (r : Record) : Book :=
  let b := b.addNew r
  (b.withDraft { b.bke.draft with records := b.bke.draft.records ++ [r.id] }).cover .draft r

/-- R77: the draft record list is full. -/
def Book.draftListFull (b : Book) : Bool := decide (Config.maxDraftRecords ≤ b.bke.draft.records.length)

/-! ## Draft writes -/

/-- R77: BOOK. -/
def Book.bookDraft (t : Ctu) (f : BookFields) (b : Book) : Attempt (Book × Answer) := do
  b.trySoundDraft
  refuseWith b (b.spanCheck t f.date f.start f.count (bookBad f))
  let rm ← b.tryBookable f.room f.attendees
  let buf := clipBuffer (f.start + f.count) (b.squ.bufferOf rm)
  let b ← b.tryConflict .draft f.room f.date f.start f.count buf none
  refuseIf b [(b.tableFull, fullTable), (b.draftListFull, fullDraft)]
  let b ← b.tryDraftRows (b.familyDays f.room f.date)
  let r := bookRecord f b.newId buf .draft .host .confirmed
  let b := b.addDraft r
  return (b, Answer.ok (.booked (b.placed r) .confirmed none))

/-- R77: CLOSE_CELLS. FULL/TABLE is checked where R77 has it for BOOK, before FULL/DRAFT (log 56). -/
def Book.closeDraft (t : Ctu) (f : CloseFields) (b : Book) : Attempt (Book × Answer) := do
  b.trySoundDraft
  refuseWith b (b.closeSpan t f)
  let _ ← b.tryRoom f.room
  let b ← b.tryConflict .draft f.room f.date f.start f.count 0 none
  refuseIf b [(b.tableFull, fullTable), (b.draftListFull, fullDraft)]
  let b ← b.tryDraftRows (b.familyDays f.room f.date)
  let r := closeRecord f b.newId .draft
  let b := b.addDraft r
  return (b, Answer.ok (.closed (b.placed r)))

/-- R78: a draft record leaves the table and the draft record list. -/
def Book.removeDraft (b : Book) (n : Nat) (r : Record) : Book :=
  let b := (b.uncover .draft r).dropSlot n
  b.withDraft { b.bke.draft with records := b.bke.draft.records.filter (· != r.id) }

/-- R81: the draft rows of a room-day list in which the cells of a marked record were freed. -/
def Book.noteFreed (b : Book) (id : Nat) (l : List (Nat × Date)) : Book :=
  b.withDraft
    { b.bke.draft with
      rows := l.foldl
        (fun t p => t.modify (rowKey p.1 p.2) fun x => { x with freed := x.freed ++ [id] }) b.bke.draft.rows }

/-- R78: a live record is marked for cancel and its cells are freed in the draft rows. -/
def Book.markRecord (b : Book) (n : Nat) (r : Record) : Book :=
  let b := b.putRecord n { r with cancelMark := true }
  let b := (b.withDraft { b.bke.draft with marked := b.bke.draft.marked ++ [r.id] }).uncover .draft r
  b.noteFreed r.id (b.familyDays r.room r.date)

def Book.isMarked (b : Book) (id : Nat) : Bool := b.bke.draft.marked.contains id

/-- R78 and R79: the refusals by state of a live record. -/
def draftStateRefusals (r : Record) : List (Bool × Answer) :=
  [(r.state == .held, Answer.because .refused .state),
   (r.kind == .meeting && r.state.started, Answer.because .refused .started), terminalRefusal r]

/-- R78, R79, R80: CLOCK_UNSET, NOT_FOUND, DAMAGED/DRAFT, and the record found. Where this read itself loses a record of
the draft the answer is DAMAGED/DRAFT of R86, not DAMAGED/RECORD of R169 (log 73). -/
def Book.tryForDraft (b : Book) (id : Nat) : Attempt (Book × Found) := do
  b.tryHorizon
  let x := b.fetch id
  refuseIf x.1 [(x.2 == .nothing, Answer.of .notFound)]
  x.1.trySoundDraft
  return x

/-- R78: CANCEL. A draft record removed is answered with the body of R44, its id before the state (log 88). -/
def Book.cancelDraft (id : Nat) (b : Book) : Attempt (Book × Answer) := do
  let (b, f) ← b.tryForDraft id
  match f with
  | .draft n r =>
    let b ← b.tryDraftRows (b.familyDays r.room r.date)
    return (b.removeDraft n r, Answer.ok (.cancelled id none))
  | .live n r =>
    refuseIf b (draftStateRefusals r)
    if b.isMarked id then
      return (b, Answer.because .ok .unchanged)
    else
      let b ← b.tryDraftRows (b.familyDays r.room r.date)
      return (b.markRecord n r, { status := .ok, detail := .marked, data := .marked id })
  | .damaged _ _ _ => .error (b, Answer.because .damaged .record)
  | .nothing => .error (b, Answer.of .notFound)

/-- R79: the draft record that stands for a live record at its new place. -/
def Record.draftAt (r : Record) (f : MoveFields) (id buf : Nat) : Record :=
  bookRecord
    { room := f.room, date := f.date, start := f.start, count := f.count, attendees := r.attendees,
      organiser := r.organiser, label := r.label }
    id buf .draft .host .confirmed

/-- Steps 5 to 7 of R45 in the draft view (R79, R80), and the buffer that fits. -/
def Book.tryDraftPlace (t : Ctu) (f : MoveFields) (r : Record) (b : Book) : Attempt (Book × Nat) := do
  refuseWith b (b.spanCheck t f.date f.start f.count (decide (383 < f.room)))
  let rm ← b.tryBookable f.room r.attendees
  let buf := clipBuffer (f.start + f.count) (b.squ.bufferOf rm)
  let b ← b.tryConflict .draft f.room f.date f.start f.count buf (some r)
  return (b, buf)

/-- R79: MOVE of a live record. -/
def Book.moveToDraft (t : Ctu) (f : MoveFields) (n : Nat) (r : Record) (b : Book) : Attempt (Book × Answer) := do
  refuseIf b
    (closureRefusal r :: draftStateRefusals r ++ [(b.isMarked r.id, Answer.because .refused .marked)])
  let (b, buf) ← Book.tryDraftPlace t f r b
  refuseIf b [(b.tableFull, fullTable), (b.draftListFull, fullDraft)]
  let b ← b.tryDraftRows (b.familyDays r.room r.date ++ b.familyDays f.room f.date)
  let new := r.draftAt f b.newId buf
  let b := (b.markRecord n r).addDraft new
  return (b, Answer.ok (.draftMoved r.id (b.placed new)))

/-- R80: MOVE of a draft record. -/
def Book.moveInDraft (t : Ctu) (f : MoveFields) (n : Nat) (r : Record) (b : Book) : Attempt (Book × Answer) := do
  refuseIf b [closureRefusal r]
  let (b, buf) ← Book.tryDraftPlace t f r b
  let b ← b.tryDraftRows (b.familyDays r.room r.date ++ b.familyDays f.room f.date)
  let r' := r.movedTo f buf
  let b := ((b.uncover .draft r).putIndexed n r').cover .draft r'
  return (b, Answer.ok (.placed (b.placed r') none))

/-- R79, R80: MOVE. -/
def Book.moveDraft (t : Ctu) (f : MoveFields) (b : Book) : Attempt (Book × Answer) := do
  let (b, x) ← b.tryForDraft f.id
  match x with
  | .draft n r => Book.moveInDraft t f n r b
  | .live n r => Book.moveToDraft t f n r b
  | .damaged _ _ _ => .error (b, Answer.because .damaged .record)
  | .nothing => .error (b, Answer.of .notFound)

/-! ## PUBLISH -/

/-- R82: the draft rows in room index order, then date order. -/
def Book.draftDays (b : Book) : List DraftRow :=
  sortBy (fun r => r.room * 16 + (b.offset r.date).getD 15) b.bke.draft.rows.values

/-- R82, R168: the demand reads of PUBLISH: the draft rows and their live rows, the draft and the marked records. -/
def Book.readForPublish (b : Book) : Book :=
  let b := b.draftDays.foldl (fun b r => (b.readDraft .demand r.room r.date).readLive .demand r.room r.date) b
  (b.bke.draft.records ++ b.bke.draft.marked).foldl (fun b id => (b.fetch id).1) b

/-- R81, R82: the marked record that is no longer CONFIRMED and whose cells were freed in this draft row. Of several the
row carries the one in the lowest record slot, since R82 speaks of one (log 65). -/
def Book.staleMark (b : Book) (r : DraftRow) : Option Nat :=
  (b.sound.find? fun p =>
    b.isMarked p.2.id && p.2.state != .confirmed && r.freed.contains p.2.id).map (·.2.id)

/-- R81, R82: the row as a stale room-day. -/
def Book.staleDay (b : Book) (r : DraftRow) : Option StaleDay :=
  let version := ((b.row r.room r.date).map (·.version)).getD r.base
  let mark := b.staleMark r
  if version ≠ r.base ∨ mark.isSome then
    some
      { room := r.room, code := b.code r.room, date := r.date, base := r.base, version := version,
        marked := if version = r.base then mark else none }
  else none

/-- The draft records that stand, in rising id. -/
def Book.draftRecords (b : Book) : List (Nat × Record) :=
  sortBy (·.2.id) (b.sound.filter fun p => p.2.edition == .draft)

/-- R83: a draft record is lapsed. -/
def Book.lapsedDraft (t : Ctu) (b : Book) (r : Record) : Bool := b.startPast t r.date r.start

/-- R83: the number of runs the kept draft meetings need: one for each room with a template in the working directory. -/
def Book.runCount (t : Ctu) (b : Book) : Nat :=
  (b.draftRecords.filter fun p =>
    !b.lapsedDraft t p.2 && p.2.kind == .meeting &&
      (b.room p.2.room).any (fun rm => rm.template.isSome)).length

/-- R84 step 2: a draft row's cells become its live row's. -/
def Book.replaceRow (b : Book) (r : DraftRow) : Book :=
  match b.row r.room r.date with
  | some x => (b.putRow { x with cells := r.cells, version := x.version + 1 }).fresh (.liveRow r.room r.date)
  | none => b

/-- R84 step 3: a kept draft record becomes live. -/
def Book.makeLive (b : Book) (n : Nat) (r : Record) : Book :=
  let b := b.putRecord n { r with edition := .live }
  (if r.kind = .meeting then b.makeRun n none else b).news .confirmed r

/-- R84 step 4: a marked record becomes CANCELLED; its cells are already free. -/
def Book.applyMark (b : Book) (n : Nat) (r : Record) : Book :=
  let r' := { r with state := .cancelled, bufState := r.bufState.freed, run := none, cancelMark := false }
  (((b.abortRun r).putRecord n r').news .cancelled r').tellCsc r.id .cancelled

/-- R84 step 5, R85: the draft is emptied. -/
def Book.emptyDraft (b : Book) : Book :=
  (b.bke.draft.rows.values.foldl Book.dropDraftRow b).withDraft Draft.empty

/-- R84: PUBLISH applied, with its reply. -/
def Book.applyDraft (t : Ctu) (b : Book) : Book × Answer :=
  let lapsed := b.draftRecords.filter fun p => b.lapsedDraft t p.2
  let b := lapsed.foldl (fun b p => b.removeDraft p.1 p.2) b
  let rows := b.draftDays
  let b := rows.foldl Book.replaceRow b
  let kept := b.draftRecords
  let free := b.squ.runs.size
  let b := kept.foldl (fun b p => b.makeLive p.1 p.2) b
  let made := b.squ.runs.size - free
  let marked := sortBy (·.2.id) (b.sound.filter fun p => b.isMarked p.2.id)
  let b := marked.foldl (fun b p => b.applyMark p.1 p.2) b
  let b := b.emptyDraft.tellPpu (.published ((rows.filter fun r => b.isToday r.date).map (·.room)))
  (b,
    Answer.ok
      (.published rows.length kept.length made marked.length lapsed.length ((lapsed.map (·.2.id)).take 8)))

/-- R74: the draft is empty. -/
def Draft.isEmpty (d : Draft) : Bool := d.rows.entries.isEmpty && d.records.isEmpty && d.marked.isEmpty

/-- R82: PUBLISH. A draft that its own reads make DAMAGED refuses it as R86 says (log 73). -/
def Book.publish (t : Ctu) (b : Book) : Attempt (Book × Answer) := do
  b.tryHorizon
  b.trySoundDraft
  refuseIf b [(b.bke.draft.isEmpty, Answer.because .ok .empty)]
  let b := b.readForPublish
  b.trySoundDraft
  match b.draftDays.find? fun r => (b.row r.room r.date).any fun x => x.state == .rebuilding with
  | some r => .error (b, { status := .busy, detail := .rebuilding, data := .roomDay r.room (b.code r.room) r.date })
  | none =>
    let stale := b.draftDays.filterMap b.staleDay
    let free := Config.maxRuns - b.squ.runs.size
    refuseIf b
      [(!stale.isEmpty, { status := .stale, detail := .none, data := .stale stale.length (stale.take 8) }),
       (decide (free < b.runCount t), { status := .full, detail := .runs, data := .runsNeeded (b.runCount t) free })]
    return b.applyDraft t

/-- R85: a listed draft record leaves the table, also one that is damaged and whose id was lost (log 58). -/
def Book.dropListed (b : Book) (id : Nat) : Book :=
  match b.slotOf id with
  | some n => b.dropSlot n
  | none => b

/-- R85, R167: a marked record loses its mark, written whole. -/
def Book.clearMark (b : Book) (n : Nat) : Book :=
  match b.soundAt n with
  | some r => b.putRecord n { r with cancelMark := false }
  | none => b

/-- R85: the record of a slot once the draft lists are empty: a DAMAGED one is listed no more. -/
def RecSlot.unlisted : RecSlot → RecSlot
  | .sound r => .sound r
  | .damaged d => .damaged { d with listed := none }

/-- R85: no DAMAGED record is known by the draft index any more. -/
def Book.unlist (b : Book) : Book :=
  b.withBke { b.bke with records := b.bke.records.mapValues fun _ x => x.unlisted }

/-- R85, R168: DISCARD, with its reply. Each marked record is read on the demand path before its mark is cleared, and one
that this read finds lost is passed over (log 46). -/
def Book.discardDraft (b : Book) : Book × Answer :=
  let d := b.bke.draft
  let b := d.records.foldl Book.dropListed b
  let b := (b.sound.filter fun p => p.2.cancelMark).foldl
    (fun b p => (b.readSlot .demand p.1).clearMark p.1) b
  (b.emptyDraft.unlist, Answer.ok (.discarded d.rows.size d.records.length d.marked.length))

/-! ## Edition settings -/

def editionOf : EditionField → Option Edition
  | .live => some .live
  | .draft => some .draft
  | .other => none

/-- R72: SET_EDITIONS. -/
def Book.setEditions (b : Book) (r w : EditionField) : Book × Answer :=
  match editionOf r, editionOf w with
  | some x, some y =>
    (b.withBke { b.bke with readEdition := x, writeEdition := y }, Answer.ok (.editions x y))
  | _, _ => (b, Answer.of .badRequest)

/-- R72: READ_EDITIONS. -/
def Book.editionsReply (b : Book) : Answer :=
  let d := b.bke.draft
  Answer.ok
    (.draftState b.bke.readEdition b.bke.writeEdition d.damaged d.rows.size d.records.length d.marked.length)

/-! ## The requests the write edition sends one way or the other (R73) -/

def Book.bookRequest (t : Ctu) (f : BookFields) (b : Book) : Attempt (Book × Answer) :=
  if b.bke.writeEdition = .draft then Book.bookDraft t f b else Book.bookLive t f b

def Book.closeRequest (t : Ctu) (f : CloseFields) (b : Book) : Attempt (Book × Answer) :=
  if b.bke.writeEdition = .draft then Book.closeDraft t f b else Book.closeLive t f b

def Book.cancelRequest (id : Nat) (b : Book) : Attempt (Book × Answer) :=
  if b.bke.writeEdition = .draft then Book.cancelDraft id b else Book.cancelLive id b

def Book.moveRequest (t : Ctu) (f : MoveFields) (b : Book) : Attempt (Book × Answer) :=
  if b.bke.writeEdition = .draft then Book.moveDraft t f b else Book.moveLive t f b

/-- BOOK (R40, R77). -/
def execBook (s : State) : Outcome :=
  onBook (fun t b => b.serve .bke fun q c b => match q with
    | .book f => some (b.answerClaim c (Book.bookRequest t f))
    | _ => none) s

/-- CLOSE_CELLS (R26, R77). -/
def execCloseCells (s : State) : Outcome :=
  onBook (fun t b => b.serve .bke fun q c b => match q with
    | .closeCells f => some (b.answerClaim c (Book.closeRequest t f))
    | _ => none) s

/-- CANCEL (R44, R78). -/
def execCancel (s : State) : Outcome :=
  onBook (fun _ b => b.serve .bke fun q c b => match q with
    | .cancel id => some (b.answerClaim c (Book.cancelRequest id))
    | _ => none) s

/-- MOVE (R45, R46, R79, R80). -/
def execMove (s : State) : Outcome :=
  onBook (fun t b => b.serve .bke fun q c b => match q with
    | .move f => some (b.answerClaim c (Book.moveRequest t f))
    | _ => none) s

/-- SET_EDITIONS (R72). -/
def execSetEditions (s : State) : Outcome :=
  onBook (fun _ b => b.serve .bke fun q c b => match q with
    | .setEditions r w => some (b.answer c fun b => b.setEditions r w)
    | _ => none) s

/-- READ_EDITIONS (R72). -/
def execReadEditions (s : State) : Outcome :=
  onBook (fun _ b => b.serve .bke fun q c b => match q with
    | .readEditions => some (b.reply c b.editionsReply)
    | _ => none) s

/-- PUBLISH (R82, R83, R84). -/
def execPublish (s : State) : Outcome :=
  onBook (fun t b => b.serve .bke fun q c b => match q with
    | .publish => some (b.answer c fun b => (Book.publish t b).ends)
    | _ => none) s

/-- DISCARD (R85). -/
def execDiscard (s : State) : Outcome :=
  onBook (fun _ b => b.serve .bke fun q c b => match q with
    | .discard => some (b.answer c Book.discardDraft)
    | _ => none) s

end Sys2Proof.Machine
end

