-- ==== Sys2Proof/Machine/Link.lean ====
section
/-! DEFINITION. The steps of the HMP (11): frames in, frames out, the taking of requests, batches, identity and
RESTART. LINK_READ_COMPLETE stands in Site.lean, since it can begin a reset. -/

namespace Sys2Proof.Machine

/-! ## Frames in -/

/-- R181: the frame whose header this is goes into the credited part. -/
def Link.fits (l : Link) (header : List Byte) : Bool :=
  let h := linkHeader header
  h.kind == 1 && h.lengthOk && decide (l.occupied + h.length ≤ Config.linkBlocks)

/-- R181: place the frame whose first 8 bytes have come. A read select still open has ended incomplete (R179). -/
def Link.place (l : Link) (header : List Byte) : Link :=
  let n := (linkHeader header).length
  if l.fits header then
    { l with
      arriving := some { header := header, credited := true }
      occupied := l.occupied + n
      hostCredit := l.hostCredit - n
      reading := none }
  else { l with arriving := some { header := header, credited := false }, reading := none }

/-- R179, R181: a write select begins with a byte that is not 0. -/
def opensWrite (header : List Byte) : Bool := byteAt header 0 != 0

/-- R181: the first 8 bytes of a write select have come. -/
def Link.headerReceived (l : Link) (header : List Byte) : Link :=
  if l.arriving.isNone && header.length == 8 && opensWrite header then l.place header else l

/-- R181: `n` occupied blocks are freed and await return. -/
def Link.free (l : Link) (n : Nat) : Link := { l with occupied := l.occupied - n, awaitingReturn := l.awaitingReturn + n }

/-- R181: the credited blocks of the arriving frame. -/
def Arriving.blocks (a : Arriving) : Nat := if a.credited then (linkHeader a.header).length else 0

/-- R182: the arriving frame is gone and its credited blocks are freed. -/
def Link.discardArriving (l : Link) (a : Arriving) : Link := { l with arriving := none }.free a.blocks

/-- R180, R182: OVERRUN in its reply form, with the frame's batch mark and the detail, where a reply place is free, else
as a notice. -/
def Hmp.overrun (h : Hmp) (mark : Mark) (detail : Detail) (tag code length occupied : Nat) : Hmp :=
  let h := { h with overruns := bump 65535 h.overruns }
  if h.repliesHeld < Config.replyPlaces then
    { h with out := h.out ++ [.overrun mark detail tag code length occupied h.tags.length] }
  else h.post (.overrun tag code length occupied h.tags.length)

/-- R182: the blocks received. -/
def blocksReceived (n : Nat) : Nat := min 255 ((n + 15) / 16)

/-- R182: the end of the write select whose frame is `a`, all its bytes being `bytes`. -/
def Link.endWrite (l : Link) (b : Book) (a : Arriving) (bytes : List Byte) (reading : Option Request) : Link × Book :=
  let h := linkHeader bytes
  let gone := l.discardArriving a
  match receiptFault bytes, Mark.ofNat? h.mark with
  | some f, _ =>
    (gone,
      { b with hmp := { b.hmp with rejected := bump 65535 b.hmp.rejected } }.post
        (.frameRejected (blocksReceived bytes.length) a.blocks f))
  | none, none => (gone, b)
  | none, some mark =>
    if !a.credited then (gone, b.withHmp (b.hmp.overrun mark .buffer h.tag h.code h.length l.occupied))
    else if h.tag = 0 ∨ b.hmp.tags.contains h.tag then
      (gone, { b with hmp := { b.hmp with clashes := bump 65535 b.hmp.clashes } }.post (.tagClash h.tag h.code))
    else if Config.maxTags ≤ b.hmp.tags.length then
      (gone, b.withHmp (b.hmp.overrun mark .tags h.tag h.code h.length l.occupied))
    else
      ({ l with
          arriving := none
          inbound :=
            l.inbound ++ [{ tag := h.tag, code := h.code, mark := mark, length := h.length, reading := reading }] },
        { b with hmp := { b.hmp with tags := b.hmp.tags ++ [h.tag] } })

/-- R179, R181, R182: a write select ends. With its header already placed, `bytes` are the bytes after the header;
else `bytes` are all it sent, and a select that ends before 8 bytes goes into the reserve. One that ends with no byte
changes nothing (log 105). -/
def Link.writeSelectEnd (l : Link) (b : Book) (bytes : List Byte) (reading : Option Request) : Link × Book :=
  match l.arriving with
  | some a => l.endWrite b a (a.header ++ bytes) reading
  | none =>
    if bytes.isEmpty || !opensWrite bytes then (l, b)
    else if 8 ≤ bytes.length then
      let l' := l.place (bytes.take 8)
      match l'.arriving with
      | some a => l'.endWrite b a bytes reading
      | none => (l, b)
    else { l with reading := none }.endWrite b { header := bytes, credited := false } bytes reading

/-! ## Frames out -/

/-- R183: a read select begins. -/
def Link.readSelect (l : Link) (h : Hmp) : Link :=
  if l.arriving.isSome then l
  else { l with reading := some (selectOut l h) }

/-- R183: the credits of a completely read frame pass to the host. -/
def Link.readDone (l : Link) (r : ReadSelect) : Link :=
  { l with
    awaitingReturn := l.awaitingReturn - r.credit
    hostCredit := l.hostCredit + r.credit
    reading := none }

/-- R183, R184, R186: a completely read frame leaves the queue, a reply releasing its tag. -/
def Hmp.frameRead (h : Hmp) : Yield → Hmp
  | .frame f =>
    match f with
    | .reply c _ => { h with out := h.out.erase f, tags := h.tags.erase c.tag }
    | _ => { h with out := h.out.erase f }
  | _ => h

/-- R189: the frame is the OK to the pending RESTART. -/
def Hmp.restartRead (h : Hmp) : Yield → Bool
  | .frame (.reply c a) => h.restart == .answered && c.code == 39 && a.status == .ok
  | _ => false

/-! ## Taking requests -/

/-- R185: what the HMP reads from a frame's code and body. -/
def InFrame.decode (f : InFrame) : Except Answer Request :=
  if !isRequestCode f.code then .error (Answer.because .badRequest .code)
  else match f.reading with
    | some r => if r.code = f.code then .ok r else .error (Answer.of .badRequest)
    | none => .error (Answer.of .badRequest)

/-- R185: a request handed to its owner holds a reply place. -/
def Book.hand (b : Book) (c : Ctx) (r : Request) : Book :=
  { b with
    hmp := { b.hmp with held := b.hmp.held ++ [c] }
    mail := { b.mail with requests := b.mail.requests ++ [{ ctx := c, request := r }] } }

/-- R185: a decoded request goes to its owner; one answered at decode is answered as its owner would. -/
def Book.handOrAnswer (b : Book) (c : Ctx) : Except Answer Request → Book
  | .ok r => b.hand c r
  | .error a => b.reply c a

/-- R187: the state of the batch set. -/
def Book.setBatch (b : Book) (s : BatchState) : Book := { b with hmp := { b.hmp with batch := s } }

/-- R187: an answer that the table of R187 gives without handing on. -/
def Book.tableAnswer (b : Book) (c : Ctx) (a : Answer) (after : BatchState) : Book :=
  { b with hmp := { b.hmp.postReply c a with batch := after } }

/-- R187, R198: the table of R187. -/
def Book.takeMarked (b : Book) (c : Ctx) (d : Except Answer Request) : Book :=
  match c.mark, b.hmp.batch with
  | .sole, _ => b.handOrAnswer c d
  | .first, .none => (b.setBatch .opened).handOrAnswer c d
  | .first, _ => b.discardStaged.tableAnswer c (Answer.because .badRequest .batch) .failed
  | .middle, .opened => b.handOrAnswer c d
  | .last, .opened => b.handOrAnswer c d
  | .middle, .failed => b.tableAnswer c (Answer.of .skipped) .failed
  | .last, .failed => b.discardStaged.tableAnswer c (Answer.of .skipped) .none
  | .middle, .none => b.tableAnswer c (Answer.because .badRequest .batch) .none
  | .last, .none => b.tableAnswer c (Answer.because .badRequest .batch) .none

/-- R185, R189: the HMP is ready for a request with this mark: HELLO posted, a reply place free, no RESTART pending,
its own last request answered, and batch order kept. -/
def Book.readyFor (b : Book) (m : Mark) : Bool :=
  b.hmp.helloPosted && decide (b.hmp.repliesHeld < Config.replyPlaces) && b.hmp.restart == .none &&
    b.mail.requests.all (fun h => h.request.owner != .hmp) &&
    (m == .sole || b.hmp.held.all (fun c => c.mark == .sole))

/-- R185, R190: the counts as held when a request is taken. -/
def Link.counts (l : Link) : LinkCounts :=
  { occupied := l.occupied, awaiting := l.awaitingReturn, credit := l.hostCredit }

/-- R185. -/
def Link.takeRequest (l : Link) (b : Book) : Link × Book :=
  match l.inbound with
  | [] => (l, b)
  | f :: rest =>
    if b.readyFor f.mark then
      let l' := { l with inbound := rest }.free f.length
      (l', { b with hmp := { b.hmp with taken := l'.counts } }.takeMarked
        { tag := f.tag, code := f.code, mark := f.mark } f.decode)
    else (l, b)

/-! ## Identity, restart, HELLO -/

/-- R190. -/
def Book.identity (b : Book) : ReplyData :=
  let h := b.hmp
  .identity .cb384 Config.revision b.cfs.valid h.resetKind h.taken.occupied h.taken.awaiting h.taken.credit h.tags.length
    h.repliesHeld h.noticesHeld h.batch h.dropped h.rejected h.overruns h.clashes

/-- R190. -/
def Book.readIdentity (b : Book) : Book :=
  match b.nextRequest .hmp with
  | some (h, b') =>
    match h.request with
    | .readIdentity => b'.reply h.ctx (Answer.ok b.identity)
    | _ => b
  | none => b

/-- R189. -/
def Book.restartAsked (b : Book) : Book :=
  match b.nextRequest .hmp with
  | some (h, b') =>
    match h.request with
    | .restart =>
      if h.ctx.mark != .sole then b'.reply h.ctx (Answer.because .badRequest .batch)
      else if b.cfs.commit.isSome then b'.reply h.ctx (Answer.because .busy .commit)
      else { b' with hmp := { b'.hmp with restart := .pending h.ctx } }
    | _ => b
  | none => b

/-- R189. -/
def Book.restartReply (b : Book) : Book :=
  match b.hmp.restart with
  | .pending c =>
    if b.hmp.held = [c] then
      b.withHmp { b.hmp.postReply c (Answer.ok .none) with restart := .answered }
    else b
  | _ => b

/-- R188: HELLO becomes the first frame in the queue (log 10). It carries 0, and a count of notices dropped before it stays
for the next notice (log 104). -/
def Hmp.hello (h : Hmp) (valid : Bool) : Hmp :=
  if h.helloPosted then h
  else
    { h with
      out := .notice 0 (.hello .cb384 Config.revision Config.linkBlocks valid h.resetKind) :: h.out
      helloPosted := true }

/-- HELLO (R188). -/
def execHello (s : State) : Outcome := onBook (fun _ b => b.withHmp (b.hmp.hello b.cfs.valid)) s

/-- FRAME_HEADER_RECEIVED (R181). -/
def execFrameHeaderReceived (header : List Byte) (s : State) : Outcome :=
  onLink (fun l b => (l.headerReceived header, b)) s

/-- LINK_WRITE_SELECT_END (R182). -/
def execLinkWriteSelectEnd (bytes : List Byte) (reading : Option Request) (s : State) : Outcome :=
  onLink (fun l b => l.writeSelectEnd b bytes reading) s

/-- LINK_READ_SELECT (R183). -/
def execLinkReadSelect (s : State) : Outcome := onLink (fun l b => (l.readSelect b.hmp, b)) s

/-- TAKE_REQUEST (R185, R187). -/
def execTakeRequest (s : State) : Outcome := onLink Link.takeRequest s

/-- READ_IDENTITY (R190). -/
def execReadIdentity (s : State) : Outcome := onBook (fun _ b => b.readIdentity) s

/-- RESTART (R189). -/
def execRestart (s : State) : Outcome := onBook (fun _ b => b.restartAsked) s

/-- RESTART_REPLY (R189). -/
def execRestartReply (s : State) : Outcome := onBook (fun _ b => b.restartReply) s

end Sys2Proof.Machine
end

