-- ==== Sys2Proof/Machine/MapReads.lean ====
section
/-! DEFINITION. Reading the book (R28, R29, R56, R88): READ_ROW, FIND_FREE and READ_BOOKING in the read edition. -/

namespace Sys2Proof.Machine

/-! ## READ_ROW -/

/-- R28: the entries of one record in a row: its span and its buffer, those with a cell at or after `first`. A record
whose span lies wholly before `first` and whose buffer does not has its buffer entry alone (log 53). -/
def coverEntries (r : Record) (room first : Nat) : List Cover :=
  (r.patches room).filterMap fun p =>
    if first < p.start + p.count then
      some { id := r.id, start := p.start, count := p.count, buffer := p.cell == .buffer }
    else none

/-- R28: the cover list from `first` on, in order of the lowest cell. Each entry goes by its own lowest cell, so a buffer
stands behind an entry that begins between it and its span (log 83). Of two entries with one lowest cell, that of the lower
record slot stands first (log 108). -/
def Book.coverList (b : Book) (ed : Edition) (d : Date) (room first : Nat) : List Cover :=
  sortBy (fun c => max c.start first) ((b.writersOf ed d room).flatMap fun p => coverEntries p.2 room first)

/-- R28, R168, R169: the demand read of the records that the cover list is made from. -/
def Book.tryCovers (b : Book) (ed : Edition) (d : Date) (room : Nat) : Attempt Book :=
  b.tryRecords ((b.writersOf ed d room).map (·.1))

/-- R28 step 5: the DAMAGED records whose index entries name this room and date, in id order. -/
def Book.damagedHere (b : Book) (room : Nat) (d : Date) : List (Option Nat) :=
  (sortBy (fun x : Damaged => x.id.getD 0)
    ((b.damagedRecords.map (·.2)).filter fun x => x.place == some (room, d))).map (·.id)

/-- R28: the reply for a row, its base version present when a draft row was used. -/
def Book.rowReply (b : Book) (ed : Edition) (rm : Room) (r : Row) (x : Option DraftRow) (first : Nat) : Answer :=
  let l := b.coverList ed r.date r.room first
  Answer.ok
    (.row r.room rm r.date ((b.offset r.date).getD 0) ed r.state r.version (x.map (·.base))
      ((x.map (·.cells)).getD r.cells) (l.take 12) (decide (12 < l.length)))

/-- R28 steps 4 and 5. BUSY/REBUILDING names the room as R25 has it, where R28 lists no field (log 82). -/
def Book.rowRefusal (b : Book) (r : Row) : Option Answer :=
  match r.state with
  | .good => none
  | .rebuilding => some (b.refuseRoom .busy .rebuilding r.room)
  | .quarantined =>
    let l := b.damagedHere r.room r.date
    some { status := .damaged, detail := .quarantined, data := .damagedIds ((l.filterMap id).take 8) l.length }

/-- R28, R88: READ_ROW. Over a draft row the live row, whose state and version the reply gives, is read too; where this
read finds it uncorrectable the answer is BUSY/REBUILDING, while a state that stands already refuses nothing (R88, R168,
log 66). -/
def Book.readRow (room : Nat) (d : Date) (first : Option Nat) (b : Book) : Attempt (Book × Answer) := do
  let lo := first.getD 0
  b.tryHorizon
  refuseIf b [((b.offset d).isNone || decide (383 < room) || decide (63 < lo), Answer.of .badRequest)]
  match b.room room with
  | none => .error (b, Answer.because .notFound .room)
  | some rm =>
    let ed := b.bke.readEdition
    let b := b.readView ed d room
    match b.row room d with
    | none => .error (b, Answer.because .notFound .room)
    | some r =>
      match b.draftView ed room d with
      | some x =>
        refuseIf b [(x.damaged, draftDamaged)]
        let b ← b.tryReadLive [(room, d)]
        let b ← b.tryCovers ed d room
        return (b, b.rowReply ed rm r (some x) lo)
      | none =>
        refuseWith b (b.rowRefusal r)
        let b ← b.tryCovers ed d room
        return (b, b.rowReply ed rm r none lo)

/-! ## FIND_FREE -/

/-- R29: what a search has found so far. -/
structure Search where
  book : Book
  found : List FoundRoom
  skipped : Nat
  last : Option Nat

/-- R29: the room passes the field tests. -/
def findWants (f : FindFields) (r : Room) : Bool :=
  r.bookable && decide (f.minSeats ≤ r.seats) && f.building.all (fun x => x == r.building)

/-- R29: one room examined. -/
def Search.examine (f : FindFields) (x : Search) (room : Nat) (r : Room) : Search :=
  let x := { x with last := some room }
  if !findWants f r then x
  else
    let ed := x.book.bke.readEdition
    let b := x.book.readFamily ed room f.date
    let buf := clipBuffer (f.start + f.count) (b.squ.bufferOf r)
    let x := { x with book := b }
    match b.conflict ed room f.date f.start f.count buf none with
    | none =>
      { x with
        found := x.found ++
          [{ room := room, code := r.code, kind := r.kind, building := r.building, floor := r.floor,
             seats := r.seats }] }
    | some a => if a.status = .conflict then x else { x with skipped := x.skipped + 1 }

/-- R29: the search stops when 8 rooms are listed or the directory is exhausted. -/
def Search.over (f : FindFields) : List (Nat × Room) → Search → Search
  | [], x => x
  | (room, r) :: l, x => if 8 ≤ x.found.length then x else Search.over f l (Search.examine f x room r)

/-- R29: the next room, when 8 rooms were listed and configured rooms remain above. -/
def Search.next (x : Search) : Option Nat :=
  x.last.bind fun l =>
    if 8 ≤ x.found.length ∧ (x.book.bke.rooms.keys.any fun k => decide (l < k)) then some (l + 1) else none

/-- R29: FIND_FREE. The minimum seats, the building and the first room stand among the grounds for BAD_REQUEST at step 2
of the span check, so before TOO_LATE (log 54). -/
def Book.findFree (t : Ctu) (f : FindFields) (b : Book) : Attempt (Book × Answer) := do
  let first := f.first.getD 0
  let bad := decide (f.minSeats < 1) || decide (500 < f.minSeats) || f.building.any (fun x => decide (15 < x)) ||
    decide (383 < first)
  refuseWith b (b.spanCheck t f.date f.start f.count bad)
  let start : Search := { book := b, found := [], skipped := 0, last := none }
  let x := Search.over f (b.bke.rooms.entries.filter fun p => decide (first ≤ p.1)) start
  return (x.book, Answer.ok (.found x.found x.skipped x.next))

/-! ## READ_BOOKING -/

/-- R56: READ_BOOKING. -/
def Book.readBooking (id : Nat) (b : Book) : Attempt (Book × Answer) := do
  b.tryHorizon
  refuseIf b [(id == 0, Answer.of .badRequest)]
  let x := b.fetch id
  let draftToo := b.bke.readEdition == .draft
  match x.2 with
  | .nothing => .error (x.1, Answer.of .notFound)
  | .live _ r => return (x.1, Answer.ok (.booking r (x.1.code r.room)))
  | .draft _ r =>
    refuseIf x.1 [(!draftToo, Answer.of .notFound)]
    return (x.1, Answer.ok (.booking r (x.1.code r.room)))
  | .damaged _ d draft =>
    refuseIf x.1 [(draft && !draftToo, Answer.of .notFound)]
    return (x.1, { status := .damaged, detail := .record, data := .damaged d.id d.place (x.1.placeCode d.place) })

/-- READ_ROW (R28). -/
def execReadRow (s : State) : Outcome :=
  onBook (fun _ b => b.serve .bke fun q c b => match q with
    | .readRow room d first => some (b.answer c fun b => (Book.readRow room d first b).ends)
    | _ => none) s

/-- FIND_FREE (R29). -/
def execFindFree (s : State) : Outcome :=
  onBook (fun t b => b.serve .bke fun q c b => match q with
    | .findFree f => some (b.answer c fun b => (Book.findFree t f b).ends)
    | _ => none) s

/-- READ_BOOKING (R56). -/
def execReadBooking (s : State) : Outcome :=
  onBook (fun _ b => b.serve .bke fun q c b => match q with
    | .readBooking id => some (b.answer c fun b => (Book.readBooking id b).ends)
    | _ => none) s

end Sys2Proof.Machine
end

