-- ==== Sys2Proof/Machine/Panels.lean ====
section
/-! DEFINITION. The steps of the Panel Page Unit (07): time events, changes from the book and the sequence unit, latch
claims, what the SBC tells of the panels, panel events and their outcomes, READ_PAGE. -/

namespace Sys2Proof.Machine

/-! ## Time events -/

/-- The PPU takes the event at its head, when it is of the kind `f` serves. -/
def onPpuEvent (f : Date → EventKind → Book → Ppu → Option (Book × Ppu)) (b : Book) (p : Ppu) : Book × Ppu :=
  match b.mail.ppuEvents with
  | [] => (b, p)
  | e :: rest => (f e.date e.kind (b.withMail { b.mail with ppuEvents := rest }) p).getD (b, p)

/-- R116: the horizon copy and the dark-period mark of horizon open. -/
def Ppu.opened (p : Ppu) (h : Horizon) (minute : Nat) : Ppu :=
  { p with horizon := some h, darkPeriod := decide (minute < 345) || decide (1320 ≤ minute) }

/-- R116: horizon open. -/
def ppuHorizonOpen (t : Ctu) : Book → Ppu → Book × Ppu :=
  onPpuEvent fun d k b p => match k with
    | .horizonOpen w _ _ => some (buildAll t .wholePage (b, p.opened { today := d, weekday := w } t.minute))
    | _ => none

/-- R116: every release mark cleared and every overlay setting 0. -/
def Ppu.retired (p : Ppu) : Ppu :=
  { p with pages := p.pages.mapValues fun _ g => { g with release := none, overlay := 0 }, waits := [] }

/-- R116: day retire; every latch wait ends at once, the oldest first (log 76). -/
def ppuDayRetire : Book → Ppu → Book × Ppu :=
  onPpuEvent fun _ k b p => match k with
    | .dayRetire => some (p.waits.foldl endWait b, p.retired)
    | _ => none

/-- R116: day open. -/
def ppuDayOpen (t : Ctu) : Book → Ppu → Book × Ppu :=
  onPpuEvent fun d k b p => match k with
    | .dayOpen _ w =>
      some (buildAll t .wholePage (b, { p with horizon := some (Horizon.dayOpened d w), coming := none }))
    | _ => none

/-- R117: the morning build. -/
def morningBuild (t : Ctu) : Book → Ppu → Book × Ppu :=
  onPpuEvent fun _ k b p => match k with
    | .morningBuild => some (buildAll t .wholePage (b, { p with darkPeriod := false }))
    | _ => none

/-- R117: pre-boundary `x`. -/
def preBoundary (t : Ctu) : Book → Ppu → Book × Ppu :=
  onPpuEvent fun _ k b p => match k with
    | .preBoundary x =>
      let p := { p with coming := some x }
      some (buildPages t .plain (p.roomsWhere fun _ r => p.isLatched r.group) (b, p))
    | _ => none

/-- R117: the release marks below the new current slot are cleared. -/
def Ppu.clearReleases (p : Ppu) (now : CurSlot) : Ppu :=
  { p with
    pages := p.pages.mapValues fun _ g =>
      if g.release.any (fun n => now.reaches n && now.number != some n) then { g with release := none } else g }

/-- R117: the rooms whose pages slot boundary `x` builds. -/
def Ppu.boundaryRooms (p : Ppu) (x : Nat) : List Nat :=
  p.roomsWhere fun n r =>
    !p.isLatched r.group || (p.pages.find n).any fun g => g.reference != slotOfBoundary (some x)

/-- R117: slot boundary `x`. -/
def ppuSlotBoundary (t : Ctu) : Book → Ppu → Book × Ppu :=
  onPpuEvent fun _ k b p => match k with
    | .slotBoundary x _ _ =>
      let p := { p with coming := none }.clearReleases t.slot
      some (latchIfAny p.latchedGroups (buildPages t .plain (p.boundaryRooms x) (b, p)))
    | _ => none

/-- R117: day-end. -/
def dayEnd (t : Ctu) : Book → Ppu → Book × Ppu :=
  onPpuEvent fun _ k b p => match k with
    | .dayEnd =>
      let p := { p with darkPeriod := true }
      some (buildPages t .wholePage (p.roomsWhere fun _ r => p.isDark r.group) (b, p))
    | _ => none

/-- R117: a candidate CONFIRMED meeting of today starts 10 minutes after minute `m`. -/
def Ppu.windowOpens (p : Ppu) (b : Book) (m x : Nat) : Bool :=
  p.horizon.any fun h =>
    (b.viewRecords .live h.today).any fun r =>
      (candidateRooms p.rooms x).contains r.room && r.kind == .meeting && r.state == .confirmed &&
        boundaryMinute r.start == m + Config.earlyMinutes

/-- R117: a minute event; the waits it brings to 2 end by LATCH_WAIT_EXPIRY (log 8). -/
def ppuMinute (t : Ctu) : Book → Ppu → Book × Ppu :=
  onPpuEvent fun _ k b p => match k with
    | .minute m =>
      let r := buildPages t .plain (p.roomsWhere fun x _ => p.windowOpens b m x) (b, p)
      some (r.1, { r.2 with waits := r.2.waits.map fun w => { w with minutes := w.minutes + 1 } })
    | _ => none

/-- R120: SHOW to each panel still awaited, by rising segment and address (log 91). -/
def showAwaited (w : LatchWait) (r : Book × Ppu) : Book × Ppu :=
  w.panels.foldl
    (fun r key => match r.2.views.find key with
      | some v => handPage .display v r.1 r.2
      | none => r)
    r

/-- R120: the oldest wait whose count has reached 2 ends. -/
def latchWaitExpiry (b : Book) (p : Ppu) : Book × Ppu :=
  match takeFirst (fun w => decide (2 ≤ w.minutes)) p.waits with
  | none => (b, p)
  | some (w, rest) =>
    let r := showAwaited w (b, { p with waits := rest })
    (endWait r.1 w, r.2)

/-! ## Requests of the host -/

/-- The groups whose entry is set, of the 32 entries. -/
def groupsSet (entries : List Bool) : List Nat := (List.range 32).filter fun g => (entries[g]?).getD false

/-- R121: LATCH_GROUPS. -/
def latchGroupsAsked (entries : List Bool) (c : Ctx) (b : Book) (p : Ppu) : Book × Ppu :=
  if (groupsSet entries).isEmpty then (b.reply c (Answer.of .badRequest), p)
  else
    let l := (groupsSet entries).filter p.isLatched
    if l.isEmpty then (b.reply c (Answer.because .ok .empty), p) else latchClaim l (some c) (b, p)

/-- The PPU's next request, served when it is of the kind `f` serves. -/
def servePpu (f : Request → Ctx → Book → Ppu → Option (Book × Ppu)) (b : Book) (p : Ppu) : Book × Ppu :=
  match b.nextRequest .ppu with
  | some (h, b') => (f h.request h.ctx b' p).getD (b, p)
  | none => (b, p)

def latchGroups : Book → Ppu → Book × Ppu :=
  servePpu fun q c b p => match q with
    | .latchGroups entries => some (latchGroupsAsked entries c b p)
    | _ => none

/-- R127: a panel as READ_PAGE shows it. -/
def PanelView.reported (v : PanelView) : PanelShown :=
  { segment := v.segment, address := v.address, online := v.online, session := v.session, lastHanded := v.lastHanded
    awaiting := v.awaiting, staged := v.staged.map (·.1), shown := v.shown }

/-- R127: the answer to READ_PAGE. -/
def Ppu.pageReply (p : Ppu) (x : Nat) : Answer :=
  if 383 < x then Answer.of .badRequest
  else match p.rooms.find x, p.pages.find x with
    | some rm, some pg =>
      Answer.ok
        (.page x pg (p.isLatched rm.group) (p.isDark rm.group) p.darkPeriod
          ((p.views.values.filter fun v => v.room == x).map PanelView.reported))
    | _, _ => Answer.because .notFound .room

def readPage : Book → Ppu → Book × Ppu :=
  servePpu fun q c b p => match q with
    | .readPage x => some (b.reply c (p.pageReply x), p)
    | _ => none

/-! ## Changes from the book -/

/-- The PPU takes the change at its head, when it is of the kind `f` serves. -/
def onPpuNews (f : PpuNews → Book → Ppu → Option (Book × Ppu)) (b : Book) (p : Ppu) : Book × Ppu :=
  match b.mail.bkeToPpu with
  | [] => (b, p)
  | n :: rest => (f n (b.withMail { b.mail with bkeToPpu := rest }) p).getD (b, p)

/-- R118: the release mark of the room and of its parts is set to the current slot. -/
def Ppu.markReleased (p : Ppu) (x : Nat) (now : Nat) : Ppu :=
  (x :: p.neighbourRooms x).foldl
    (fun p y => { p with pages := p.pages.modify y fun g => { g with release := some now } }) p

/-- R118: the change's own effect on the inputs. -/
def Ppu.applied (p : Ppu) (t : Ctu) (n : BookingNews) : Ppu :=
  match n.kind, t.slot.number with
  | .releasedGrace, some now => p.markReleased n.room now
  | _, _ => p

/-- R118: the rooms a change of today can affect; for a MOVE the old room too where its date is today. -/
def Ppu.changed (p : Ppu) (today : Date) (n : BookingNews) : List Nat :=
  (if n.date = today then p.affected n.room else []) ++
    match n.before with
    | some (x, d) => if d = today then p.affected x else []
    | none => []

/-- R115, R118: what brings a build about under a change. -/
def BookingNews.cause (n : BookingNews) : BuildCause :=
  match n.panel with
  | some x => .panel x
  | none => .plain

/-- R118: a booking change. -/
def takeChange (t : Ctu) (n : BookingNews) (b : Book) (p : Ppu) : Book × Ppu :=
  match p.horizon with
  | none => (b, p)
  | some h =>
    let p' := if n.date = h.today then p.applied t n else p
    buildPages t n.cause (p.changed h.today n) (b, p')

def ppuBookingChange (t : Ctu) : Book → Ppu → Book × Ppu :=
  onPpuNews fun x b p => match x with
    | .change n => some (takeChange t n b p)
    | _ => none

/-- R118: today's live row of a room has changed state. -/
def ppuRowStateChange (t : Ctu) : Book → Ppu → Book × Ppu :=
  onPpuNews fun x b p => match x with
    | .rowState room => some (buildPages t .plain [room] (b, p))
    | _ => none

/-- R118: the LATCHED groups among the groups of the rooms named. -/
def Ppu.groupsOf (p : Ppu) (rooms : List Nat) : List Nat :=
  p.latchedGroups.filter fun g => rooms.any fun x => (p.rooms.find x).any fun r => r.group == g

/-- R118: a publish completion. -/
def publishCompletion (t : Ctu) : Book → Ppu → Book × Ppu :=
  onPpuNews fun x b p => match x with
    | .published rooms =>
      some (latchIfAny (p.groupsOf rooms) (buildPages t .plain (rooms.flatMap p.affected) (b, p)))
    | _ => none

/-! ## Claims of the sequence unit -/

/-- The PPU takes the action at its head, when it is of the kind `f` serves. -/
def onPpuAction (f : PpuAction → Book → Ppu → Option (Book × Ppu)) (b : Book) (p : Ppu) : Book × Ppu :=
  match b.mail.squToPpu with
  | [] => (b, p)
  | a :: rest => (f a (b.withMail { b.mail with squToPpu := rest }) p).getD (b, p)

/-- R119: the overlay setting of a page, and its build. -/
def setOverlay (t : Ctu) (room message : Nat) (b : Book) (p : Ppu) : Book × Ppu :=
  buildPages t .plain [room]
    (b, { p with pages := p.pages.modify room fun g => { g with overlay := message } })

def showOverlay (t : Ctu) : Book → Ppu → Book × Ppu :=
  onPpuAction fun a b p => match a with
    | .overlay room message => some (setOverlay t room message b p)
    | _ => none

def clearOverlay (t : Ctu) : Book → Ppu → Book × Ppu :=
  onPpuAction fun a b p => match a with
    | .clearOverlay room => some (setOverlay t room 0 b p)
    | _ => none

/-- R120: a run's LATCH step. -/
def latchStep : Book → Ppu → Book × Ppu :=
  onPpuAction fun a b p => match a with
    | .latch room => some (latchIfAny (p.groupsOf [room]) (b, p))
    | _ => none

/-! ## What the SBC tells -/

/-- The PPU takes the oldest report of a segment, when it is of the kind `f` serves. -/
def onReport (segment : Nat) (f : PpuReport → Book → Ppu → Option (Book × Ppu)) (b : Book) (p : Ppu) : Book × Ppu :=
  match nextOf segment b.mail.sbcToPpu with
  | none => (b, p)
  | some (x, rest) => (f x (b.withMail { b.mail with sbcToPpu := rest }) p).getD (b, p)

/-- R111: a panel view after a reset, or of a panel that a commit adds. -/
def PanelView.reset (segment address room : Nat) : PanelView :=
  { segment := segment, address := address, room := room, session := 0, online := false, lastHanded := none,
    awaiting := false, staged := none, shown := 0 }

/-- R123: the view of a panel that comes ONLINE with a session. -/
def PanelView.joined (v : PanelView) (session : BitVec 8) : PanelView :=
  { v with online := true, session := session, staged := none, shown := 0, awaiting := false }

/-- R123: the view of a panel that leaves ONLINE. -/
def PanelView.left (v : PanelView) : PanelView := { v with online := false, awaiting := false }

/-- R123, R128: a change of a panel's link or binding. -/
def takeLink (segment address : Nat) (c : LinkChange) (b : Book) (p : Ppu) : Book × Ppu :=
  let key := stationKey segment address
  match c, p.view segment address with
  | .added room, _ => (b, p.putView (PanelView.reset segment address room))
  | _, none => (b, p)
  | .online n, some v => handPage .display (v.joined n) b (p.putView (v.joined n))
  | .offline, some v => leaveWaits key (b, p.putView v.left)
  | .removed, some _ => leaveWaits key (b, { p with views := p.views.drop key })
  | .rebound room, some v => leaveWaits key (b, p.putView { v.left with room := room })

def panelLinkChange (segment : Nat) : Book → Ppu → Book × Ppu :=
  onReport segment fun x b p => match x with
    | .link address c => some (takeLink segment address c b p)
    | _ => none

/-- R123: the view after a delivery. -/
def PanelView.delivered (v : PanelView) (version : Half) (kind : PageKind) (group : Nat) : PanelView :=
  let v := if v.lastHanded.any (fun x => x.1 == version) then { v with awaiting := false } else v
  match kind with
  | .stage => { v with staged := some (version, group) }
  | .display => { v with shown := version }

/-- R123: a delivered SHOW of a LATCHED group whose staged page is another is followed by a STAGE. -/
def Ppu.wantsStage (p : Ppu) (v : PanelView) (version : Half) (kind : PageKind) : Bool :=
  kind == .display && (p.rooms.find v.room).any (fun r => p.isLatched r.group) &&
    v.staged.all fun x => x.1 != version

/-- R120, R123: a page item was delivered. The latch of a wait that this ends is handed before the STAGE that follows a
SHOW (log 75). -/
def takeDelivery (segment address : Nat) (version : Half) (kind : PageKind) (group : Nat) (b : Book) (p : Ppu) :
    Book × Ppu :=
  match p.view segment address with
  | none => (b, p)
  | some v =>
    let v' := v.delivered version kind group
    let r := (b, p.putView v')
    let r := if v.lastHanded.any (fun x => x.1 == version) then leaveWaits (stationKey segment address) r else r
    if r.2.wantsStage v' version kind then handPage .stage v' r.1 r.2 else r

def pageDelivered (segment : Nat) : Book → Ppu → Book × Ppu :=
  onReport segment fun x b p => match x with
    | .delivered address version kind group => some (takeDelivery segment address version kind group b p)
    | _ => none

/-- R123: a page item was refused. -/
def pageItemRefused (segment : Nat) : Book → Ppu → Book × Ppu :=
  onReport segment fun x b p => match x with
    | .refused address =>
      some (b, match p.view segment address with
        | some v => p.putView { v with awaiting := false }
        | none => p)
    | _ => none

/-- R122, R124: hand a SHOW when the version the panel shows is not the page's. -/
def correctShown (v : PanelView) (b : Book) (p : Ppu) : Book × Ppu :=
  match p.pages.find v.room with
  | some pg => if v.shown ≠ pg.version ∧ !v.awaiting then handPage .display v b p else (b, p)
  | none => (b, p)

/-- R122: one panel of a broadcast's record. -/
def panelLatched (segment : Nat) (groups : List Nat) (r : Book × Ppu) (x : Nat × BitVec 8) : Book × Ppu :=
  match r.2.view segment x.1 with
  | none => r
  | some v =>
    match v.staged with
    | none => r
    | some (version, group) =>
      if v.session = x.2 ∧ groups.contains group then
        let v' := { v with shown := version }
        correctShown v' r.1 (r.2.putView v')
      else r

def latchBroadcastRecord (segment : Nat) : Book → Ppu → Book × Ppu :=
  onReport segment fun x b p => match x with
    | .broadcast groups panels => some (panels.foldl (panelLatched segment groups) (b, p))
    | _ => none

/-- R124: a reported shown version. -/
def takeShown (segment address : Nat) (session : BitVec 8) (version : Half) (b : Book) (p : Ppu) : Book × Ppu :=
  match p.view segment address with
  | none => (b, p)
  | some v =>
    if v.session = session ∧ v.shown ≠ version ∧ !v.awaiting then
      let v' := { v with shown := version }
      handPage .display v' b (p.putView v')
    else (b, p)

def shownVersionReport (segment : Nat) : Book → Ppu → Book × Ppu :=
  onReport segment fun x b p => match x with
    | .shown address session version => some (takeShown segment address session version b p)
    | _ => none

/-! ## Panel events and outcomes -/

/-- R125: relay a panel event to its owner. -/
def Book.relay (b : Book) (c : PanelClaim) : Book :=
  match c.event with
  | .cartArrived _ => b.withMail { b.mail with ppuToCsc := b.mail.ppuToCsc ++ [c] }
  | .checkIn _ | .walkup _ | .endMeeting | .extend =>
    b.withMail { b.mail with ppuToBke := b.mail.ppuToBke ++ [c] }
  | _ => b

def panelEvent (segment : Nat) : Book → Ppu → Book × Ppu :=
  onReport segment fun x b p => match x with
    | .event address session room event =>
      some
        (b.relay { segment := segment, address := address, session := session, room := room, event := event }, p)
    | _ => none

/-- R126: PANEL_ACTION for an accepted outcome. -/
def Book.panelAction (b : Book) (a : PanelAnswer) : PanelAction :=
  { segment := a.claim.segment, address := a.claim.address, room := a.claim.room, code := b.code a.claim.room
    event := a.claim.event, status := a.status, detail := a.detail, subject := a.subject
    span := a.placed.map fun x => (x.start, x.count) }

/-- R126: WALKUP for an accepted walk-up. -/
def Book.postWalkup (b : Book) (a : PanelAnswer) : Book :=
  match a.claim.event, a.placed with
  | .walkup _, some x =>
    b.post (.walkup x.id x.room x.code x.start x.count x.bufSlots a.claim.segment a.claim.address)
  | _, _ => b

/-- R126: the notices of an outcome. -/
def Book.postOutcome (b : Book) (a : PanelAnswer) : Book :=
  if a.status = .ok then (b.post (.panelAction (b.panelAction a))).postWalkup a else b

/-- R126: the RESULT of an outcome; the order id of a cart arrival is no booking id (log 34). -/
def PanelAnswer.result (a : PanelAnswer) : ResultItem :=
  { event := eventKindOf a.claim.event, status := a.status, detail := a.detail
    booking := if eventKindOf a.claim.event = .cartArrived then none else a.subject }

/-- R126: an outcome is taken. -/
def Book.outcome (b : Book) (a : PanelAnswer) : Book :=
  (b.postOutcome a).toSbc (.result a.claim.segment a.claim.address a.claim.session a.result)

/-- R126: the oldest outcome of an owner. -/
def panelOutcome (source : OutcomeSource) (b : Book) (p : Ppu) : Book × Ppu :=
  match source with
  | .bke => match b.mail.bkeToPanel with
    | [] => (b, p)
    | a :: rest => ((b.withMail { b.mail with bkeToPanel := rest }).outcome a, p)
  | .csc => match b.mail.cscToPanel with
    | [] => (b, p)
    | a :: rest => ((b.withMail { b.mail with cscToPanel := rest }).outcome a, p)

/-- R126: a RESULT was not sent. -/
def resultNotSent (segment : Nat) : Book → Ppu → Book × Ppu :=
  onReport segment fun x b p => match x with
    | .unsent _ => some (b, p)
    | _ => none

/-! ## The steps -/

/-- PPU_HORIZON_OPEN (R116). -/
def execPpuHorizonOpen (s : State) : Outcome := onPpu ppuHorizonOpen s

/-- PPU_DAY_RETIRE (R116). -/
def execPpuDayRetire (s : State) : Outcome := onPpu (fun _ => ppuDayRetire) s

/-- PPU_DAY_OPEN (R116). -/
def execPpuDayOpen (s : State) : Outcome := onPpu ppuDayOpen s

/-- MORNING_BUILD (R117). -/
def execMorningBuild (s : State) : Outcome := onPpu morningBuild s

/-- PRE_BOUNDARY (R117). -/
def execPreBoundary (s : State) : Outcome := onPpu preBoundary s

/-- PPU_SLOT_BOUNDARY (R117). -/
def execPpuSlotBoundary (s : State) : Outcome := onPpu ppuSlotBoundary s

/-- DAY_END (R117). -/
def execDayEnd (s : State) : Outcome := onPpu dayEnd s

/-- PPU_MINUTE (R117). -/
def execPpuMinute (s : State) : Outcome := onPpu ppuMinute s

/-- LATCH_WAIT_EXPIRY (R120). -/
def execLatchWaitExpiry (s : State) : Outcome := onPpu (fun _ => latchWaitExpiry) s

/-- LATCH_GROUPS (R121). -/
def execLatchGroups (s : State) : Outcome := onPpu (fun _ => latchGroups) s

/-- READ_PAGE (R127). -/
def execReadPage (s : State) : Outcome := onPpu (fun _ => readPage) s

/-- PPU_BOOKING_CHANGE (R118). -/
def execPpuBookingChange (s : State) : Outcome := onPpu ppuBookingChange s

/-- PPU_ROW_STATE_CHANGE (R118). -/
def execPpuRowStateChange (s : State) : Outcome := onPpu ppuRowStateChange s

/-- PUBLISH_COMPLETION (R118). -/
def execPublishCompletion (s : State) : Outcome := onPpu publishCompletion s

/-- SHOW_OVERLAY (R119). -/
def execShowOverlay (s : State) : Outcome := onPpu showOverlay s

/-- CLEAR_OVERLAY (R119). -/
def execClearOverlay (s : State) : Outcome := onPpu clearOverlay s

/-- LATCH_STEP (R120). -/
def execLatchStep (s : State) : Outcome := onPpu (fun _ => latchStep) s

/-- PANEL_LINK_CHANGE (R123). -/
def execPanelLinkChange (segment : Nat) (s : State) : Outcome := onPpu (fun _ => panelLinkChange segment) s

/-- PAGE_DELIVERED (R120, R123). -/
def execPageDelivered (segment : Nat) (s : State) : Outcome := onPpu (fun _ => pageDelivered segment) s

/-- PAGE_ITEM_REFUSED (R123). -/
def execPageItemRefused (segment : Nat) (s : State) : Outcome := onPpu (fun _ => pageItemRefused segment) s

/-- LATCH_BROADCAST_RECORD (R122). -/
def execLatchBroadcastRecord (segment : Nat) (s : State) : Outcome := onPpu (fun _ => latchBroadcastRecord segment) s

/-- SHOWN_VERSION_REPORT (R124). -/
def execShownVersionReport (segment : Nat) (s : State) : Outcome := onPpu (fun _ => shownVersionReport segment) s

/-- PANEL_EVENT (R125). -/
def execPanelEvent (segment : Nat) (s : State) : Outcome := onPpu (fun _ => panelEvent segment) s

/-- PANEL_OUTCOME (R126). -/
def execPanelOutcome (source : OutcomeSource) (s : State) : Outcome := onPpu (fun _ => panelOutcome source) s

/-- RESULT_NOT_SENT (R126). -/
def execResultNotSent (segment : Nat) (s : State) : Outcome := onPpu (fun _ => resultNotSent segment) s

end Sys2Proof.Machine
end

