-- ==== Sys2Proof/Machine/Scrub.lean ====
section
/-! DEFINITION. The steps of the Book Store and Scrub Unit and the BKE's work on damage (10): the patrol, its reports,
rebuilds, REBUILD_ROW, FORGET_BOOKING and READ_SCRUB. -/

namespace Sys2Proof.Machine

/-! ## The patrol -/

/-- R170: what the patrol position names. -/
inductive PatrolPlace where
  | row (room offset : Nat)
  | slot (n : Nat)

def patrolPlace (k : Nat) : PatrolPlace :=
  if k < Config.rowPlaces then .row (k / Config.horizonDays) (k % Config.horizonDays) else .slot (k - Config.rowPlaces)

/-- R170: the patrol's report of an item. -/
def Book.reportItem (b : Book) (i : StoreItem) : Book :=
  b.withMail { b.mail with bssToBke := b.mail.bssToBke ++ [{ item := i }] }

/-- R169, R170: a patrol read of one live row: corrected, and counted and reported each time it is found uncorrectable. -/
def Book.patrolLive (b : Book) (room : Nat) (d : Date) : Book :=
  let r := b.readItem (.liveRow room d)
  if r.2 then (r.1.withBss r.1.bss.countLost).reportItem (.liveRow room d) else r.1

/-- R169, R170: a patrol read of a draft row, or of a record with its index entry: corrected, and counted and reported when
it is first found uncorrectable. -/
def Book.patrolOnce (b : Book) (l : List StoreItem) : Book :=
  let r := l.foldl (fun x i => let y := x.1.readItem i; (y.1, if x.2.isSome || !y.2 then x.2 else some i)) (b, none)
  match r.2 with
  | none => r.1
  | some i => if l.any b.bss.isKnown then r.1 else (r.1.withBss (r.1.bss.countOnce l)).reportItem i

/-- R75, R170: the patrol item of a row place, with the draft row over it. -/
def Book.patrolRow (b : Book) (room offset : Nat) : Book :=
  match b.bke.horizon.bind (fun h => h.dates[offset]?) with
  | none => b
  | some d =>
    let b := if (b.row room d).isSome then b.patrolLive room d else b
    if (b.draftRow room d).any (fun r => !r.damaged) then b.patrolOnce [.draftRow room d] else b

/-- R170: the patrol item of a record slot, with its index entry: one report for the record, naming the index entry when
that is lost (log 12). -/
def Book.patrolSlot (b : Book) (n : Nat) : Book :=
  match b.slot n with
  | some (.sound _) => b.patrolOnce [.index n, .record n]
  | _ => b

/-- R170: the item at the patrol position is read. -/
def Book.patrolHere (b : Book) : Book :=
  match patrolPlace b.bss.position with
  | .row room offset => b.patrolRow room offset
  | .slot n => b.patrolSlot n

/-- R170: the patrol advances. -/
def Bss.advance (x : Bss) : Bss :=
  if x.position + 1 < Config.patrolItems then { x with position := x.position + 1 }
  else { x with position := 0, passes := bump 65535 x.passes }

/-- R168: the item is one the store holds, so its words can be in error. -/
def Book.holds (b : Book) : StoreItem → Bool
  | .liveRow room d => (b.row room d).isSome
  | .draftRow room d => (b.draftRow room d).isSome
  | .record n => (b.soundAt n).isSome
  | .index n => (b.soundAt n).isSome

/-- The item is a live row, which holds no mark of damage (R169). -/
def liveItem : StoreItem → Bool
  | .liveRow _ _ => true
  | _ => false

/-- R168: bits of an item flip (log 11). -/
def Book.upset (b : Book) (u : Upset) : Book :=
  if !b.holds u.item then b
  else
    let old := (b.bss.errorOf u.item).getD { item := u.item, soft := 0, hard := false, tagLost := false, known := false }
    let e :=
      { old with
        soft := old.soft + u.soft, hard := old.hard || u.hard, tagLost := old.tagLost || (u.hard && u.tagLost)
        known := old.known && !(u.hard && liveItem u.item) }
    b.withBss { b.bss.fresh u.item with errors := (b.bss.fresh u.item).errors ++ [e] }

/-- R170, R171. -/
def Book.patrolItem (b : Book) (l : List Upset) : Book :=
  let b := b.patrolHere
  l.foldl Book.upset (b.withBss b.bss.advance)

/-! ## Reports -/

/-- R169: a patrol report is acted on while the item still holds the uncorrectable word (log 12). -/
def Book.takeReport (b : Book) (i : StoreItem) : Book :=
  match b.bss.errorOf i with
  | none => b
  | some e =>
    if !e.hard then b
    else match i with
      | .liveRow room d => b.rowLost .patrol room d
      | .draftRow room d => if (b.draftRow room d).any (·.damaged) then b else b.draftRowLost .patrol room d
      | .record n => b.recordLost .patrol n false false
      | .index n => b.recordLost .patrol n true ((b.bss.errorOf (.record n)).any (·.tagLost))

/-- R169. -/
def Book.storeErrorReport (b : Book) : Book :=
  match b.mail.bssToBke with
  | [] => b
  | r :: rest => (b.withMail { b.mail with bssToBke := rest }).takeReport r.item

/-! ## Rebuilds -/

/-- R173: the SOUND live records that write row `x` of a date. -/
def Book.rowWriters (b : Book) (x : Nat) (d : Date) : List Record :=
  (b.sound.map (·.2)).filter fun r =>
    r.edition == .live && r.date == d && (candidateRooms b.bke.rooms x).contains r.room

/-- R173: the cells derived from the records. -/
def Book.derivedCells (b : Book) (x : Nat) (d : Date) : List Cell :=
  (b.rowWriters x d).foldl (fun cs r => applyPatches (r.patches x) cs) freeCells

/-- R173: the DAMAGED records counted against row `x` of a date. -/
def Book.countedDamage (b : Book) (x : Nat) (d : Date) : List Damaged :=
  (b.damagedRecords.map (·.2)).filter fun y =>
    y.place.any (fun p => p.2 == d && (candidateRooms b.bke.rooms x).contains p.1) && !b.isDraftId y.known

/-- The lowest id of a list of damaged records. -/
def lowestId (l : List Damaged) : Option Nat := (sortBy (fun n => n) (l.filterMap (·.id))).head?

/-- R173, R175: the completion of the rebuild of a REBUILDING row. The notice is posted first, then the replies in the order
of waiting (log 103). -/
def Book.completeRebuild (b : Book) (r : Row) : Book :=
  let l := b.countedDamage r.room r.date
  let state := if l.isEmpty then RowState.good else .quarantined
  let r' := { r with cells := b.derivedCells r.room r.date, version := r.version + 1, state := state }
  let b := (b.putRow r').fresh (.liveRow r.room r.date)
  let b := (b.postRowState r' .rebuilding .rebuilt (if l.isEmpty then none else some (l.length, lowestId l))).tellRow r'
  b.answerWaiters (fun w => w.room == r.room && w.date == r.date)
    (Answer.ok (.rebuilt r.room (b.code r.room) r.date state r'.version l.length))

/-- R173: the rebuild reads the booking table. -/
def Book.readTable (b : Book) : Book := b.bke.records.keys.foldl (fun b n => b.readSlot .rebuild n) b

/-- R173, R174: the rebuild of a row ends: an uncorrectable word of the row that it is the first to find restarts it. -/
def Book.rebuildCompletion (b : Book) (room : Nat) (d : Date) : Book :=
  match b.row room d with
  | none => b
  | some r =>
    if r.state ≠ .rebuilding then b
    else
      let b := b.readTable
      match b.bss.errorOf (.liveRow room d) with
      | some e =>
        if e.hard && !e.known then b.readLive .rebuild room d else (b.withBss (b.bss.correct e)).completeRebuild r
      | none => b.completeRebuild r

/-- R175: REBUILD_ROW; its reply waits for the completion. -/
def Book.rebuildRow (b : Book) (c : Ctx) (room : Nat) (d : Date) : Book :=
  let checks :=
    [(b.bke.horizon.isNone, Answer.of .clockUnset),
     (decide (383 < room) || (b.offset d).isNone, Answer.of .badRequest),
     ((b.room room).isNone, Answer.because .notFound .room)]
  match firstFail checks with
  | some a => b.reply c a
  | none =>
    let b := b.startRebuild .hostRequest room d
    b.withBke { b.bke with waiters := b.bke.waiters ++ [{ ctx := c, room := room, date := d }] }

/-! ## FORGET_BOOKING and READ_SCRUB -/

/-- R176 step 1: the slot a FORGET_BOOKING names; NOT_FOUND or BAD_REQUEST otherwise. -/
def Book.forgetSlot (b : Book) (id slot : Option Nat) : Except Answer Nat :=
  let bad := Answer.of .badRequest
  let missing := Answer.of .notFound
  match id, slot with
  | some i, none =>
    if i = 0 ∨ 65535 < i then .error bad
    else match b.slotOf i with
      | some n => .ok n
      | none => .error missing
  | none, some n => if 4095 < n then .error bad else if (b.slot n).isSome then .ok n else .error missing
  | _, _ => .error bad

/-- R36, R86, R145, R163, R176: the forget of a damaged record. The lists it leaves, the order and the run that end are its
own, also where its id can no longer be read (logs 58 and 78). The count holds every row of the family that stands on the
date, also one that was REBUILDING already (log 99); their notices go by the order of the family (log 102). -/
def Book.forgetDamaged (b : Book) (n : Nat) (x : Damaged) : Book × Answer :=
  let rows := if b.isDraftId x.known then [] else (b.placeRows x.place).filter fun p => (b.row p.1 p.2).isSome
  let b := ((b.retireSlot n x.own).tellCsc x.own .forgotten).inClaim fun q => q.abortLost x
  let b := rows.foldl (fun b p => b.startRebuild .forget p.1 p.2) b
  (b, Answer.ok (.forgotten x.known x.place (b.placeCode x.place) rows.length))

/-- R176: FORGET_BOOKING. That a record is SOUND is seen without a read of it (log 100). -/
def Book.forget (b : Book) (id slot : Option Nat) : Book × Answer :=
  match b.forgetSlot id slot with
  | .error a => (b, a)
  | .ok n => match b.slot n with
    | some (.damaged x) => b.forgetDamaged n x
    | _ => (b, Answer.because .refused .sound)

/-- R177: the names of the patrol position in the reply. -/
def placeFields : PatrolPlace → (Nat × Nat) × Bool
  | .row room offset => ((room, offset), true)
  | .slot n => ((n, 0), false)

/-- R177. -/
def Book.scrubReply (b : Book) : Answer :=
  let p := placeFields (patrolPlace b.bss.position)
  let rows := b.bke.rows.values
  let l := b.damagedRecords
  Answer.ok
    (.scrub b.bss.passes b.bss.position p.1 p.2 b.bss.corrected b.bss.uncorrectable
      (rows.countP fun r => r.state == .rebuilding) (rows.countP fun r => r.state == .quarantined) l.length
      (l.countP fun x => x.2.place.isNone) b.bke.draft.damaged)

/-- PATROL_ITEM (R170). -/
def execPatrolItem (upsets : List Upset) (s : State) : Outcome := onBook (fun _ b => b.patrolItem upsets) s

/-- STORE_ERROR_REPORT (R169). -/
def execStoreErrorReport (s : State) : Outcome := onBook (fun _ b => b.storeErrorReport) s

/-- REBUILD_COMPLETION (R173). -/
def execRebuildCompletion (room : Nat) (d : Date) (s : State) : Outcome :=
  onBook (fun _ b => b.rebuildCompletion room d) s

/-- REBUILD_ROW (R175). -/
def execRebuildRow (s : State) : Outcome :=
  onBook (fun _ b => b.serve .bke fun q c b => match q with
    | .rebuildRow room d => some (b.rebuildRow c room d)
    | _ => none) s

/-- FORGET_BOOKING (R176). -/
def execForgetBooking (s : State) : Outcome :=
  onBook (fun _ b => b.serve .bke fun q c b => match q with
    | .forgetBooking id slot => some (b.answer c fun b => b.forget id slot)
    | _ => none) s

/-- READ_SCRUB (R177). -/
def execReadScrub (s : State) : Outcome :=
  onBook (fun _ b => b.serve .bss fun q c b => match q with
    | .readScrub => some (b.reply c b.scrubReply)
    | _ => none) s

end Sys2Proof.Machine
end

