-- ==== Sys2Proof/Machine/SiteItems.lean ====
section
/-! DEFINITION. The items of the committed site configuration (12, R192, R193): their keys, and the ranges of keys and
fields. -/

namespace Sys2Proof

/-- R129: the capacity of each of the 32 windows. -/
def CapacityField.windows : CapacityField → List Nat
  | .one n => List.replicate 32 n
  | .profile l => l

/-! ## Keys and fields of a put -/

def within (low high n : Nat) : Bool := decide (low ≤ n) && decide (n ≤ high)

def Item.key : Item → ItemKey
  | .room x _ => .room x
  | .combined x _ => .combined x
  | .kitchen k _ => .kitchen k
  | .template n _ => .template n
  | .station g a _ => .station g a
  | .group g _ => .group g
  | .settings _ => .settings

def PutBody.key : PutBody → ItemKey
  | .put i => i.key
  | .remove k => k
  | .outOfRange => .unknown

/-- R192: the key lies in its range. -/
def ItemKey.inRange : ItemKey → Bool
  | .room x => decide (x ≤ 383)
  | .combined x => decide (x ≤ 383)
  | .kitchen k => decide (k ≤ 5)
  | .template n => decide (n ≤ 7)
  | .station g a => decide (g ≤ 3) && within 1 48 a
  | .group g => decide (g ≤ 31)
  | .settings => true
  | .unknown => false

/-- R15, R192: the fields of a ROOM; a combined room is present for a PART only (log 35). -/
def RoomItem.fieldsOk (i : RoomItem) : Bool :=
  decide (i.building ≤ 15) && decide (i.floor ≤ 63) && within 1 500 i.seats && i.grace.all (within 5 30) &&
    i.kitchen.all (fun k => decide (k ≤ 5)) && i.template.all (fun n => decide (n ≤ 7)) && decide (i.group ≤ 31) &&
    i.combined.all (fun x => decide (x ≤ 383)) && ((i.kind == .part) == i.combined.isSome)

/-- R192: 2 to 4 room indices, none repeated (R193). -/
def partsOk (l : List Nat) : Bool := within 2 4 l.length && l.all (fun x => decide (x ≤ 383)) && decide l.Nodup

def CapacityField.ok : CapacityField → Bool
  | .one n => decide (n ≤ 500)
  | .profile l => l.length == 32 && l.all fun n => decide (n ≤ 500)

/-- R152. -/
def StepDef.ok (s : StepDef) : Bool :=
  decide (-60 ≤ s.offset) && decide (s.offset ≤ 120) &&
    match s.action with
    | .showOverlay m => within 1 15 m
    | .notify c => decide (c ≤ 255)
    | _ => true

/-- R152. -/
def Template.ok (t : Template) : Bool :=
  decide (t.buffer ≤ 2) && within 1 16 t.steps.length && t.steps.all StepDef.ok

def StationItem.ok (i : StationItem) : Bool :=
  match i.type with
  | .panel => decide (i.binding ≤ 383)
  | .terminal => decide (i.binding ≤ 5)

def Settings.ok (x : Settings) : Bool :=
  within 1 30 x.holdMinutes && within 1 10 x.pollPeriod && within 5 30 x.graceDefault

/-- R192: every field of an item lies in its range. -/
def Item.fieldsOk : Item → Bool
  | .room _ i => i.fieldsOk
  | .combined _ l => partsOk l
  | .kitchen _ i => i.capacity.ok && within 30 240 i.cutOff
  | .template _ t => t.ok
  | .station _ _ i => i.ok
  | .group _ _ => true
  | .settings x => x.ok

/-- R193 step 3. -/
def PutBody.ok : PutBody → Bool
  | .put i => i.key.inRange && i.fieldsOk
  | .remove k => k.inRange && k != .settings
  | .outOfRange => false

/-- The place of a key's kind in the list of R192. -/
def ItemKey.kindIndex : ItemKey → Nat
  | .room _ => 0 | .combined _ => 1 | .kitchen _ => 2 | .template _ => 3 | .station _ _ => 4 | .group _ => 5
  | .settings => 6 | .unknown => 7

end Sys2Proof
end

