-- ==== Sys2Proof/Machine/Site.lean ====
section
/-! DEFINITION. The Site Configuration Store (12) and the two resets: staging, validation, the commit cycle, the load
of the committed set into every block, CONFIG_GET, and the completion of a read select, which may begin a RESTART. -/

namespace Sys2Proof.Machine

/-! ## Working tables of a set -/

/-- R15, R192: a working room record. -/
def roomOf (c : ConfigSet) (x : Nat) (i : RoomItem) : Room :=
  { code := i.code, building := i.building, floor := i.floor, seats := i.seats, bookable := i.bookable
    walkup := i.walkup, checkin := i.checkin, grace := i.grace.getD c.settings.graceDefault, kitchen := i.kitchen
    template := i.template, group := i.group, kind := i.kind
    parts := if i.kind = .combined then (c.combined.find x).getD [] else []
    combined := if i.kind = .part then i.combined else none }

def ConfigSet.roomTable (c : ConfigSet) : Table Room := c.rooms.mapValues (roomOf c)

/-- R192: the terminal station of a kitchen. -/
def ConfigSet.terminalOf (c : ConfigSet) (k : Nat) : Option (Nat × Nat) :=
  (c.stations.entries.find? fun e => e.2.type == .terminal && e.2.binding == k).map fun e => (e.1 / 64, e.1 % 64)

def ConfigSet.kitchenTable (c : ConfigSet) : Table Kitchen :=
  c.kitchens.mapValues fun k i => Kitchen.fresh i.capacity.windows i.cutOff (c.terminalOf k)

def ConfigSet.stationTable (c : ConfigSet) : Table Station :=
  c.stations.mapValues fun key i => Station.reset (key / 64) (key % 64) i

/-- R110: a page record after a reset. -/
def Page.reset (rm : Room) : Page :=
  { overlay := 0, release := none, reference := .beforeDay, content := .blank .notReady rm 0, version := 0 }

def ConfigSet.pageTable (c : ConfigSet) : Table Page := c.roomTable.mapValues fun _ rm => Page.reset rm

/-- R111: one view for each panel of the station table. -/
def ConfigSet.viewTable (c : ConfigSet) : Table PanelView :=
  (c.stations.keep fun i => i.type == .panel).mapValues fun key i => PanelView.reset (key / 64) (key % 64) i.binding

/-! ## Resets and the load -/

/-- R191, R194, R195: the committed set as it counts: that of memory, or the empty tables and factory settings while the
completion mark is INCOMPLETE (log 41). -/
def Cfs.loadSet (c : Cfs) : ConfigSet := if c.complete then c.committed else ConfigSet.blank

/-- R191: the configuration store after a reset. -/
def Cfs.loaded (c : Cfs) : Cfs := { c with valid := c.complete, staged := [], commit := none }

/-- R188, R191: the part after a reset of the given kind, with nonvolatile memory as the store holds it. -/
def State.load (kind : ResetKind) (c : Cfs) : State :=
  let w := c.loadSet
  { pending := []
    link := Link.reset
    ctu := Ctu.reset
    book :=
      { hmp := Hmp.reset kind, mail := Mail.reset, cfs := c.loaded
        bke := Bke.reset w.roomTable w.settings.holdMinutes, bss := Bss.reset, squ := Squ.reset w.templates
        csc := Csc.reset w.kitchenTable }
    ppu := Ppu.reset w.roomTable w.groups w.pageTable w.viewTable
    sbc := Sbc.reset w.stationTable w.settings.pollPeriod }

/-- R188: a reset keeps nonvolatile memory; the queue of commands is no part of the block. -/
def State.resetBy (kind : ResetKind) (s : State) : State := { State.load kind s.book.cfs with pending := s.pending }

/-! ## The end of a read select -/

/-- R183, R189: the chosen frame has been read completely. -/
def readComplete (s : State) : State :=
  match s.link.reading with
  | none => s
  | some r =>
    if s.book.hmp.restartRead r.yield then s.resetBy .restart
    else { s with link := s.link.readDone r, book := s.book.withHmp (s.book.hmp.frameRead r.yield) }

/-! ## The merged set -/

def ConfigSet.put (c : ConfigSet) : Item → ConfigSet
  | .room x i => { c with rooms := c.rooms.put x i }
  | .combined x l => { c with combined := c.combined.put x l }
  | .kitchen k i => { c with kitchens := c.kitchens.put k i }
  | .template n t => { c with templates := c.templates.put n t }
  | .station g a i => { c with stations := c.stations.put (stationKey g a) i }
  | .group g i => { c with groups := c.groups.put g i }
  | .settings x => { c with settings := x }

def ConfigSet.remove (c : ConfigSet) : ItemKey → ConfigSet
  | .room x => { c with rooms := c.rooms.drop x }
  | .combined x => { c with combined := c.combined.drop x }
  | .kitchen k => { c with kitchens := c.kitchens.drop k }
  | .template n => { c with templates := c.templates.drop n }
  | .station g a => { c with stations := c.stations.drop (stationKey g a) }
  | .group g => { c with groups := c.groups.drop g }
  | .settings => c
  | .unknown => c

def ConfigSet.apply (c : ConfigSet) : PutBody → ConfigSet
  | .put i => c.put i
  | .remove k => c.remove k
  | .outOfRange => c

/-- R195: the committed set with each staged put applied. -/
def ConfigSet.merge (c : ConfigSet) (l : List PutBody) : ConfigSet := l.foldl ConfigSet.apply c

/-- R192: the item of a key, if the set has one. -/
def ConfigSet.find (c : ConfigSet) : ItemKey → Option Item
  | .room x => (c.rooms.find x).map (.room x)
  | .combined x => (c.combined.find x).map (.combined x)
  | .kitchen k => (c.kitchens.find k).map (.kitchen k)
  | .template n => (c.templates.find n).map (.template n)
  | .station g a => (c.stations.find (stationKey g a)).map (.station g a)
  | .group g => (c.groups.find g).map (.group g)
  | .settings => some (.settings c.settings)
  | .unknown => none

/-! ## Validation (R195) -/

/-- What a validation reads: the committed set, the merged set and the live state. -/
structure Check where
  old : ConfigSet
  new : ConfigSet
  book : Book

/-- The part lists of the merged set that hold a room. -/
def ConfigSet.listsWith (c : ConfigSet) (x : Nat) : List (Nat × List Nat) :=
  c.combined.entries.filter fun e => e.2.contains x

/-- The room is a PART room of the set that names a combined room. -/
def ConfigSet.isPartOf (c : ConfigSet) (x whole : Nat) : Bool :=
  (c.rooms.find x).any fun r => r.kind == .part && r.combined == some whole

/-- R16, R195: the structure that a ROOM or COMBINED item of index `x` takes part in. -/
def ConfigSet.combinedOk (c : ConfigSet) (x : Nat) : Bool :=
  let isWhole := (c.rooms.find x).any fun r => r.kind == .combined
  let parts := (c.combined.find x).getD []
  let naming := (c.rooms.entries.filter fun e => e.2.kind == .part && e.2.combined == some x).map (·.1)
  (!isWhole || decide (c.combined.size ≤ Config.maxCombined)) && (isWhole == (c.combined.find x).isSome) &&
    parts.all (fun y => c.isPartOf y x && decide ((c.listsWith y).length ≤ 1)) &&
    naming.all (fun y => parts.contains y) &&
    (c.listsWith x).all (fun e => c.isPartOf x e.1) && decide ((c.listsWith x).length ≤ 1) &&
    (c.rooms.find x).all fun r =>
      r.kind != .part || r.combined.any fun w => (c.listsWith x).any fun e => e.1 == w

/-- R195: a ROOM names a kitchen and a template of the set. -/
def ConfigSet.roomBound (c : ConfigSet) (r : RoomItem) : Bool :=
  r.kitchen.all (fun k => c.kitchens.has k) && r.template.all (fun n => c.templates.has n)

/-- R195: a station is bound to a room or kitchen of the set. -/
def ConfigSet.stationBound (c : ConfigSet) (i : StationItem) : Bool :=
  match i.type with
  | .panel => c.rooms.has i.binding
  | .terminal => c.kitchens.has i.binding

/-- R195: the bindings that a put takes part in. -/
def ConfigSet.bindingOk (c : ConfigSet) : ItemKey → Bool
  | .room x =>
    (c.rooms.find x).all c.roomBound &&
      (c.rooms.has x || c.stations.values.all fun i => !(i.type == .panel && i.binding == x))
  | .kitchen k =>
    c.kitchens.has k ||
      (c.rooms.values.all (fun r => r.kitchen != some k) &&
        c.stations.values.all fun i => !(i.type == .terminal && i.binding == k))
  | .template n => c.templates.has n || c.rooms.values.all fun r => r.template != some n
  | .station g a => (c.stations.find (stationKey g a)).all c.stationBound
  | _ => true

/-- R195: at most 2 panels for a room and 1 terminal for a kitchen, a condition that STATION puts take part in (log 81). -/
def ConfigSet.stationsOk (c : ConfigSet) : ItemKey → Bool
  | .station g a =>
    (c.stations.find (stationKey g a)).all fun i =>
      let n := (c.stations.values.filter fun j => j.type == i.type && j.binding == i.binding).length
      decide (n ≤ if i.type = .panel then 2 else 1)
  | _ => true

/-- R17, R195: a room of the old set is removed, or its kind or its part list changed. -/
def roomReshaped (old new : ConfigSet) (x : Nat) : Bool :=
  match old.rooms.find x with
  | none => false
  | some r =>
    (new.rooms.find x).map (·.kind) != some r.kind ||
      (r.kind == .combined && old.combined.find x != new.combined.find x)

/-- R87: the room has a draft record or a marked record, in whatever state and condition; one whose room is unknown names
no room (log 32). -/
def Book.roomDrafted (b : Book) (x : Nat) : Bool :=
  b.bke.records.values.any fun r => b.inDraft r.id && r.place.any fun p => p.1 == x

/-- R195: the room has a record in an active state or is named by a series. -/
def Book.roomBooked (b : Book) (x : Nat) : Bool :=
  (b.sound.any fun p => p.2.room == x && p.2.state.active) || b.bke.series.values.any fun s => s.room == x

/-- R87, R195: IN_USE/ROOM_BOOKED, over the family the room has in the working directory; the draft records and the marked
records are those of the room itself. -/
def Check.roomFree (k : Check) (x : Nat) : Bool :=
  !roomReshaped k.old k.new x ||
    !k.book.roomDrafted x && (rowFamily k.book.bke.rooms x).all fun y => !k.book.roomBooked y

/-- R195: IN_USE/KITCHEN. -/
def Check.kitchenFree (k : Check) (n : Nat) : Bool :=
  k.new.kitchens.has n || k.book.csc.orders.values.all fun o => o.kitchen != n

/-- R195: IN_USE/CAPACITY. -/
def Check.capacityFits (k : Check) (n : Nat) : Bool :=
  (k.new.kitchens.find n).all fun i =>
    k.book.csc.capacity.values.all fun e =>
      e.kitchen != n || e.closed || decide (e.committed ≤ (i.capacity.windows[e.window]?).getD 0)

/-- R195: a remove names a key of the committed set. -/
def Check.keyKnown (k : Check) : PutBody → Bool
  | .remove key => (k.old.find key).isSome
  | _ => true

/-- R195: the conditions one put takes part in, in the order of the table; true where the condition holds. -/
def Check.conditions (k : Check) (p : PutBody) : List (Bool × Answer) :=
  let room (f : Nat → Bool) : Bool := match p.key with
    | .room x => f x
    | .combined x => f x
    | _ => true
  let kitchen (f : Nat → Bool) : Bool := match p.key with
    | .kitchen n => f n
    | _ => true
  [(k.keyKnown p, Answer.because .refused .key),
   (room k.new.combinedOk, Answer.because .refused .combined),
   (k.new.bindingOk p.key, Answer.because .refused .binding),
   (k.new.stationsOk p.key, Answer.because .refused .stations),
   (room k.roomFree, Answer.because .inUse .roomBooked),
   (kitchen k.kitchenFree, Answer.because .inUse .kitchen),
   (kitchen k.capacityFits, Answer.because .inUse .capacity)]

/-- R195: the first condition that a put fails. -/
def Check.failure (k : Check) (p : PutBody) : Option Answer :=
  firstFail ((k.conditions p).map fun c => (!c.1, c.2))

/-- R195: the first put to fail, with its index, in put-index order. -/
def Check.firstFailure (k : Check) : Nat → List PutBody → Option Answer
  | _, [] => none
  | i, p :: l =>
    match k.failure p with
    | some a => some { a with data := .putIndex i }
    | none => k.firstFailure (i + 1) l

/-! ## The commit cycle -/

/-- R197: what one put does to the counts of its kind. -/
def Tally.count (old : ConfigSet) (t : Tally) (p : PutBody) : Tally :=
  match p with
  | .put i => if (old.find i.key).isSome then { t with changed := t.changed + 1 } else { t with added := t.added + 1 }
  | .remove _ => { t with removed := t.removed + 1 }
  | .outOfRange => t

/-- R197: for each kind, the counts of items added, changed and removed. -/
def tallies (old : ConfigSet) (l : List PutBody) : List Tally :=
  (List.range 7).map fun k =>
    (l.filter fun p => p.key.kindIndex == k).foldl (Tally.count old) { added := 0, changed := 0, removed := 0 }

/-- R196 step 1: the rooms handed to the BKE. -/
def guardedRooms (old new : ConfigSet) : List Nat := old.rooms.keys.filter (roomReshaped old new)

/-- R196 step 1: the kitchens removed, and those whose capacity changed, handed to the CSC. -/
def guardedKitchens (old new : ConfigSet) : List Nat :=
  (old.kitchens.entries.filter fun e =>
    (new.kitchens.find e.1).map (·.capacity.windows) != some e.2.capacity.windows).map (·.1)

/-- R196 step 1: the commit cycle begins. -/
def Book.beginCommit (b : Book) (ctx : Ctx) (new : ConfigSet) : Book :=
  let old := b.cfs.loadSet
  let b := b.withBke { b.bke with guard := guardedRooms old new }
  let b := b.withCsc { b.csc with guard := guardedKitchens old new }
  b.withCfs
    { b.cfs with
      complete := false
      commit := some
        { ctx := ctx, merged := new, puts := b.cfs.staged.length, tallies := tallies old b.cfs.staged
          written := false, waiting := [] } }

/-- R195: the whole staged set is validated. -/
def Book.validate (b : Book) (ctx : Ctx) : Book :=
  let new := b.cfs.loadSet.merge b.cfs.staged
  match ({ old := b.cfs.loadSet, new := new, book := b } : Check).firstFailure 1 b.cfs.staged with
  | some a => b.reply ctx a
  | none => b.beginCommit ctx new

/-- R192: the grace default a ROOM put takes: that of the staged SETTINGS, else that of the committed set. -/
def Cfs.graceDefault (c : Cfs) : Nat :=
  (c.staged.findSome? fun p => match p with
    | .put (.settings x) => some x.graceDefault
    | _ => none).getD c.loadSet.settings.graceDefault

/-- R192: a ROOM put that leaves out grace minutes takes the default. -/
def Cfs.filled (c : Cfs) : PutBody → PutBody
  | .put (.room x i) => .put (.room x { i with grace := some (i.grace.getD c.graceDefault) })
  | p => p

/-- R193: the checks of a put. -/
def Cfs.putCheck (c : Cfs) (m : Mark) (p : PutBody) : Option Answer :=
  firstFail
    [(c.commit.isSome, Answer.because .busy .commit),
     (m == .sole, Answer.because .badRequest .batch),
     (!p.ok, Answer.because .badRequest .field),
     (c.staged.any fun q => q.key == p.key, Answer.because .refused .key),
     (decide (Config.maxStaged ≤ c.staged.length), Answer.because .full .staged)]

/-- R193: CONFIG_PUT. -/
def Book.configPut (b : Book) (ctx : Ctx) (p : PutBody) : Book :=
  match b.cfs.putCheck ctx.mark p with
  | some a => b.reply ctx a
  | none =>
    let b := b.withCfs { b.cfs with staged := b.cfs.staged ++ [b.cfs.filled p] }
    if ctx.mark = .last then b.validate ctx else b.reply ctx (Answer.ok (.putIndex b.cfs.staged.length))

/-- R196 step 2. -/
def Book.commitWrite (b : Book) : Book :=
  match b.cfs.commit with
  | none => b
  | some c =>
    if c.written then b
    else
      b.withCfs
        { b.cfs with
          committed := c.merged, complete := true, commitNumber := b.cfs.commitNumber + 1
          commit := some { c with written := true, waiting := [.bke, .sbc, .ppu, .csc, .squ] } }

/-- R196 step 3: the new set, when the owner has yet to take it, and the book once it has. -/
def Book.takeSet (b : Book) (o : TableOwner) : Option (ConfigSet × Book) :=
  match b.cfs.commit with
  | none => none
  | some c =>
    if c.waiting.contains o then
      some (c.merged, b.withCfs { b.cfs with commit := some { c with waiting := c.waiting.erase o } })
    else none

/-- R196 step 4. -/
def Book.commitEnd (b : Book) : Book :=
  match b.cfs.commit with
  | none => b
  | some c =>
    if c.written && c.waiting.isEmpty then
      let b := b.withBke { b.bke with guard := [] }
      let b := b.withCsc { b.csc with guard := [] }
      let b := b.withCfs { b.cfs with valid := true, staged := [], commit := none }
      (b.post (.configApplied true b.cfs.commitNumber c.puts c.tallies)).reply c.ctx (Answer.of .ok)
    else b

/-! ## New tables at each block -/

/-- R17: a room of the directory is removed, or its own kind or part list changed. A PART whose kind stays PART, kept in an
edited part list or moved to another combined room, is not among them and keeps its RESERVED buffers (log 57). -/
def directoryReshaped (old new : Table Room) (x : Nat) : Bool :=
  match old.find x with
  | none => false
  | some r => (new.find x).map (·.kind) != some r.kind || (new.find x).map (·.parts) != some r.parts

/-- R17, R168: the RESERVED buffer of the record in a slot is released, once read; a lost record is passed over (log 46). -/
def Book.releaseRead (b : Book) (n : Nat) : Book :=
  let b := b.readSlot .demand n
  match b.soundAt n with
  | some r => b.releaseBuf n r
  | none => b

/-- R17: the RESERVED buffers of the terminal records of the rooms given are released, in record slot order, in which the
PPU is told of them too (log 85). -/
def Book.releaseBuffers (b : Book) (rooms : List Nat) : Book :=
  (b.sound.filter fun p =>
    p.2.edition == .live && p.2.bufState == .reserved && rooms.contains p.2.room).foldl
    (fun b p => b.releaseRead p.1) b

/-- R17: the rows of a removed room are dropped; a rebuild is abandoned with its row. -/
def Book.dropRow (b : Book) (r : Row) : Book :=
  (b.withBke { b.bke with rows := b.bke.rows.drop (rowKey r.room r.date) }).fresh (.liveRow r.room r.date)

/-- R17: the new directory taken. -/
def Book.takeDirectory (b : Book) (new : Table Room) : Book :=
  let old := b.bke.rooms
  let reshaped := old.keys.filter (directoryReshaped old new)
  let b := b.releaseBuffers reshaped
  let b := (b.bke.rows.values.filter fun r => !new.has r.room).foldl Book.dropRow b
  let b := (b.bke.draft.rows.values.filter fun r => reshaped.contains r.room).foldl Book.dropDraftRow b
  let b := b.withBke { b.bke with rooms := new }
  match b.bke.horizon with
  | none => b
  | some h => (new.keys.filter fun x => !old.has x).foldl (fun b x => b.createRows x h.dates) b

/-- R17, R87, R175, R197: the BKE takes its new tables. -/
def Book.bkeTables (b : Book) : Book :=
  match b.takeSet .bke with
  | none => b
  | some (c, b) =>
    let new := c.roomTable
    let b := b.claim fun b => b.takeDirectory new
    let b := b.withBke { b.bke with holdMinutes := c.settings.holdMinutes }
    b.answerWaiters (fun w => !new.has w.room) (Answer.because .notFound .room)

/-- R109: the SBC takes its new station set and poll period. -/
def sbcTables (t : Ctu) (b : Book) (x : Sbc) : Book × Sbc :=
  match b.takeSet .sbc with
  | none => (b, x)
  | some (c, b) => takeStations c.stations c.settings.pollPeriod t b x

/-- R149: the CSC takes its new kitchens. -/
def Book.cscTables (t : Ctu) (b : Book) : Book :=
  match b.takeSet .csc with
  | none => b
  | some (c, b) => b.takeKitchens t c.kitchenTable

/-- R152: the SQU takes its new templates. -/
def Book.squTables (b : Book) : Book :=
  match b.takeSet .squ with
  | none => b
  | some (c, b) => b.withSqu (b.squ.takeTemplates c.templates)

/-- R128: pages of removed rooms dropped, pages of added rooms created. -/
def Ppu.takeRooms (p : Ppu) (rooms : Table Room) : Ppu :=
  { p with rooms := rooms, pages := rooms.mapValues fun x rm => (p.pages.find x).getD (Page.reset rm) }

/-- R128: a latch wait loses the groups that are no longer LATCHED. -/
def Ppu.trimWaits (p : Ppu) : List LatchWait :=
  p.waits.map fun w => { w with groups := w.groups.filter p.isLatched }

/-- R128: a LATCH_GROUPS whose wait is removed is answered OK/EMPTY. -/
def waitDropped (b : Book) (w : LatchWait) : Book :=
  match w.ctx with
  | some c => b.reply c (Answer.because .ok .empty)
  | none => b

/-- R128: the waits left with no group are removed without a latch. -/
def dropWaits (b : Book) (p : Ppu) : Book × Ppu :=
  ((p.trimWaits.filter fun w => w.groups.isEmpty).foldl waitDropped b,
    { p with waits := p.trimWaits.filter fun w => !w.groups.isEmpty })

/-- R128: the PPU takes its new rooms and groups. -/
def ppuTables (t : Ctu) (b : Book) (p : Ppu) : Book × Ppu :=
  match b.takeSet .ppu with
  | none => (b, p)
  | some (c, b) => buildAll t .wholePage (dropWaits b { p.takeRooms c.roomTable with groups := c.groups })

/-! ## CONFIG_GET -/

/-- R194: the committed items of a kind from a key on, with their keys. -/
def itemsFrom {α : Type} (t : Table α) (n : Nat) (f : Nat → α → Item) : List Item :=
  (t.entries.filter fun e => decide (n ≤ e.1)).map fun e => f e.1 e.2

/-- R194: the committed items of the key's kind whose keys are at or above it, in key order. -/
def ConfigSet.from (c : ConfigSet) : ItemKey → List Item
  | .room x => itemsFrom c.rooms x .room
  | .combined x => itemsFrom c.combined x .combined
  | .kitchen k => itemsFrom c.kitchens k .kitchen
  | .template n => itemsFrom c.templates n .template
  | .station g a => itemsFrom c.stations (stationKey g a) fun key i => .station (key / 64) (key % 64) i
  | .group g => itemsFrom c.groups g .group
  | .settings => [.settings c.settings]
  | .unknown => []

/-- R194: the settings' further fields. -/
def Cfs.settingsExtra (c : Cfs) : Item → Option (Nat × Bool × Half)
  | .settings _ => some (Config.earlyMinutes, c.valid, c.commitNumber)
  | _ => none

/-- R194: the answer to CONFIG_GET. An item kind that names none is answered as a key out of range (log 80). -/
def Cfs.getAnswer (c : Cfs) (key : ItemKey) (next : Bool) : Answer :=
  if c.commit.isSome then Answer.because .busy .commit
  else if !key.inRange then Answer.of .badRequest
  else if next then
    match c.loadSet.from key with
    | [] => Answer.of .notFound
    | i :: l => Answer.ok (.item i (l.head?.map (·.key)) (c.settingsExtra i))
  else
    match c.loadSet.find key with
    | none => Answer.of .notFound
    | some i => Answer.ok (.item i none (c.settingsExtra i))

/-! ## The steps -/

/-- POWER_ON_RESET (R188, R191). -/
def execPowerOnReset (s : State) : Outcome := .next (s.resetBy .powerOn)

/-- LINK_READ_COMPLETE (R183, R184, R189). -/
def execLinkReadComplete (s : State) : Outcome := .next (readComplete s)

/-- CONFIG_PUT (R193, R195). -/
def execConfigPut (s : State) : Outcome :=
  onBook (fun _ b => b.serve .cfs fun q c b => match q with
    | .configPut p => some (b.configPut c p)
    | _ => none) s

/-- CONFIG_GET (R194). -/
def execConfigGet (s : State) : Outcome :=
  onBook (fun _ b => b.serve .cfs fun q c b => match q with
    | .configGet key next => some (b.reply c (b.cfs.getAnswer key next))
    | _ => none) s

/-- COMMIT_WRITE (R196). -/
def execCommitWrite (s : State) : Outcome := onBook (fun _ b => b.commitWrite) s

/-- BKE_CONFIG_TABLES (R17, R87). -/
def execBkeConfigTables (s : State) : Outcome := onBook (fun _ b => b.bkeTables) s

/-- SBC_CONFIG_TABLES (R109). -/
def execSbcConfigTables (s : State) : Outcome := onSbc sbcTables s

/-- PPU_CONFIG_TABLES (R128). -/
def execPpuConfigTables (s : State) : Outcome := onPpu ppuTables s

/-- CSC_CONFIG_TABLES (R149). -/
def execCscConfigTables (s : State) : Outcome := onBook Book.cscTables s

/-- SQU_CONFIG_TABLES (R152). -/
def execSquConfigTables (s : State) : Outcome := onBook (fun _ b => b.squTables) s

/-- COMMIT_END (R196, R197). -/
def execCommitEnd (s : State) : Outcome := onBook (fun _ b => b.commitEnd) s

end Sys2Proof.Machine
end

