-- ==== Sys2Proof/Machine/Dispatch.lean ====
section
/-! DEFINITION. One arm for each command: its meaning. -/

namespace Sys2Proof.Machine

/-- The command's effect on everything but the queue. -/
def exec (i : Instr) (s : State) : Host.Outcome State Fault Refusal :=
  match i with
  | .powerOnReset => Sys2Proof.Machine.execPowerOnReset s
  | .hello => Sys2Proof.Machine.execHello s
  | .frameHeaderReceived header => Sys2Proof.Machine.execFrameHeaderReceived header s
  | .linkWriteSelectEnd bytes reading => Sys2Proof.Machine.execLinkWriteSelectEnd bytes reading s
  | .linkReadSelect => Sys2Proof.Machine.execLinkReadSelect s
  | .linkReadComplete => Sys2Proof.Machine.execLinkReadComplete s
  | .takeRequest => Sys2Proof.Machine.execTakeRequest s
  | .readIdentity => Sys2Proof.Machine.execReadIdentity s
  | .restart => Sys2Proof.Machine.execRestart s
  | .restartReply => Sys2Proof.Machine.execRestartReply s
  | .minuteCompletion => Sys2Proof.Machine.execMinuteCompletion s
  | .dayOpened => Sys2Proof.Machine.execDayOpened s
  | .setClock => Sys2Proof.Machine.execSetClock s
  | .clockSetComplete => Sys2Proof.Machine.execClockSetComplete s
  | .trimClock => Sys2Proof.Machine.execTrimClock s
  | .trimComplete => Sys2Proof.Machine.execTrimComplete s
  | .readClock => Sys2Proof.Machine.execReadClock s
  | .bkeHorizonOpen => Sys2Proof.Machine.execBkeHorizonOpen s
  | .bkeDayRetire => Sys2Proof.Machine.execBkeDayRetire s
  | .bkeSlotBoundary => Sys2Proof.Machine.execBkeSlotBoundary s
  | .holdLapse => Sys2Proof.Machine.execHoldLapse s
  | .noShow => Sys2Proof.Machine.execNoShow s
  | .closeCells => Sys2Proof.Machine.execCloseCells s
  | .readRow => Sys2Proof.Machine.execReadRow s
  | .findFree => Sys2Proof.Machine.execFindFree s
  | .hold => Sys2Proof.Machine.execHold s
  | .confirm => Sys2Proof.Machine.execConfirm s
  | .book => Sys2Proof.Machine.execBook s
  | .load => Sys2Proof.Machine.execLoad s
  | .cancel => Sys2Proof.Machine.execCancel s
  | .move => Sys2Proof.Machine.execMove s
  | .extend => Sys2Proof.Machine.execExtend s
  | .endNow => Sys2Proof.Machine.execEndNow s
  | .checkIn => Sys2Proof.Machine.execCheckIn s
  | .readBooking => Sys2Proof.Machine.execReadBooking s
  | .panelCheckIn => Sys2Proof.Machine.execPanelCheckIn s
  | .panelWalkup => Sys2Proof.Machine.execPanelWalkup s
  | .panelEnd => Sys2Proof.Machine.execPanelEnd s
  | .panelExtend => Sys2Proof.Machine.execPanelExtend s
  | .releaseBuffer => Sys2Proof.Machine.execReleaseBuffer s
  | .seriesCreate => Sys2Proof.Machine.execSeriesCreate s
  | .seriesCancel => Sys2Proof.Machine.execSeriesCancel s
  | .readSeries => Sys2Proof.Machine.execReadSeries s
  | .setEditions => Sys2Proof.Machine.execSetEditions s
  | .readEditions => Sys2Proof.Machine.execReadEditions s
  | .publish => Sys2Proof.Machine.execPublish s
  | .discard => Sys2Proof.Machine.execDiscard s
  | .order => Sys2Proof.Machine.execOrder s
  | .orderPlacementClaim => Sys2Proof.Machine.execOrderPlacementClaim s
  | .orderChange => Sys2Proof.Machine.execOrderChange s
  | .orderCancel => Sys2Proof.Machine.execOrderCancel s
  | .readOrder => Sys2Proof.Machine.execReadOrder s
  | .readCapacity => Sys2Proof.Machine.execReadCapacity s
  | .readWaitlist => Sys2Proof.Machine.execReadWaitlist s
  | .cscHorizonOpen => Sys2Proof.Machine.execCscHorizonOpen s
  | .cscDayRetire => Sys2Proof.Machine.execCscDayRetire s
  | .cscDayOpen => Sys2Proof.Machine.execCscDayOpen s
  | .cscSlotBoundary => Sys2Proof.Machine.execCscSlotBoundary s
  | .cscMinute => Sys2Proof.Machine.execCscMinute s
  | .cutOff => Sys2Proof.Machine.execCutOff s
  | .cscBookingChange => Sys2Proof.Machine.execCscBookingChange s
  | .pickupCall => Sys2Proof.Machine.execPickupCall s
  | .terminalLinkChange segment => Sys2Proof.Machine.execTerminalLinkChange segment s
  | .ticketDelivered segment => Sys2Proof.Machine.execTicketDelivered segment s
  | .ticketNotDelivered segment => Sys2Proof.Machine.execTicketNotDelivered segment s
  | .callDelivered segment => Sys2Proof.Machine.execCallDelivered segment s
  | .callNotDelivered segment => Sys2Proof.Machine.execCallNotDelivered segment s
  | .slotFree segment => Sys2Proof.Machine.execSlotFree segment s
  | .terminalEvent segment => Sys2Proof.Machine.execTerminalEvent segment s
  | .cartArrived => Sys2Proof.Machine.execCartArrived s
  | .ppuHorizonOpen => Sys2Proof.Machine.execPpuHorizonOpen s
  | .ppuDayRetire => Sys2Proof.Machine.execPpuDayRetire s
  | .ppuDayOpen => Sys2Proof.Machine.execPpuDayOpen s
  | .morningBuild => Sys2Proof.Machine.execMorningBuild s
  | .preBoundary => Sys2Proof.Machine.execPreBoundary s
  | .ppuSlotBoundary => Sys2Proof.Machine.execPpuSlotBoundary s
  | .dayEnd => Sys2Proof.Machine.execDayEnd s
  | .ppuMinute => Sys2Proof.Machine.execPpuMinute s
  | .latchWaitExpiry => Sys2Proof.Machine.execLatchWaitExpiry s
  | .latchGroups => Sys2Proof.Machine.execLatchGroups s
  | .readPage => Sys2Proof.Machine.execReadPage s
  | .ppuBookingChange => Sys2Proof.Machine.execPpuBookingChange s
  | .ppuRowStateChange => Sys2Proof.Machine.execPpuRowStateChange s
  | .publishCompletion => Sys2Proof.Machine.execPublishCompletion s
  | .showOverlay => Sys2Proof.Machine.execShowOverlay s
  | .clearOverlay => Sys2Proof.Machine.execClearOverlay s
  | .latchStep => Sys2Proof.Machine.execLatchStep s
  | .panelLinkChange segment => Sys2Proof.Machine.execPanelLinkChange segment s
  | .pageDelivered segment => Sys2Proof.Machine.execPageDelivered segment s
  | .pageItemRefused segment => Sys2Proof.Machine.execPageItemRefused segment s
  | .latchBroadcastRecord segment => Sys2Proof.Machine.execLatchBroadcastRecord segment s
  | .shownVersionReport segment => Sys2Proof.Machine.execShownVersionReport segment s
  | .panelEvent segment => Sys2Proof.Machine.execPanelEvent segment s
  | .panelOutcome source => Sys2Proof.Machine.execPanelOutcome source s
  | .resultNotSent segment => Sys2Proof.Machine.execResultNotSent segment s
  | .squHorizonOpen => Sys2Proof.Machine.execSquHorizonOpen s
  | .squDayRetire => Sys2Proof.Machine.execSquDayRetire s
  | .squDayOpen => Sys2Proof.Machine.execSquDayOpen s
  | .squMinute => Sys2Proof.Machine.execSquMinute s
  | .stepFiring => Sys2Proof.Machine.execStepFiring s
  | .catchUp => Sys2Proof.Machine.execCatchUp s
  | .squCheckinReport => Sys2Proof.Machine.execSquCheckinReport s
  | .readRun => Sys2Proof.Machine.execReadRun s
  | .patrolItem upsets => Sys2Proof.Machine.execPatrolItem upsets s
  | .storeErrorReport => Sys2Proof.Machine.execStoreErrorReport s
  | .rebuildCompletion room date => Sys2Proof.Machine.execRebuildCompletion room date s
  | .rebuildRow => Sys2Proof.Machine.execRebuildRow s
  | .forgetBooking => Sys2Proof.Machine.execForgetBooking s
  | .readScrub => Sys2Proof.Machine.execReadScrub s
  | .arbiterChoose segment => Sys2Proof.Machine.execArbiterChoose segment s
  | .stationAnswer segment bytes reading => Sys2Proof.Machine.execStationAnswer segment bytes reading s
  | .replyWaitExpiry segment => Sys2Proof.Machine.execReplyWaitExpiry segment s
  | .pollDue segment address => Sys2Proof.Machine.execPollDue segment address s
  | .probeIntervalExpiry segment => Sys2Proof.Machine.execProbeIntervalExpiry segment s
  | .pageItem => Sys2Proof.Machine.execPageItem s
  | .resultItem => Sys2Proof.Machine.execResultItem s
  | .ticketOffer kitchen => Sys2Proof.Machine.execTicketOffer kitchen s
  | .callOffer kitchen => Sys2Proof.Machine.execCallOffer kitchen s
  | .latchHanded => Sys2Proof.Machine.execLatchHanded s
  | .resetStation => Sys2Proof.Machine.execResetStation s
  | .readStation => Sys2Proof.Machine.execReadStation s
  | .configPut => Sys2Proof.Machine.execConfigPut s
  | .configGet => Sys2Proof.Machine.execConfigGet s
  | .commitWrite => Sys2Proof.Machine.execCommitWrite s
  | .bkeConfigTables => Sys2Proof.Machine.execBkeConfigTables s
  | .sbcConfigTables => Sys2Proof.Machine.execSbcConfigTables s
  | .ppuConfigTables => Sys2Proof.Machine.execPpuConfigTables s
  | .cscConfigTables => Sys2Proof.Machine.execCscConfigTables s
  | .squConfigTables => Sys2Proof.Machine.execSquConfigTables s
  | .commitEnd => Sys2Proof.Machine.execCommitEnd s
  | .secondCompletion => Sys2Proof.Machine.execSecondCompletion s
  | .frameSent segment => Sys2Proof.Machine.execFrameSent segment s

end Sys2Proof.Machine
end

