-- ==== Sys2Proof/Safety.lean ====
section
/-! DEFINITION. The words in which the statements speak of a step: it completes, a request is the owner's next, a reply
is posted, the store is readable, a room-day is open; and the laws a state keeps. -/

namespace Sys2Proof.Machine

/-- A step completes when it answers a next state: it neither faults nor refuses. -/
def completes (s : State) : Prop := ∃ t, step s = .next t

/-- The command answers the next state `t`. -/
def Runs (i : Instr) (s t : State) : Prop := exec i s = .next t

/-- R185: the owner of `q` takes `q` next, with context `c`; `rest` is handed and not yet taken after it. -/
def Asks (s : State) (c : Ctx) (q : Request) (rest : List Handed) : Prop :=
  takeFirst (fun h => h.request.owner == q.owner) s.book.mail.requests = some ({ ctx := c, request := q }, rest)

/-- R185: the reply is queued behind everything queued before; only the LAST of a batch may bring a notice after it. -/
def Replied (s t : State) (c : Ctx) (a : Answer) : Prop :=
  ∃ more, t.book.hmp.out = s.book.hmp.out ++ .reply c a :: more ∧ (c.mark ≠ .last → more = [])

/-- The configuration store but for its staged set. -/
structure SameSite (s t : State) : Prop where
  committed : t.book.cfs.committed = s.book.cfs.committed
  complete : t.book.cfs.complete = s.book.cfs.complete
  number : t.book.cfs.commitNumber = s.book.cfs.commitNumber
  valid : t.book.cfs.valid = s.book.cfs.valid
  commit : t.book.cfs.commit = s.book.cfs.commit

/-- A request that only reads: it leaves the queue of handed requests, and every block but the reply side of the HMP
is as it was. -/
structure OnlyReads (s t : State) (rest : List Handed) : Prop where
  link : t.link = s.link
  ctu : t.ctu = s.ctu
  ppu : t.ppu = s.ppu
  sbc : t.sbc = s.sbc
  bke : t.book.bke = s.book.bke
  bss : t.book.bss = s.book.bss
  squ : t.book.squ = s.book.squ
  csc : t.book.csc = s.book.csc
  mail : t.book.mail = { s.book.mail with requests := rest }
  site : SameSite s t

/-- R168: no word of the store is in error. -/
def StoreSound (b : Book) : Prop := b.bss.errors = []

/-- R168: no item of the store but `i` has a word in error. -/
def SoundBut (b : Book) (i : StoreItem) : Prop := ∀ j, j ≠ i → b.bss.errorOf j = none

/-- R34: no two SOUND records of the table have one id. -/
def DistinctIds (b : Book) : Prop :=
  ∀ m n q r, b.slot m = some (.sound q) → b.slot n = some (.sound r) → q.id = r.id → m = n

/-- R28: `e` is an entry of the cover list of a row from slot `lo` on: the span of a record of the view that writes the
row, or its RESERVED buffer. -/
def CoverEntry (b : Book) (ed : Edition) (room : Nat) (d : Date) (lo : Nat) (e : Cover) : Prop :=
  ∃ m q, b.slot m = some (.sound q) ∧ inView ed q = true ∧ q.date = d ∧ room ∈ rowFamily b.bke.rooms q.room ∧
    e.id = q.id ∧ lo < e.start + e.count ∧
      (e.buffer = false ∧ q.state.active = true ∧ e.start = q.start ∧ e.count = q.count ∨
        e.buffer = true ∧ q.bufState = .reserved ∧ e.start = q.start + q.count ∧ e.count = q.bufSlots)

/-- R28: `l` holds the first 12 entries of the cover list in order of their lowest cell from `lo` on, and `more` says
whether there are others. -/
def CoversListed (b : Book) (ed : Edition) (room : Nat) (d : Date) (lo : Nat) (l : List Cover) (more : Bool) : Prop :=
  ∃ all : List Cover, l = all.take 12 ∧ more = decide (12 < all.length) ∧
    all.Pairwise (fun x y => max x.start lo ≤ max y.start lo) ∧ (∀ e, e ∈ all ↔ CoverEntry b ed room d lo e) ∧
    (DistinctIds b → all.Nodup)

/-- R170: the patrol position names this item, and the store holds it in a condition the patrol reads. -/
def PatrolReads (b : Book) : StoreItem → Prop
  | .liveRow room d =>
    room ≤ 383 ∧ (b.row room d).isSome = true ∧
      ∃ h k, b.bke.horizon = some h ∧ k < 14 ∧ d = h.today.after k ∧ b.bss.position = 14 * room + k
  | .draftRow room d =>
    room ≤ 383 ∧ (∃ z, b.draftRow room d = some z ∧ z.damaged = false) ∧
      ∃ h k, b.bke.horizon = some h ∧ k < 14 ∧ d = h.today.after k ∧ b.bss.position = 14 * room + k
  | .record n => (∃ r, b.slot n = some (.sound r)) ∧ b.bss.position = 5376 + n
  | .index n => (∃ r, b.slot n = some (.sound r)) ∧ b.bss.position = 5376 + n

/-- R33, R57: slot `n` holds the SOUND live record `r`, found by its id. -/
def HoldsLive (b : Book) (n : Nat) (r : Record) : Prop :=
  b.slotOf r.id = some n ∧ b.slot n = some (.sound r) ∧ r.edition = .live

/-- R18, R24: every row of the room's family stands GOOD on the date with its 64 cells, FREE over `n` slots from
`start`. -/
def RowsOpen (b : Book) (room : Nat) (d : Date) (start n : Nat) : Prop :=
  ∀ x ∈ rowFamily b.bke.rooms room,
    ∃ r, b.row x d = some r ∧ r.room = x ∧ r.date = d ∧ r.state = .good ∧ r.cells.length = 64 ∧
      ∀ k, start ≤ k → k < start + n → cellAt r.cells k = .free

/-- R20, R21: in every row of the room's family the claim wrote the cells `f` gives, and raised the version by one where
they differ from what they were. -/
def RowsWritten (s t : State) (room : Nat) (d : Date) (f : Nat → Nat → Cell → Cell) : Prop :=
  ∀ x ∈ rowFamily s.book.bke.rooms room,
    ∃ r r', s.book.row x d = some r ∧ t.book.row x d = some r' ∧ r'.state = r.state ∧
      r'.version = (if r'.cells = r.cells then r.version else r.version + 1) ∧
      ∀ k, k < 64 → cellAt r'.cells k = f x k (cellAt r.cells k)

/-- R18: every row of the room's family stands on the date with its 64 cells, in whatever row state. -/
def RowsStand (b : Book) (room : Nat) (d : Date) : Prop :=
  ∀ x ∈ rowFamily b.bke.rooms room, ∃ r, b.row x d = some r ∧ r.room = x ∧ r.date = d ∧ r.cells.length = 64

/-- R19, R21, R22: as `RowsWritten` says of the rows that are GOOD; a row that is not is left as it was. -/
def GoodRowsWritten (s t : State) (room : Nat) (d : Date) (f : Nat → Nat → Cell → Cell) : Prop :=
  ∀ x ∈ rowFamily s.book.bke.rooms room,
    ∃ r r', s.book.row x d = some r ∧ t.book.row x d = some r' ∧ (r.state ≠ .good → r' = r) ∧
      (r.state = .good →
        r'.state = .good ∧ r'.version = (if r'.cells = r.cells then r.version else r.version + 1) ∧
          ∀ k, k < 64 → cellAt r'.cells k = f x k (cellAt r.cells k))

/-- R20: cell `k` of row `x` after a span of `cell` and its buffer are written for a record of `room`. -/
def spanWritten (room start count buf : Nat) (cell : Cell) (x k : Nat) (old : Cell) : Cell :=
  if start ≤ k ∧ k < start + count then (if x = room then cell else .tied)
  else if start + count ≤ k ∧ k < start + count + buf then .buffer
  else old

/-- R51: the buffer slots a record holds. -/
def heldBuffer (r : Record) : Nat := if r.bufState = .reserved then r.bufSlots else 0

/-- R20: a cell after the span and the buffer of `r` are freed. -/
def spanCleared (r : Record) (_x k : Nat) (old : Cell) : Cell :=
  if r.start ≤ k ∧ k < r.start + r.count + heldBuffer r then .free else old

/-! ### The conflict test -/

/-- R76: the state and the cells of the row that a claim of this edition tests: in the edition DRAFT the draft row where
one exists, else the live row. -/
def rowTested (b : Book) (ed : Edition) (x : Nat) (d : Date) : Option (RowState × List Cell) :=
  match ed, b.draftRow x d with
  | .draft, some z => some (.good, z.cells)
  | _, _ => (b.row x d).map fun r => (r.state, r.cells)

/-- R24: the span or the RESERVED buffer of the record covers cell `k` of the rows it writes. -/
def CoversAt (q : Record) (k : Nat) : Prop :=
  (q.state.active = true ∧ q.start ≤ k ∧ k < q.start + q.count) ∨
    (q.bufState = .reserved ∧ q.start + q.count ≤ k ∧ k < q.start + q.count + q.bufSlots)

/-- R24: cell `k` of the row of room `x` is not FREE, and the excluded record does not cover it in that row. -/
def CellTaken (b : Book) (excl : Option Record) (x : Nat) (d : Date) (cells : List Cell) (k : Nat) : Prop :=
  cellAt cells k ≠ .free ∧ ∀ q, excl = some q → q.date = d → x ∈ rowFamily b.bke.rooms q.room → ¬CoversAt q k

/-- R24: one of `n` cells from `start` of the row of room `x` is taken. -/
def RowTaken (b : Book) (excl : Option Record) (d : Date) (start n x : Nat) (cells : List Cell) : Prop :=
  ∃ k, start ≤ k ∧ k < start + n ∧ CellTaken b excl x d cells k

/-- R25: room `x`, with this row, is the first in test order of whose row `P` holds. -/
def FirstTested (b : Book) (ed : Edition) (room : Nat) (d : Date) (P : Nat → RowState → List Cell → Prop) (x : Nat)
    (cells : List Cell) : Prop :=
  ∃ l l' st, rowFamily b.bke.rooms room = l ++ x :: l' ∧ rowTested b ed x d = some (st, cells) ∧ P x st cells ∧
    ∀ y ∈ l, ∀ st' cs, rowTested b ed y d = some (st', cs) → ¬P y st' cs

/-- `P` holds of every row that the test reads. -/
def AllTested (b : Book) (ed : Edition) (room : Nat) (d : Date) (P : Nat → RowState → List Cell → Prop) : Prop :=
  ∀ x ∈ rowFamily b.bke.rooms room, ∀ st cells, rowTested b ed x d = some (st, cells) → P x st cells

/-- R25: the booking id that a CONFLICT over cell `k` of the row of room `x` names: that of the record of the view which
covers it, of two such the one in the lower record slot (log 109); none where no SOUND record does (log 60). -/
def CoveredBy (b : Book) (ed : Edition) (x : Nat) (d : Date) (k : Nat) (id : Option Nat) : Prop :=
  let covers (m : Nat) (q : Record) : Prop :=
    b.slot m = some (.sound q) ∧ inView ed q = true ∧ q.date = d ∧ x ∈ rowFamily b.bke.rooms q.room ∧ CoversAt q k
  (∀ m q, covers m q → (∀ m' q', covers m' q' → m ≤ m') → id = some q.id) ∧ ((∀ m q, ¬covers m q) → id = none)

/-- R24, R25 outcome 4: every row is GOOD, and none of the `n` cells from `start` is taken. -/
def TestPasses (b : Book) (ed : Edition) (room : Nat) (d : Date) (start n : Nat) (excl : Option Record) : Prop :=
  AllTested b ed room d fun x st cells => st = .good ∧ ¬RowTaken b excl d start n x cells

/-- R25 outcomes 1 to 3: the answer of a claim that the conflict test refuses. -/
inductive TestRefuses (b : Book) (ed : Edition) (room : Nat) (d : Date) (start count buf : Nat) (excl : Option Record) :
    Answer → Prop where
  /-- The first QUARANTINED row. -/
  | quarantined (x : Nat) (cells : List Cell) :
    FirstTested b ed room d (fun _ st _ => st = .quarantined) x cells →
    TestRefuses b ed room d start count buf excl
      { status := .damaged, detail := .quarantined, data := .room x (b.code x) }
  /-- No row is QUARANTINED: the first REBUILDING row. -/
  | rebuilding (x : Nat) (cells : List Cell) :
    AllTested b ed room d (fun _ st _ => st ≠ .quarantined) →
    FirstTested b ed room d (fun _ st _ => st = .rebuilding) x cells →
    TestRefuses b ed room d start count buf excl
      { status := .busy, detail := .rebuilding, data := .room x (b.code x) }
  /-- Every row is GOOD: the first row with a taken cell, the lowest such cell, and the record that covers it. A span cell
  taken in any row makes it CONFLICT/SPAN, else CONFLICT/BUFFER. -/
  | conflict (x k : Nat) (cells : List Cell) (id : Option Nat) (detail : Detail) :
    AllTested b ed room d (fun _ st _ => st = .good) →
    FirstTested b ed room d (fun y _ cs => RowTaken b excl d start (count + buf) y cs) x cells →
    start ≤ k → CellTaken b excl x d cells k → (∀ j, start ≤ j → j < k → ¬CellTaken b excl x d cells j) →
    CoveredBy b ed x d k id →
    (AllTested b ed room d (fun y _ cs => ¬RowTaken b excl d start count y cs) → detail = .buffer) →
    (¬AllTested b ed room d (fun y _ cs => ¬RowTaken b excl d start count y cs) → detail = .span) →
    TestRefuses b ed room d start count buf excl
      { status := .conflict, detail := detail
        data := .clash { room := x, code := b.code x, slot := k, cell := cellAt cells k, booking := id } }

/-- R86: no draft row that the test reads has the damaged mark. -/
def DraftsWhole (b : Book) (ed : Edition) (room : Nat) (d : Date) : Prop :=
  ed = .draft → ∀ x ∈ rowFamily b.bke.rooms room, ∀ z, b.draftRow x d = some z → z.damaged = false

/-- What a refusal by the conflict test takes for granted: a readable store, a canonical booking table, and in the edition
DRAFT a draft that is not damaged (R86). -/
structure TestReady (b : Book) (ed : Edition) (room : Nat) (d : Date) : Prop where
  sound : StoreSound b
  wf : b.bke.records.wf = true
  draft : ed = .draft → b.bke.draft.damaged = false
  drafts : DraftsWhole b ed room d

/-- The state of the BKE stands as it was, each row found under its room and date. -/
def SameBke (s t : State) : Prop :=
  t.book.bke = { s.book.bke with rows := t.book.bke.rows } ∧ ∀ x d, t.book.row x d = s.book.row x d

/-- R25: the refused claim changes nothing. -/
structure BookUnchanged (s t : State) : Prop where
  link : t.link = s.link
  ctu : t.ctu = s.ctu
  ppu : t.ppu = s.ppu
  sbc : t.sbc = s.sbc
  bss : t.book.bss = s.book.bss
  squ : t.book.squ = s.book.squ
  csc : t.book.csc = s.book.csc
  bke : SameBke s t
  site : SameSite s t

/-- R25: the request is taken and answered, and nothing else changes. -/
structure ClaimRefused (s t : State) (c : Ctx) (rest : List Handed) (a : Answer) : Prop where
  unchanged : BookUnchanged s t
  mail : t.book.mail = { s.book.mail with requests := rest }
  replied : Replied s t c a

/-- R25, R125: the panel claim is taken and answered with nothing placed, and nothing else changes. -/
structure PanelRefused (s t : State) (c : PanelClaim) (rest : List PanelClaim) (a : Answer) (subject : Option Nat) :
    Prop where
  unchanged : BookUnchanged s t
  mail :
    t.book.mail =
      { s.book.mail with
        ppuToBke := rest
        bkeToPanel :=
          s.book.mail.bkeToPanel ++
            [{ claim := c, status := a.status, detail := a.detail, subject := subject, placed := none }] }
  hmp : t.book.hmp = s.book.hmp

/-- The cell a claim leaves as it was. -/
def cellKept (_x _k : Nat) (old : Cell) : Cell := old

/-- R125: the outcome of the panel claim at the head is handed to the PPU, and the claim is taken. -/
def PanelAnswered (s t : State) (c : PanelClaim) (rest : List PanelClaim) (a : Answer) (subject : Option Nat)
    (placed : Option Placed) : Prop :=
  t.book.mail.ppuToBke = rest ∧ t.book.hmp = s.book.hmp ∧
    t.book.mail.bkeToPanel =
      s.book.mail.bkeToPanel ++
        [{ claim := c, status := a.status, detail := a.detail, subject := subject, placed := placed }]

/-- Spec 95: a claim on the record in slot `n` and on the family of one room-day leaves the other records and rows, the
store's counts, the directory, the horizon, the series, the draft and the editions as they were. -/
structure ClaimKeeps (s t : State) (n room : Nat) (d : Date) : Prop where
  bss : t.book.bss = s.book.bss
  site : SameSite s t
  rooms : t.book.bke.rooms = s.book.bke.rooms
  horizon : t.book.bke.horizon = s.book.bke.horizon
  series : t.book.bke.series = s.book.bke.series
  editions : t.book.bke.readEdition = s.book.bke.readEdition ∧ t.book.bke.writeEdition = s.book.bke.writeEdition
  draft : t.book.bke.draft = s.book.bke.draft
  slots : ∀ m, m ≠ n → t.book.slot m = s.book.slot m
  rows : ∀ x e, (∀ y ∈ rowFamily s.book.bke.rooms room, rowKey y d ≠ rowKey x e) → t.book.row x e = s.book.row x e

/-- R53: the meeting `r` in slot `n` has become `r'`, of `k` slots. A RESERVED buffer, clipped, is re-placed after the new
end where the conflict test passes it, and is released where it does not; the rows hold what `r'` covers, and the change
is handed to the PPU, the CSC and the SQU. -/
structure EndedEarly (s t : State) (n : Nat) (r r' : Record) (k : Nat) (panel : Option Nat) : Prop where
  slot : t.book.slot n = some (.sound r')
  bare : r.bufState ≠ .reserved → r' = { r with count := k }
  fits :
    let buf := clipBuffer (r.start + k) r.bufSlots
    r.bufState = .reserved → s.book.conflict .live r.room r.date (r.start + k) 0 buf (some r) = none →
      r' = { r with count := k, bufSlots := buf, bufState := bufStateOf buf }
  released :
    let buf := clipBuffer (r.start + k) r.bufSlots
    r.bufState = .reserved → s.book.conflict .live r.room r.date (r.start + k) 0 buf (some r) ≠ none →
      r' = { r with count := k, bufState := .released }
  rows :
    GoodRowsWritten s t r.room r.date
      (fun y i old =>
        if r.start ≤ i ∧ i < r.start + k + heldBuffer r' then
          spanWritten r.room r.start k (heldBuffer r') .booked y i old
        else spanCleared r y i old)
  squ : t.book.squ = s.book.squTaken.retime r r.start k ∧ t.book.mail.bkeToSqu = []
  csc : t.book.mail.bkeToCsc = s.book.mail.bkeToCsc ++ [{ booking := r.id, change := .endedEarly k }]
  ppu :
    t.book.mail.bkeToPpu =
      s.book.mail.bkeToPpu ++
        [.change { kind := .retimed, room := r.room, date := r.date, before := none, panel := panel }]
  keeps : ClaimKeeps s t n r.room r.date

/-- R53: slot `x` is the slot `c` of R53: the current slot, or the one that contains the reach mark while BEFORE_DAY. -/
def IsSlotC (t : Ctu) (x : Nat) : Prop :=
  t.slot = .slot x ∨ t.slot = .beforeDay ∧ 360 + 15 * x ≤ t.reach ∧ t.reach < 375 + 15 * x

/-- R37 steps 3 to 5: the room is configured, unguarded, bookable and seats the attendees. -/
def RoomTakes (b : Book) (room attendees : Nat) (rm : Room) : Prop :=
  b.bke.rooms.find room = some rm ∧ b.bke.guard.contains room = false ∧ rm.bookable = true ∧ attendees ≤ rm.seats

/-- R23: the span passes the span check. -/
def SpanPasses (t : Ctu) (b : Book) (d : Date) (start count : Nat) : Prop :=
  b.bke.horizon.isSome = true ∧ (b.offset d).isSome = true ∧ spanInDay start count = true ∧
    (b.isToday d = true → t.tooLate start = false)

/-- R33, R37: the fields of a BOOK lie in their ranges. -/
def FieldsOk (f : BookFields) : Prop := bookBad f = false

/-- R32, R42: a record slot is free, and a run where the room's template asks for one. -/
def TablesOpen (b : Book) (rm : Room) : Prop := b.tableFull = false ∧ b.runsShort rm = false

/-- R45 steps 1 to 6: the MOVE of the live record `r` in slot `n` to the place `f` gives, in the room `rm`, reaches the
conflict test. -/
structure MoveReaches (s : State) (n : Nat) (r : Record) (f : MoveFields) (rm : Room) : Prop where
  live : s.book.bke.writeEdition = .live
  sound : StoreSound s.book
  named : f.id = r.id
  held : HoldsLive s.book n r
  kind : r.kind = .meeting
  state : r.state = .confirmed ∨ (r.state = .held ∧ s.book.begun s.ctu r.date r.start = false)
  index : f.room ≤ 383
  span : SpanPasses s.ctu s.book f.date f.start f.count
  series : s.book.seriesOn r f.date = []
  room : RoomTakes s.book f.room r.attendees rm

/-- R45 steps 1 to 8: that MOVE passes every check but that of its order. -/
structure MovePasses (s : State) (n : Nat) (r : Record) (f : MoveFields) (rm : Room) : Prop extends
    MoveReaches s n r f rm where
  old : RowsOpen s.book r.room r.date 0 0
  new : RowsOpen s.book f.room f.date 0 0
  free :
    s.book.conflict .live f.room f.date f.start f.count
      (clipBuffer (f.start + f.count) (s.book.squ.bufferOf rm)) (some r) = none
  runs : r.state = .confirmed → s.book.squ.ownRun r = none → s.book.runsShort rm = false

/-- R46: the record in slot `n` stands at its new place with `buf` buffer slots. Its other fields stay, the check-in mark
among them, but that a CONFIRMED meeting moved onto a slot that has begun is started, which uses an EARLY mark up (R47). -/
structure Moved (s t : State) (n : Nat) (r r' : Record) (f : MoveFields) (buf : Nat) : Prop where
  slot : t.book.slot n = some (.sound r')
  id : r'.id = r.id
  place :
    r'.room = f.room ∧ r'.date = f.date ∧ r'.start = f.start ∧ r'.count = f.count ∧ r'.bufSlots = buf ∧
      r'.bufState = bufStateOf buf
  kept :
    r'.kind = r.kind ∧ r'.edition = r.edition ∧ r'.organiser = r.organiser ∧ r'.attendees = r.attendees ∧
      r'.label = r.label ∧ r'.origin = r.origin ∧ r'.series = r.series ∧ r'.holdExpiry = r.holdExpiry ∧
      r'.order = r.order ∧ r'.cancelMark = r.cancelMark
  held : r.state = .held → r'.state = .held ∧ r'.check = r.check ∧ t.book.squ = s.book.squ
  later :
    r.state = .confirmed → s.book.begun s.ctu f.date f.start = false → r'.state = .confirmed ∧ r'.check = r.check
  begun :
    r.state = .confirmed → s.book.begun s.ctu f.date f.start = true →
      r'.state.started = true ∧ r'.check = (if r.check = .early then .done else r.check)

/-! ### The runs -/

/-- Every run of the table stands under its id, and the table is canonical. -/
def RunsKeyed (q : Squ) : Prop := q.runs.wf = true ∧ ∀ k r, q.runs.find k = some r → r.id = k

/-- R159: the run `r` of the table is that of the booking record. -/
def IsOwnRun (q : Squ) (b : Record) (r : Run) : Prop :=
  b.run = some r.id ∧ q.runs.find r.id = some r ∧ r.booking = b.id

/-- R156: a due minute of a run of this date lies at or below the SQU minute. -/
def LateAt (q : Squ) (d : Date) (due : Nat) : Prop :=
  (∃ h, q.horizon = some h ∧ h.today = d) ∧ ∃ m, q.minute = some m ∧ due ≤ m

/-- R156: `y` is the step `x` placed on a run's date from its anchor minute. -/
structure StepPlaced (q : Squ) (d : Date) (anchor : Nat) (x y : RunStep) : Prop where
  step : y.step = x.step
  firedAt : y.firedAt = x.firedAt
  due : y.due = some ((anchor : Int) + x.step.offset).toNat
  mark :
    let due := ((anchor : Int) + x.step.offset).toNat
    let lost := 1439 < due ∨ (LateAt q d due ∧ x.step.offset < 0)
    (lost → y.mark = .dropped) ∧ (¬lost → y.mark = .due)

/-- The two lists are as long, and `P` holds of their members place by place. -/
def Pairs {α β : Type} (P : α → β → Prop) (l : List α) (l' : List β) : Prop :=
  l'.length = l.length ∧ ∀ (i : Nat) (x : α) (y : β), l[i]? = some x → l'[i]? = some y → P x y

/-- R156: the SQU holds the run `r` under `id`, and owes it a catch-up where one of its steps is late; every other run and
everything else stands as it was. -/
structure RunBecomes (q q' : Squ) (id : Nat) (r : Run) : Prop where
  found : q'.runs.find id = some r
  others : ∀ k, k ≠ id → q'.runs.find k = q.runs.find k
  owed : (∃ x ∈ r.steps, x.mark = .due ∧ ∃ m, x.due = some m ∧ LateAt q r.date m) → id ∈ q'.catchUps
  catchUps : ∀ k, k ≠ id → (k ∈ q'.catchUps ↔ k ∈ q.catchUps)
  same : q'.templates = q.templates ∧ q'.horizon = q.horizon ∧ q'.minute = q.minute

/-- R163: the run has left the table and its catch-up is not owed; everything else stands as it was. -/
structure RunGone (q q' : Squ) (id : Nat) : Prop where
  gone : q'.runs.find id = none
  others : ∀ k, k ≠ id → q'.runs.find k = q.runs.find k
  catchUps : ∀ k, k ∈ q'.catchUps ↔ k ∈ q.catchUps ∧ k ≠ id
  same : q'.templates = q.templates ∧ q'.horizon = q.horizon ∧ q'.minute = q.minute ∧ q'.lastRun = q.lastRun

/-- R155: `r` is a new run of the room's template `k`, with check-in minute `checkin`, and every step unfired. -/
structure RunFresh (q : Squ) (id booking room : Nat) (rm : Room) (d : Date) (start count : Nat) (checkin : Option Nat)
    (k : Nat) (x : Template) (r : Run) : Prop where
  ids : r.id = id ∧ r.booking = booking ∧ r.template = k
  place :
    r.room = room ∧ r.date = d ∧ r.startMinute = 360 + 15 * start ∧ r.endMinute = 360 + 15 * (start + count)
  basis : r.fromCheckin = rm.checkin ∧ r.checkinMinute = checkin ∧ r.state = .armed
  steps :
    Pairs
      (fun (e : StepDef) (y : RunStep) =>
        let blank : RunStep := { step := e, due := none, mark := .waiting, firedAt := none }
        (e.anchor = .start → StepPlaced q d (360 + 15 * start) blank y) ∧
          (e.anchor = .finish → StepPlaced q d (360 + 15 * (start + count)) blank y) ∧
          (e.anchor = .checkIn → rm.checkin = false → StepPlaced q d (360 + 15 * start) blank y) ∧
          (e.anchor = .checkIn → rm.checkin = true → ∀ m, checkin = some m → StepPlaced q d m blank y) ∧
          (e.anchor = .checkIn → rm.checkin = true → checkin = none → y = blank))
      x.steps r.steps

/-- R161: the run `r` has been retimed to the end minute `m`: its END steps that are DUE are placed anew, the others stay. -/
def RunRetimed (q q' : Squ) (r : Run) (m : Nat) : Prop :=
  ∃ l, RunBecomes q q' r.id { r with endMinute := m, steps := l } ∧ q'.lastRun = q.lastRun ∧
    Pairs
      (fun x y =>
        (x.step.anchor = .finish → x.mark = .due → StepPlaced q r.date m x y) ∧
          (x.step.anchor ≠ .finish ∨ x.mark ≠ .due → y = x))
      r.steps l

/-- R162: what the MOVE of the CONFIRMED record `r`, now `r'`, in the room `rm` makes of its run: creation, retime,
replacement under the same id, or removal. The templates are those that the SQU holds (log 68), and the reports handed to it
before are taken first (log 61). -/
structure RunMoved (s t : State) (r r' : Record) (rm : Room) : Prop where
  none :
    (∀ x, ¬IsOwnRun s.book.squTaken r x) → s.book.squ.templateOf rm = none →
      r'.run = r.run ∧ t.book.squ = s.book.squTaken
  created :
    ∀ k x, (∀ y, ¬IsOwnRun s.book.squTaken r y) → s.book.squ.templateOf rm = some (k, x) →
      ∃ z, r'.run = some s.book.squ.newRunId ∧ t.book.squ.lastRun = s.book.squ.newRunId ∧
        RunBecomes s.book.squTaken t.book.squ s.book.squ.newRunId z ∧
        RunFresh s.book.squTaken s.book.squ.newRunId r.id r'.room rm r'.date r'.start r'.count
          (if r.check = .early then some (360 + 15 * r'.start) else .none) k x z
  retimed :
    ∀ k x y, IsOwnRun s.book.squTaken r y → s.book.squ.templateOf rm = some (k, x) → y.template = k →
      let sm := 360 + 15 * r'.start
      let em := 360 + 15 * (r'.start + r'.count)
      let q := s.book.squTaken
      ∃ l, r'.run = r.run ∧ t.book.squ.lastRun = q.lastRun ∧
        RunBecomes q t.book.squ y.id
          { y with
            date := r'.date, room := r'.room, startMinute := sm, endMinute := em, fromCheckin := rm.checkin
            checkinMinute := if rm.checkin = true ∧ y.checkinMinute ≠ .none then some sm else .none
            steps := l } ∧
        Pairs
          (fun x z =>
            let due := x.mark = .due
            let basis := x.step.anchor = .checkIn
            (x.step.anchor = .start → due → StepPlaced q r'.date sm x z) ∧
              (x.step.anchor = .finish → due → StepPlaced q r'.date em x z) ∧
              (basis → rm.checkin = false → due ∨ x.mark = .waiting → StepPlaced q r'.date sm x z) ∧
              (basis → rm.checkin = true → due → y.checkinMinute ≠ .none → StepPlaced q r'.date sm x z) ∧
              (basis → rm.checkin = true → due → y.checkinMinute = .none →
                z = { x with due := .none, mark := .waiting }) ∧
              (¬due → ¬(basis ∧ rm.checkin = false ∧ x.mark = .waiting) → z = x))
          y.steps l
  replaced :
    ∀ k x y, IsOwnRun s.book.squTaken r y → s.book.squ.templateOf rm = some (k, x) → y.template ≠ k →
      ∃ z, r'.run = r.run ∧ t.book.squ.lastRun = s.book.squ.lastRun ∧
        RunBecomes s.book.squTaken t.book.squ y.id z ∧
        RunFresh s.book.squTaken y.id r.id r'.room rm r'.date r'.start r'.count
          (if r.check = .early then some (360 + 15 * r'.start) else .none) k x z
  removed :
    ∀ y, IsOwnRun s.book.squTaken r y → s.book.squ.templateOf rm = .none →
      r'.run = .none ∧ RunGone s.book.squTaken t.book.squ y.id

/-! ### The draft -/

/-- R75: the cells and the base version of a room-day's draft row, or of the one that would be copied from its live row. -/
def draftStart (b : Book) (x : Nat) (d : Date) : Option (List Cell × Half) :=
  match b.draftRow x d with
  | some z => some (z.cells, z.base)
  | none => (b.row x d).map fun y => (y.cells, y.version)

/-- R75: the draft is SOUND and every room-day has a draft row, or a GOOD live row to copy and a place for the copy. -/
structure DraftReady (b : Book) (l : List (Nat × Date)) : Prop where
  sound : b.bke.draft.damaged = false
  places : b.bke.draft.rows.size + l.length ≤ 256
  rows :
    ∀ p ∈ l,
      (∃ z, b.draftRow p.1 p.2 = some z ∧ z.room = p.1 ∧ z.date = p.2 ∧ z.damaged = false ∧ z.cells.length = 64) ∨
        (b.draftRow p.1 p.2 = none ∧
          ∃ y, b.row p.1 p.2 = some y ∧ y.room = p.1 ∧ y.date = p.2 ∧ y.state = .good ∧ y.cells.length = 64)

/-- R20, R75: every row of the room's family has a draft row, with the base version of its copy and the cells `f` gives. -/
def DraftWritten (s t : State) (room : Nat) (d : Date) (f : Nat → Nat → Cell → Cell) : Prop :=
  ∀ x ∈ rowFamily s.book.bke.rooms room,
    ∃ z cells base, draftStart s.book x d = some (cells, base) ∧ t.book.draftRow x d = some z ∧ z.base = base ∧
      ∀ k, k < 64 → cellAt z.cells k = f x k (cellAt cells k)

/-- R77, R81: a draft write leaves the live rows, the runs, the orders and the hand-overs to other blocks as they were. -/
structure DraftOnly (s t : State) (rest : List Handed) : Prop where
  rows : ∀ x d, t.book.row x d = s.book.row x d
  squ : t.book.squ = s.book.squ
  csc : t.book.csc = s.book.csc
  mail : t.book.mail = { s.book.mail with requests := rest }
  editions : t.book.bke.readEdition = s.book.bke.readEdition ∧ t.book.bke.writeEdition = s.book.bke.writeEdition

/-- R84: a lapsed draft record covers cell `k` of this draft row. -/
def LapsedCovers (s : State) (z : DraftRow) (k : Nat) : Prop :=
  ∃ p ∈ s.book.draftRecords, s.book.lapsedDraft s.ctu p.2 = true ∧
    ∃ y ∈ rowFamily s.book.bke.rooms p.2.room,
      rowKey y p.2.date = rowKey z.room z.date ∧ (p.2.patches y).any (·.has k) = true

/-- Every live row and every draft row of the tables stands under the key of its room and date. -/
def RowsKeyed (b : Book) : Prop :=
  (∀ k r, b.bke.rows.find k = some r → k = rowKey r.room r.date) ∧
    ∀ k r, b.bke.draft.rows.find k = some r → k = rowKey r.room r.date

/-- The reply is queued behind the notices that the claim posted. -/
def RepliedAfter (s t : State) (c : Ctx) (a : Answer) : Prop :=
  ∃ l more, t.book.hmp.out = s.book.hmp.out ++ l ++ .reply c a :: more ∧ (∀ f ∈ l, f.isNotice = true) ∧
    (c.mark ≠ .last → more = [])

/-- R132: every order of the table stands under its id. -/
def OrdersKeyed (b : Book) : Prop := ∀ k o, b.csc.orders.find k = some o → o.id = k

/-- R130: at the kitchen and date, `back` covers have been returned to the entry of window `w` and `taken` committed to
that of window `v`; no other entry of the capacity table has changed. -/
def CoversMoved (s t : State) (k : Nat) (d : Date) (w back v taken : Nat) : Prop :=
  ∀ x,
    t.book.csc.capacity.find x =
      (s.book.csc.capacity.find x).map fun e =>
        { e with
          committed :=
            e.committed - (if x = capKey k d w then back else 0) + (if x = capKey k d v then taken else 0) }

/-- R131: the window's entry has its closed mark. -/
def WindowShut (q : Csc) (k : Nat) (d : Date) (w : Nat) : Prop := ∃ e, q.entry k d w = some e ∧ e.closed = true

/-- R131, R135, R136, R147: the cut-off of the delivery slot has passed: the date is today and the CSC minute is at or after
it, or its window is closed (log 97). -/
def CutOffPassed (q : Csc) (k : Nat) (d : Date) (slot : Nat) : Prop :=
  q.cutOffReached d (q.cutOffMinute k slot) = true ∨ WindowShut q k d (slot / 2)

/-- R130, R131: the covers fit the window: it is not closed, and its remaining covers are at least as many. -/
def CoversFit (q : Csc) (k : Nat) (d : Date) (w n : Nat) : Prop := ¬WindowShut q k d w ∧ n ≤ q.remaining k d w

/-- R138: no order waits at the kitchen, so that a scan of its waitlist changes nothing. -/
def NoWaiters (b : Book) (k : Nat) : Prop := ∀ kit, b.csc.kitchen k = some kit → kit.waitlist = []

/-- R66: at this day open the series `x` alone is visited with the weekday `w` of the opened date in its mask. -/
structure OneSeriesFalls (b : Book) (w : Weekday) (x : Series) : Prop where
  wf : b.bke.series.wf = true
  keyed : ∀ k y, b.bke.series.find k = some y → y.id = k
  held : b.bke.series.find x.id = some x
  falls : x.mask.contains w = true ∧ x.lastReached = false
  alone : ∀ k y, b.bke.series.find k = some y → k ≠ x.id → y.lastReached = true ∨ y.mask.contains w = false

/-- R30, R31: the BKE takes day retire with day open next, in a book whose store is sound and whose tables are canonical. -/
structure DayTurns (s : State) (e o : TimeEvent) (opened : Date) (w : Weekday) (rest : List TimeEvent) : Prop where
  events : s.book.mail.bkeEvents = e :: o :: rest ∧ e.kind = .dayRetire ∧ o.kind = .dayOpen opened w
  dates : e.date ≠ opened ∧ o.date ≠ opened
  sound : StoreSound s.book
  keyed : RowsKeyed s.book
  wf : s.book.bke.records.wf = true ∧ s.book.bke.rooms.wf = true

/-- R30, R175: nothing of the retired date is to be told: its rows stand GOOD and no REBUILD_ROW waits for one. -/
def QuietRetire (b : Book) (d : Date) : Prop :=
  (∀ p ∈ b.bke.rows.entries, p.2.date = d → p.2.state = .good) ∧ ∀ w ∈ b.bke.waiters, w.date ≠ d

/-- R112 to R115: the page of a room has been built: it holds the reference and the content that the live records give it
now, and its version has risen just when its content changed. -/
def PageBuilt (s t : State) (x : Nat) : Prop :=
  ∀ rm pg, s.ppu.rooms.find x = some rm → s.ppu.pages.find x = some pg →
    ∃ pg', t.ppu.pages.find x = some pg' ∧ pg'.reference = t.ppu.reference s.ctu rm.group ∧
      pg'.content = t.ppu.content s.ctu t.book x rm pg' pg'.reference ∧
      (pg'.content = pg.content → pg'.version = pg.version) ∧
      (pg'.content ≠ pg.content → pg'.version = nextVersion pg.version)

/-- R115, R123: a page item is handed to a panel, behind everything handed before. -/
def PageHanded (s t : State) (v : PanelView) (kind : PageKind) (pg : Page) : Prop :=
  t.book.mail.ppuToSbc =
    s.book.mail.ppuToSbc ++
      [.page v.segment v.address { kind := kind, version := pg.version, content := pg.content }]

/-- R115: where the build of the one ONLINE panel's page changed its content, the new page is handed to it, as the kind
that `kind` gives for a room of a LATCHED group or of an IMMEDIATE one, before any latch of the claim. -/
def ChangeHanded (s t : State) (kind : Bool → PageKind) : Prop :=
  ∀ v rm pg, s.ppu.views.entries = [(stationKey v.segment v.address, v)] → v.online = true →
    s.ppu.rooms.find v.room = some rm → s.ppu.pages.find v.room = some pg →
    ∃ pg', t.ppu.pages.find v.room = some pg' ∧
      (pg'.content ≠ pg.content →
        ∃ l, t.book.mail.ppuToSbc =
            s.book.mail.ppuToSbc ++
              .page v.segment v.address
                { kind := kind (s.ppu.isLatched rm.group), version := pg'.version, content := pg'.content } :: l ∧
          ∀ i ∈ l, ∃ groups, i = .latch groups)

/-- R118: a record of room `y` can affect the page of room `x`. -/
def Affects (p : Ppu) (y x : Nat) : Prop :=
  x = y ∨
    ∃ rm, p.rooms.find y = some rm ∧ (rm.kind = .part ∧ rm.combined = some x ∨ rm.kind = .combined ∧ x ∈ rm.parts)

/-- R173: `q` is one of the records that write room `x`'s row on date `d`. -/
def WritesRow (b : Book) (x : Nat) (d : Date) (q : Record) : Prop :=
  (∃ m, (m, q) ∈ b.sound) ∧ q.edition = .live ∧ q.date = d ∧
    (q.room = x ∨ ∃ rm, b.bke.rooms.find x = some rm ∧ rm.kind = .part ∧ rm.combined = some q.room)

/-- R19, R20: the record writes `c` to cell `k` of the row of room `x`. -/
def WritesCell (q : Record) (x k : Nat) (c : Cell) : Prop :=
  (q.state.active = true ∧ q.start ≤ k ∧ k < q.start + q.count ∧
      c =
        if q.kind = .closure then .closed else if q.room ≠ x then .tied else if q.state = .held then .held
        else .booked) ∨
    (q.bufState = .reserved ∧ q.start + q.count ≤ k ∧ k < q.start + q.count + q.bufSlots ∧ c = .buffer)

/-- R36, R163, R176: the DAMAGED record `y` in slot `n` is forgotten: its slot is emptied, its id leaves every list and the
forget is handed to the CSC and the SQU, which ends its run, also where its id can no longer be read (log 78); a live record's
rows, where its place is known, start to be rebuilt and are counted in the reply. -/
structure Forgotten (s t : State) (c : Ctx) (n : Nat) (y : Damaged) : Prop where
  slot : t.book.slot n = none
  lists :
    y.own ∉ t.book.bke.draft.records ∧ y.own ∉ t.book.bke.draft.marked ∧ ∀ h ∈ t.book.bke.holds, h.id ≠ y.own
  handed :
    t.book.squ = s.book.squTaken.abortLost y ∧ t.book.mail.bkeToSqu = [] ∧
      t.book.mail.bkeToCsc = s.book.mail.bkeToCsc ++ [{ booking := y.own, change := .forgotten }]
  aborted : ∀ r, s.book.squTaken.runFor y.own y.run = some r → t.book.squ.runs.find r.id = none
  unplaced :
    (y.place = none ∨ ∃ id, y.known = some id ∧ id ∈ s.book.bke.draft.records) →
      t.book.bke.rows = s.book.bke.rows ∧ RepliedAfter s t c (Answer.ok (.forgotten y.known y.place (s.book.placeCode y.place) 0))
  rebuilds :
    ∀ x d, y.place = some (x, d) → (∀ id, y.known = some id → id ∉ s.book.bke.draft.records) →
      (∀ z ∈ rowFamily s.book.bke.rooms x, ∀ r, s.book.row z d = some r →
        t.book.row z d = some { r with state := .rebuilding }) ∧
      (∀ z e, (∀ w ∈ rowFamily s.book.bke.rooms x, rowKey w d ≠ rowKey z e) → t.book.row z e = s.book.row z e) ∧
      RepliedAfter s t c
        (Answer.ok
          (.forgotten y.known y.place (s.book.code x) ((rowFamily s.book.bke.rooms x).countP fun z => (s.book.row z d).isSome)))

/-! ### A commit's new directory -/

/-- R17: the room has been removed from the directory, or its kind or part list changed. -/
def Reshaped (old new : Table Room) (x : Nat) : Prop :=
  ∃ rm, old.find x = some rm ∧ ∀ rm', new.find x = some rm' → rm'.kind ≠ rm.kind ∨ rm'.parts ≠ rm.parts

/-- R17: the record is a live one of a reshaped room whose RESERVED buffer ends with the commit. -/
def BufferEnds (old new : Table Room) (q : Record) : Prop :=
  q.edition = .live ∧ q.bufState = .reserved ∧ Reshaped old new q.room

/-- R17: such a record's buffer covers cell `k` of the row of room `x` on date `d`. -/
def FreedByCommit (s : State) (new : Table Room) (x : Nat) (d : Date) (k : Nat) : Prop :=
  ∃ n q, s.book.slot n = some (.sound q) ∧ BufferEnds s.book.bke.rooms new q ∧
    (∃ y ∈ rowFamily s.book.bke.rooms q.room, rowKey y q.date = rowKey x d) ∧
    q.start + q.count ≤ k ∧ k < q.start + q.count + q.bufSlots

/-- What R17 and R87 take for granted of a book that takes a new directory: a readable store, canonical tables, whole rows,
and none of a room that is not configured. -/
structure DirectoryReady (s : State) (new : Table Room) : Prop where
  sound : StoreSound s.book
  keyed : RowsKeyed s.book
  wf : s.book.bke.records.wf = true ∧ s.book.bke.rows.wf = true ∧ s.book.bke.draft.rows.wf = true
  rooms : s.book.bke.rooms.wf = true ∧ new.wf = true
  today : ∀ h, s.book.bke.horizon = some h → h.today.valid = true
  owned : ∀ x, s.book.bke.rooms.find x = none → ∀ d, s.book.row x d = none
  whole : ∀ k y, s.book.bke.rows.find k = some y → y.cells.length = 64

/-- R17, R87: the BKE has taken the new directory: the rows of removed rooms are dropped and fresh ones stand for added
rooms; the RESERVED buffers of reshaped rooms are RELEASED and their cells freed, each changed row's version raised by one;
the draft rows of reshaped rooms are freed, and the others stay. -/
structure DirectoryTaken (s t : State) (new : Table Room) : Prop where
  gone : ∀ p ∈ t.book.bke.rows.entries, new.find p.2.room ≠ none
  added :
    ∀ h x j, s.book.bke.horizon = some h → s.book.bke.rooms.find x = none → new.find x ≠ none → j < 14 →
      ∃ y, t.book.row x (h.today.after j) = some y ∧ y.room = x ∧ y.date = h.today.after j ∧ y.state = .good ∧
        y.version = 0 ∧ y.cells.length = 64 ∧ ∀ k, k < 64 → cellAt y.cells k = .free
  kept :
    ∀ x d y, s.book.row x d = some y → new.find y.room ≠ none →
      ∃ y', t.book.row x d = some y' ∧ y'.room = y.room ∧ y'.date = y.date ∧ y'.state = y.state ∧
        y'.version = (if y'.cells = y.cells then y.version else y.version + 1) ∧
        (y.state ≠ .good → y'.cells = y.cells) ∧
        (y.state = .good → ∀ k, k < 64 →
          (FreedByCommit s new x d k → cellAt y'.cells k = .free) ∧
            (¬FreedByCommit s new x d k → cellAt y'.cells k = cellAt y.cells k))
  records :
    ∀ n q, s.book.slot n = some (.sound q) →
      (BufferEnds s.book.bke.rooms new q → t.book.slot n = some (.sound { q with bufState := .released })) ∧
        (¬BufferEnds s.book.bke.rooms new q → t.book.slot n = some (.sound q))
  drafts :
    (∀ p ∈ t.book.bke.draft.rows.entries, ¬Reshaped s.book.bke.rooms new p.2.room) ∧
      ∀ k z, s.book.bke.draft.rows.find k = some z → ¬Reshaped s.book.bke.rooms new z.room →
        t.book.bke.draft.rows.find k = some z

/-- R120: the page items that a SHOW to each of these panels hands: their rooms' pages, to those that are ONLINE. -/
def showsFor (p : Ppu) (keys : List Nat) : List SbcItem :=
  keys.flatMap fun key =>
    match p.views.find key with
    | none => []
    | some v =>
      match v.online, p.pages.find v.room with
      | true, some pg => [.page v.segment v.address { kind := .display, version := pg.version, content := pg.content }]
      | _, _ => []

/-- R120: one latch claim for the groups, after the builds: it waits for the panels then awaited, and hands the latch at
once where there is none or no horizon. -/
def LatchClaimed (s t : State) (groups : List Nat) : Prop :=
  (t.ppu.awaited groups ≠ [] → s.ppu.horizon ≠ none →
    t.ppu.waits = s.ppu.waits ++ [{ groups := groups, panels := t.ppu.awaited groups, minutes := 0, ctx := none }]) ∧
  (t.ppu.awaited groups = [] ∨ s.ppu.horizon = none →
    t.ppu.waits = s.ppu.waits ∧ ∃ l, t.book.mail.ppuToSbc = s.book.mail.ppuToSbc ++ l ++ [.latch groups])

/-- The span of the record covers the slot that the reference names. -/
def Covers (r : Record) (ref : CurSlot) : Prop := ∃ n, ref = .slot n ∧ r.start ≤ n ∧ n < r.start + r.count

/-- R113, R114: the content `c` of a page in rows 4 to 9 of the table, judged at `ref` over today's live records. -/
structure PageDerived (p : Ppu) (t : Ctu) (b : Book) (h : Horizon) (x : Nat) (rm : Room) (pg : Page) (ref : CurSlot)
    (c : PageContent) : Prop where
  /-- R113: the first row that applies. -/
  display :
    let v := p.pageView t b h x ref
    let closed := ∃ r ∈ v.candidates, r.kind = .closure ∧ r.state = .confirmed ∧ Covers r ref
    let awaits := ∃ r ∈ v.candidates, r.kind = .meeting ∧ r.state = .awaitingCheckin ∧ Covers r ref
    let inUse :=
      (∃ r ∈ v.candidates, r.kind = .meeting ∧ (r.state = .checkedIn ∨ r.state = .inProgress) ∧ Covers r ref) ∨
        ∃ r ∈ v.neighbours,
          (r.kind = .closure ∧ r.state = .confirmed ∨ r.kind = .meeting ∧ r.state.started = true) ∧ Covers r ref
    let released := ∃ n, ref = .slot n ∧ pg.release = some n
    let soon :=
      ∃ r ∈ v.candidates, r.kind = .meeting ∧ r.state = .confirmed ∧
        (ref = .beforeDay ∧ r.start = 0 ∧ 345 ≤ t.minute ∨ ∃ n, ref = .slot n ∧ r.start = n + 1)
    (closed → c.display = .closed) ∧ (¬closed → awaits → c.display = .awaitingCheckin) ∧
      (¬closed → ¬awaits → inUse → c.display = .inUse) ∧
      (¬closed → ¬awaits → ¬inUse → released → c.display = .released) ∧
      (¬closed → ¬awaits → ¬inUse → ¬released → soon → c.display = .startingSoon) ∧
      (¬closed → ¬awaits → ¬inUse → ¬released → ¬soon → c.display = .free)
  /-- R114: the covering span's end and label. -/
  covering :
    (c.display = .closed ∨ c.display = .awaitingCheckin ∨ c.display = .inUse →
      ∃ r, Covers r ref ∧ c.endMinute = some (360 + 15 * (r.start + r.count)) ∧
        (r ∈ (p.pageView t b h x ref).candidates ∧ c.label = r.label ∨
          r ∈ (p.pageView t b h x ref).neighbours ∧ c.label = none)) ∧
    (c.display.open = true → c.endMinute = none ∧ c.label = none)
  /-- R114: the next meeting. -/
  next :
    let later (r : Record) : Prop :=
      r ∈ (p.pageView t b h x ref).candidates ∧ r.kind = .meeting ∧ r.state = .confirmed ∧ ref.reaches r.start = false
    ((∀ r, ¬later r) → c.nextMinute = none ∧ c.nextLabel = none) ∧
      ((∃ r, later r) →
        ∃ r, later r ∧ (∀ q, later q → r.start ≤ q.start) ∧ c.nextMinute = some (360 + 15 * r.start) ∧
          c.nextLabel = r.label)
  /-- R114: walk-up offered. -/
  walkup :
    c.walkup = true ↔
      c.display.open = true ∧ rm.walkup = true ∧
        ∃ n, ref = .slot n ∧ (t.delivered n = true ∨ p.isLatched rm.group = true ∧ p.coming = some n) ∧
          p.cellsFree b h.today x n = true
  /-- R114: check-in open. -/
  checkin :
    c.checkinOpen = true ↔
      c.display = .awaitingCheckin ∨
        ∃ r ∈ (p.pageView t b h x ref).candidates, r.kind = .meeting ∧ r.state = .confirmed ∧ r.check = .none ∧
          360 + 15 * r.start ≤ t.minute + 10
  /-- R114: the free-until minute. -/
  freeUntil :
    let v := p.pageView t b h x ref
    let first (n : Nat) : Prop :=
      n < 64 ∧ ref.reaches n = false ∧ v.busyAt n = true ∧ ∀ k, k < n → ref.reaches k = true ∨ v.busyAt k = false
    (c.display.open = false ∨ (∃ n, ref = .slot n ∧ v.busyAt n = true) → c.freeUntil = none) ∧
      (c.display.open = true → (∀ n, ref = .slot n → v.busyAt n = false) →
        (∀ n, first n → c.freeUntil = some (360 + 15 * n)) ∧ ((∀ n, ¬first n) → c.freeUntil = none))

/-! ### The station bus -/

/-- Every station of the table stands under its segment and address, and the table is canonical. -/
def StationsKeyed (x : Sbc) : Prop :=
  x.stations.wf = true ∧ ∀ k y, x.stations.find k = some y → stationKey y.segment y.address = k

/-- R97, R104: in rising address order after the address `last`, wrapping, the station `y` comes before `z`. -/
def ComesBefore (last : Option Nat) (y z : Station) : Prop :=
  match last with
  | none => y.address < z.address
  | some a => (a < y.address ∧ z.address ≤ a) ∨ ((a < y.address ↔ a < z.address) ∧ y.address < z.address)

/-- R97, R104: `y` is the first station of the segment in that order of which `p` holds. -/
def FirstInTurn (x : Sbc) (n : Nat) (last : Option Nat) (p : Station → Prop) (y : Station) : Prop :=
  let candidate (z : Station) : Prop := x.station n z.address = some z ∧ z.segment = n ∧ p z
  candidate y ∧ ∀ z, candidate z → z ≠ y → ComesBefore last y z

/-- R96, R106, R109: the station without credits, items, results awaited and a poll. -/
def bare (x : Station) : Station :=
  { x with
    advertised := 0, credits := 0, pageSlot := none, results := [], resultsAwaited := 0, ticketSlot := none
    callSlot := none, lastPoll := none, pollStart := none, pollDue := false }

/-- R96, R103: a ticket is handed back to the CSC as not delivered, and its slot is free. -/
def ticketBack (x : Station) (k : Ticket) : List (Nat × CscReport) :=
  [(x.segment, .ticketBack x.binding k.order k.serial), (x.segment, .slotFree x.binding true)]

/-- R96, R103: a call is handed back to the CSC as not delivered, and its slot is free. -/
def callBack (x : Station) (k : Call) : List (Nat × CscReport) :=
  [(x.segment, .callBack x.binding k), (x.segment, .slotFree x.binding false)]

/-- R96, R106, R109: what goes back to the CSC: the ticket in flight and the one in the slot, then the call likewise (the
order: log 106). -/
def handedBack (x : Station) (flight : Option Transaction) : List (Nat × CscReport) :=
  (match flight.map (·.work) with
    | some (.ticket k) => ticketBack x k
    | _ => []) ++
  (x.ticketSlot.map (ticketBack x)).getD [] ++
  (match flight.map (·.work) with
    | some (.call k) => callBack x k
    | _ => []) ++
  (x.callSlot.map (callBack x)).getD []

/-- R96, R106: what a station held goes back to the CSC, and then its binding owner is told of its state: the CSC for a
terminal, the PPU for a panel. -/
structure OwnerTold (s t : State) (x : Station) (flight : Option Transaction) (st : StationState) : Prop where
  csc :
    t.book.mail.sbcToCsc =
      s.book.mail.sbcToCsc ++ handedBack x flight ++
        (if x.type = .terminal then [(x.segment, .link x.binding none (some st))] else [])
  ppu :
    t.book.mail.sbcToPpu =
      s.book.mail.sbcToPpu ++ (if x.type = .panel then [(x.segment, .link x.address .offline)] else [])

/-- R96, R108: the transaction `f` has faulted the station `x` of segment `n`. -/
structure Faulted (s t : State) (n : Nat) (g : Segment) (f : Transaction) (x : Station) : Prop where
  station :
    t.sbc.station n f.address =
      some { bare x with state := .faulted, cause := some .fault, failures := 4, faults := bump 65535 x.faults }
  others : ∀ k, k ≠ stationKey n f.address → t.sbc.stations.find k = s.sbc.stations.find k
  ended : t.sbc.seg n = some { g with inFlight := none }
  told : OwnerTold s t x (some f) .faulted
  posted :
    t.book.hmp =
      s.book.hmp.post
        (.stationState n f.address x.type x.binding (s.book.stationCode x) x.state (some .faulted) .fault
          (bump 65535 x.faults) none (some f.work.frame))

/-- R109: the new set has the station with its type and binding as they were. -/
def SameStation (new : Table StationItem) (x : Station) : Prop :=
  ∃ i, new.find (stationKey x.segment x.address) = some i ∧ i.type = x.type ∧ i.binding = x.binding

/-- R109: the record of a station whose type or binding changed (that a clear mark goes: log 72). -/
def rebound (x : Station) (i : StationItem) : Station :=
  { bare x with
    type := i.type, binding := i.binding, state := .absent, cause := some .config, failures := 0
    delivered := (0, none), shown := 0, clearMark := false }

/-- R109: what the CSC is handed for one station of the old set: what a removed or changed station held, then that a
terminal has left its kitchen, and that a changed station is now the terminal of one. -/
def cscTold (new : Table StationItem) (flight : Option Transaction) (x : Station) : List (Nat × CscReport) :=
  let gone := handedBack x flight ++ (if x.type = .terminal then [(x.segment, .link x.binding none none)] else [])
  match new.find (stationKey x.segment x.address) with
  | none => gone
  | some i =>
    if i.type = x.type ∧ i.binding = x.binding then []
    else gone ++ (if i.type = .terminal then [(x.segment, .link i.binding none (some .absent))] else [])

/-- R109: what the PPU is told for one station of the old set. -/
def ppuTold (new : Table StationItem) (x : Station) : List (Nat × PpuReport) :=
  match new.find (stationKey x.segment x.address) with
  | none => if x.type = .panel then [(x.segment, .link x.address .removed)] else []
  | some i =>
    if i.type = x.type ∧ i.binding = x.binding then []
    else if x.type = .panel ∧ i.type = .panel then [(x.segment, .link x.address (.rebound i.binding))]
    else if x.type = .panel then [(x.segment, .link x.address .removed)]
    else if i.type = .panel then [(x.segment, .link x.address (.added i.binding))]
    else []

/-- R108, R109: the STATION_STATE of one station of the old set; that of a changed one has the new type and binding
(log 96). -/
def stationNews (b : Book) (new : Table StationItem) (x : Station) : List Notice :=
  let notice (type : StationType) (binding : Nat) (now : Option StationState) : Notice :=
    .stationState x.segment x.address type binding (if type = .panel then b.code binding else none) x.state now .config
      x.faults none none
  match new.find (stationKey x.segment x.address) with
  | none => [notice x.type x.binding none]
  | some i =>
    if (i.type = x.type ∧ i.binding = x.binding) ∨ x.state = .absent then []
    else [notice i.type i.binding (some .absent)]

/-- R109: the SBC has taken the new station set: the transactions with removed and changed stations are ended, what these
stations held is handed back, the owners are told, and the notices posted, by rising segment and address (log 90). -/
structure StationsTaken (s t : State) (new : Table StationItem) : Prop where
  csc :
    t.book.mail.sbcToCsc =
      s.book.mail.sbcToCsc ++
        s.sbc.stations.values.flatMap fun x => cscTold new (s.sbc.flightWith x.segment x.address) x
  ppu :
    t.book.mail.sbcToPpu =
      s.book.mail.sbcToPpu ++ s.sbc.stations.values.flatMap (ppuTold new) ++
        (new.entries.filter fun p => (s.sbc.stations.find p.1).isNone).flatMap fun p =>
          if p.2.type = .panel then [(p.1 / 64, .link (p.1 % 64) (.added p.2.binding))] else []
  posted : t.book.hmp = (s.sbc.stations.values.flatMap (stationNews s.book new)).foldl Hmp.post s.book.hmp
  segments :
    ∀ n g, s.sbc.seg n = some g →
      ((∀ f, g.inFlight = some f → ∀ x, s.sbc.station n f.address = some x → x.segment = n → x.address = f.address →
        SameStation new x) → t.sbc.seg n = some g) ∧
      (∀ f x, g.inFlight = some f → s.sbc.station n f.address = some x → x.segment = n → x.address = f.address →
        ¬SameStation new x → t.sbc.seg n = some { g with inFlight := none })
  changed :
    ∀ n x i, s.sbc.stations.find n = some x → new.find n = some i → ¬(i.type = x.type ∧ i.binding = x.binding) →
      t.sbc.stations.find n = some (rebound x i)

/-! ## What a command may touch -/

/-- The blocks a command may change beside the book side. -/
inductive Touch where
  | bookOnly | link | clock | pages | segments | reset
deriving DecidableEq

/-- 00, Block overview: each block owns its own state. Which of them a command may change. -/
def touchOf : Instr → Touch
  | .powerOnReset => .reset
  | .linkReadComplete => .reset
  | .frameHeaderReceived _ | .linkWriteSelectEnd _ _ | .linkReadSelect | .takeRequest => .link
  | .minuteCompletion | .dayOpened | .setClock | .clockSetComplete | .trimClock | .trimComplete | .readClock
  | .secondCompletion => .clock
  | .ppuHorizonOpen | .ppuDayRetire | .ppuDayOpen | .morningBuild | .preBoundary | .ppuSlotBoundary | .dayEnd
  | .ppuMinute | .latchWaitExpiry | .latchGroups | .readPage | .ppuBookingChange | .ppuRowStateChange
  | .publishCompletion | .showOverlay | .clearOverlay | .latchStep | .panelLinkChange _ | .pageDelivered _
  | .pageItemRefused _ | .latchBroadcastRecord _ | .shownVersionReport _ | .panelEvent _ | .panelOutcome _
  | .resultNotSent _ | .ppuConfigTables => .pages
  | .arbiterChoose _ | .stationAnswer _ _ _ | .replyWaitExpiry _ | .pollDue _ _ | .probeIntervalExpiry _ | .pageItem
  | .resultItem | .ticketOffer _ | .callOffer _ | .latchHanded | .resetStation | .readStation | .frameSent _
  | .sbcConfigTables => .segments
  | _ => .bookOnly

/-! ## Laws -/

/-- R156: the late steps of a run at minute `m`, in step order, each with its number from 1. -/
def lateSteps (r : Run) (m : Nat) : List (RunStep × Nat) :=
  (r.steps.zipIdx 1).filter fun p => p.1.mark == .due && p.1.due.any fun j => decide (j ≤ m)

/-- R158: what a fired step of a run in `room` hands to the PPU. -/
def toPage (room : Nat) (x : RunStep) : Option PpuAction :=
  match x.step.action with
  | .showOverlay k => some (.overlay room k)
  | .clearOverlay => some (.clearOverlay room)
  | .latch => some (.latch room)
  | _ => none

/-- R158: the RUN_STEP of step number `n` of a run, fired in a catch-up at minute `m`. -/
def lateNotice (r : Run) (code : Option RoomCode) (m : Nat) (p : RunStep × Nat) : Option Notice :=
  match p.1.step.action with
  | .notify k =>
    some (.runStep r.id r.booking r.room code r.date p.2 k p.1.step.anchor p.1.step.offset (p.1.due.getD 0) m true)
  | _ => none

/-- R181: the blocks of the accepted frames that still hold them. -/
def heldBlocks (l : List InFrame) : Nat := (l.map (·.length)).sum

/-- R181: the credited blocks of the frame that is arriving. -/
def arrivingBlocks : Option Arriving → Nat
  | some a => a.blocks
  | none => 0

/-- R181: the law of the link credits, with what makes it inductive: occupied blocks are those of the frames held,
a read select returns no more than awaits return, and a frame is placed with its 8 header bytes. -/
structure LinkLaw (l : Link) : Prop where
  sum : (l.occupied : Int) + l.awaitingReturn + l.hostCredit = 96
  occupied : l.occupied = heldBlocks l.inbound + arrivingBlocks l.arriving
  reading : ∀ r, l.reading = some r → r.credit ≤ l.awaitingReturn
  header : ∀ a, l.arriving = some a → a.header.length = 8

/-- R1, R2, R4: a RUNNING clock shows a valid date, a minute of the day at or below the reach mark, and a last boundary
that lies at or below the reach mark. -/
def ClockLaw (t : Ctu) : Prop :=
  t.second ≤ 59 ∧
    ∀ c, t.clock = some c →
      c.date.valid = true ∧ c.minute ≤ c.reach ∧ c.reach ≤ 1439 ∧
        ∀ b, c.lastBoundary = some b → b ≤ 64 ∧ boundaryMinute b ≤ c.reach

end Sys2Proof.Machine
end

