-- ==== Sys2Proof/Certificates/Slice0/Obligations.lean ====
section
/-! DEFINITION. The statements for the provers, by chapter of the spec. -/

open Sys2Proof Sys2Proof.Machine

/-! ## The step and the commands as a whole -/

/-- A step takes the command at the front of the queue and runs it on the state with the queue's rest. -/
def Obligations.StepRunsTheFrontCommand : Prop :=
  ∀ (i : Instr) (rest : List Instr) (s : State),
    step { s with pending := i :: rest } = exec i { s with pending := rest }

/-- 00, Block overview: every command answers a next state and none touches the queue; a command leaves the link side,
the clock, the pages and the segments as they were, but for the one it works on (the two that can begin a reset are left
out). That a command also answers a next state where its premise is not met, and then changes nothing, is the model's
choice (logs 1 and 17). -/
def Obligations.EachBlockKeepsItsOwnState : Prop :=
  (∀ (i : Instr) (s : State), ∃ t, Runs i s t ∧ t.pending = s.pending) ∧
    ∀ (i : Instr) (s t : State), Runs i s t → touchOf i ≠ .reset →
      (touchOf i ≠ .link → t.link = s.link) ∧ (touchOf i ≠ .clock → t.ctu = s.ctu) ∧
        (touchOf i ≠ .pages → t.ppu = s.ppu) ∧ (touchOf i ≠ .segments → t.sbc = s.sbc)

/-! ## Invariants -/

/-- R181: every step keeps the law that occupied blocks, blocks awaiting return and host credits sum to 96. -/
def Obligations.EveryStepKeepsTheLinkCreditLaw : Prop :=
  ∀ s t : State, LinkLaw s.link → step s = .next t → LinkLaw t.link

/-- R1, R181: both laws hold right after reset. -/
def Obligations.LawsHoldAtReset : Prop := LinkLaw State.reset.link ∧ ClockLaw State.reset.ctu

/-- R1, R2, R4, R9 to R12: every step keeps the clock a clock. -/
def Obligations.EveryStepKeepsTheClockLegal : Prop :=
  ∀ s t : State, ClockLaw s.ctu → step s = .next t → ClockLaw t.ctu

/-! ## The link (11) -/

/-- R181: where the arriving frame goes when its first 8 bytes have come. -/
def Obligations.HeaderPlacesTheFrame : Prop :=
  ∀ (s : State) (h : List Byte), s.link.arriving = none → h.length = 8 → byteAt h 0 ≠ 0 →
    ∃ t, Runs (.frameHeaderReceived h) s t ∧ t.book = s.book ∧ t.link.inbound = s.link.inbound ∧
      t.link.awaitingReturn = s.link.awaitingReturn ∧
      (byteAt h 0 = 1 ∧ byteAt h 4 = byteAt h 5 ∧ 1 ≤ byteAt h 4 ∧ byteAt h 4 ≤ 8 ∧
            s.link.occupied + byteAt h 4 ≤ 96 →
          t.link.arriving = some { header := h, credited := true } ∧
            t.link.occupied = s.link.occupied + byteAt h 4 ∧
            t.link.hostCredit = s.link.hostCredit - byteAt h 4) ∧
      (¬(byteAt h 0 = 1 ∧ byteAt h 4 = byteAt h 5 ∧ 1 ≤ byteAt h 4 ∧ byteAt h 4 ≤ 8 ∧
            s.link.occupied + byteAt h 4 ≤ 96) →
          t.link.arriving = some { header := h, credited := false } ∧ t.link.occupied = s.link.occupied ∧
            t.link.hostCredit = s.link.hostCredit)

/-- R182: the end of a write select: a credited frame that passes receipt, whose tag is new and finds tag room, joins
the inbound buffer, and its tag becomes outstanding; one that fails receipt frees its blocks and is counted; one in the
reserve counts an overrun with detail BUFFER, one whose tag is 0 or outstanding a tag clash, and one that comes while 96
tags are outstanding frees its blocks and counts an overrun with detail TAGS; OVERRUN takes a free reply place, else it
is posted as a notice. That OVERRUN gives the counts as they stand when the select ends, the frame still holding its
blocks, is the model's reading (log 27). -/
def Obligations.WriteSelectEndAcceptsOrRejects : Prop :=
  (∀ (s : State) (a : Arriving) (bytes : List Byte) (reading : Option Request) (m : Mark),
    s.link.arriving = some a → a.credited = true →
    let l := a.header ++ bytes
    let h := linkHeader l
    (receiptFault l = none → Mark.ofNat? h.mark = some m → h.tag ≠ 0 → h.tag ∉ s.book.hmp.tags →
        s.book.hmp.tags.length < 96 →
        ∃ t, Runs (.linkWriteSelectEnd bytes reading) s t ∧ t.link.arriving = none ∧
          t.link.inbound =
            s.link.inbound ++
              [{ tag := h.tag, code := h.code, mark := m, length := h.length, reading := reading }] ∧
          t.link.occupied = s.link.occupied ∧ t.link.awaitingReturn = s.link.awaitingReturn ∧
          t.book.hmp.tags = s.book.hmp.tags ++ [h.tag] ∧ t.book.hmp.out = s.book.hmp.out) ∧
      (∀ f, receiptFault l = some f →
        ∃ t, Runs (.linkWriteSelectEnd bytes reading) s t ∧ t.link.arriving = none ∧
          t.link.inbound = s.link.inbound ∧
          t.link.awaitingReturn = s.link.awaitingReturn + (linkHeader a.header).length ∧
          t.book.hmp.rejected = bump 65535 s.book.hmp.rejected ∧ t.book.hmp.tags = s.book.hmp.tags)) ∧
  (∀ (s : State) (a : Arriving) (bytes : List Byte) (reading : Option Request),
    s.link.arriving = some a → receiptFault (a.header ++ bytes) = none →
    let h := linkHeader (a.header ++ bytes)
    let overrun (t : State) (detail : Detail) : Prop :=
      t.book.hmp.overruns = bump 65535 s.book.hmp.overruns ∧ t.book.hmp.tags = s.book.hmp.tags ∧
        ∀ m, Mark.ofNat? h.mark = some m →
          (s.book.hmp.repliesHeld < 96 →
            t.book.hmp.out =
              s.book.hmp.out ++
                [.overrun m detail h.tag h.code h.length s.link.occupied s.book.hmp.tags.length]) ∧
          (96 ≤ s.book.hmp.repliesHeld →
            t.book.hmp =
              Hmp.post { s.book.hmp with overruns := bump 65535 s.book.hmp.overruns }
                (.overrun h.tag h.code h.length s.link.occupied s.book.hmp.tags.length))
    (a.credited = false →
        ∃ t, Runs (.linkWriteSelectEnd bytes reading) s t ∧ t.link.inbound = s.link.inbound ∧
          t.link.occupied = s.link.occupied ∧ overrun t .buffer) ∧
      (a.credited = true → h.tag ≠ 0 → h.tag ∉ s.book.hmp.tags → 96 ≤ s.book.hmp.tags.length →
        ∃ t, Runs (.linkWriteSelectEnd bytes reading) s t ∧ t.link.inbound = s.link.inbound ∧
          t.link.occupied = s.link.occupied - (linkHeader a.header).length ∧
          t.link.awaitingReturn = s.link.awaitingReturn + (linkHeader a.header).length ∧ overrun t .tags) ∧
      (a.credited = true →
        h.tag = 0 ∨ h.tag ∈ s.book.hmp.tags →
        ∃ t, Runs (.linkWriteSelectEnd bytes reading) s t ∧ t.link.inbound = s.link.inbound ∧
          t.link.occupied = s.link.occupied - (linkHeader a.header).length ∧
          t.book.hmp.clashes = bump 65535 s.book.hmp.clashes ∧ t.book.hmp.tags = s.book.hmp.tags))

/-- R183, R184, R186: a read select chooses the head of the outbound queue, else a CREDIT frame while blocks await
return, else no frame, and sets its credit return to the awaiting-return count; a complete read moves the returned
credits to the host, the frame leaves the queue, and a reply releases its tag. (The OK to a RESTART is another
statement.) R179: a select of either kind sends that frame on data out, and bytes of 0 after its last byte, all of them 0
where nothing is yielded; a write select takes no frame from the queue and returns no credit. -/
def Obligations.ReadSelectsYieldFramesAndCredits : Prop :=
  (∀ s : State, s.link.arriving = none →
    ∃ t r, Runs .linkReadSelect s t ∧ t.book = s.book ∧ t.link = { s.link with reading := some r } ∧
      r = selectOut s.link s.book.hmp ∧ r.credit = s.link.awaitingReturn ∧
      (∀ f l, s.book.hmp.out = f :: l → r.yield = .frame f) ∧
      (s.book.hmp.out = [] → 0 < s.link.awaitingReturn → r.yield = .credit) ∧
      (s.book.hmp.out = [] → s.link.awaitingReturn = 0 → r.yield = .nothing)) ∧
  (∀ (s : State) (r : ReadSelect), s.link.reading = some r → s.book.hmp.restartRead r.yield = false →
    ∃ t, Runs .linkReadComplete s t ∧ t.link.reading = none ∧ t.link.occupied = s.link.occupied ∧
      t.link.awaitingReturn = s.link.awaitingReturn - r.credit ∧
      t.link.hostCredit = s.link.hostCredit + r.credit ∧
      (∀ f l, r.yield = .frame f → s.book.hmp.out = f :: l → t.book.hmp.out = l) ∧
      (∀ c a, r.yield = .frame (.reply c a) → t.book.hmp.tags = s.book.hmp.tags.erase c.tag) ∧
      (∀ n d, r.yield = .frame (.notice d n) → t.book.hmp.tags = s.book.hmp.tags) ∧
      ((∀ f, r.yield ≠ .frame f) → t.book = s.book)) ∧
  (∀ (s : State) (n : Nat),
    (s.dataOut n).length = n ∧
      (∀ i, i < n →
        (s.dataOut n)[i]? = some (((selectOut s.link s.book.hmp).bytes[i]?).getD 0)) ∧
      (s.book.hmp.out = [] → s.link.awaitingReturn = 0 → s.dataOut n = List.replicate n 0)) ∧
  (∀ (s : State) (bytes : List Byte) (reading : Option Request),
    ∃ t l, Runs (.linkWriteSelectEnd bytes reading) s t ∧ t.book.hmp.out = s.book.hmp.out ++ l ∧
      s.link.awaitingReturn ≤ t.link.awaitingReturn)

/-- R185, R187: a SOLE request whose code names a request and whose body was read is handed to its owner; its blocks are
freed and it holds a reply place. So is a FIRST with no batch open, which opens one, and a MIDDLE or LAST of an open
batch. A request so marked whose code names no request is answered BAD_REQUEST/CODE, one whose body was not read
BAD_REQUEST, and that answer fails a batch it is of. -/
def Obligations.TakingHandsARequestToItsOwner : Prop :=
  (∀ (s : State) (f : InFrame) (rest : List InFrame) (q : Request),
    s.link.inbound = f :: rest → f.mark = .sole → f.reading = some q → q.code = f.code →
    s.book.hmp.helloPosted = true → s.book.hmp.repliesHeld < 96 → s.book.hmp.restart = .none →
    (∀ h ∈ s.book.mail.requests, h.request.owner ≠ .hmp) →
    ∃ t, Runs .takeRequest s t ∧ t.link.inbound = rest ∧ t.link.occupied = s.link.occupied - f.length ∧
      t.link.awaitingReturn = s.link.awaitingReturn + f.length ∧
      t.book.mail.requests =
        s.book.mail.requests ++ [{ ctx := { tag := f.tag, code := f.code, mark := .sole }, request := q }] ∧
      t.book.hmp.held = s.book.hmp.held ++ [{ tag := f.tag, code := f.code, mark := .sole }] ∧
      t.book.hmp.out = s.book.hmp.out) ∧
  (∀ (s : State) (f : InFrame) (rest : List InFrame),
    s.link.inbound = f :: rest → s.book.readyFor f.mark = true →
    f.mark = .sole ∨ f.mark = .first ∧ s.book.hmp.batch = .none ∨
        (f.mark = .middle ∨ f.mark = .last) ∧ s.book.hmp.batch = .opened →
    ∃ t, Runs .takeRequest s t ∧ t.link.inbound = rest ∧ t.link.occupied = s.link.occupied - f.length ∧
      t.link.awaitingReturn = s.link.awaitingReturn + f.length ∧
      let c : Ctx := { tag := f.tag, code := f.code, mark := f.mark }
      let answered (a : Answer) : Prop :=
        Replied s t c a ∧ t.book.mail.requests = s.book.mail.requests ∧
          (f.mark = .sole → t.book.hmp.batch = s.book.hmp.batch) ∧
          (f.mark = .first ∨ f.mark = .middle → t.book.hmp.batch = .failed) ∧
          (f.mark = .last → t.book.hmp.batch = .none)
      (∀ q, f.reading = some q → q.code = f.code →
        t.book.mail.requests = s.book.mail.requests ++ [{ ctx := c, request := q }] ∧
          t.book.hmp.held = s.book.hmp.held ++ [c] ∧ t.book.hmp.out = s.book.hmp.out ∧
          (f.mark = .sole → t.book.hmp.batch = s.book.hmp.batch) ∧
          (f.mark ≠ .sole → t.book.hmp.batch = .opened)) ∧
      (f.code < 1 ∨ 41 < f.code → answered (Answer.because .badRequest .code)) ∧
      (1 ≤ f.code → f.code ≤ 41 → (∀ q, f.reading = some q → q.code ≠ f.code) →
        answered (Answer.of .badRequest)))

/-- R187: what the HMP does itself with a marked request by the batch state: a MIDDLE or LAST with no batch open and a
FIRST within one are answered BAD_REQUEST/BATCH, a MIDDLE or LAST of a failed batch SKIPPED; the batch state follows. -/
def Obligations.BatchOrderIsKept : Prop :=
  ∀ (s : State) (f : InFrame) (rest : List InFrame),
    s.link.inbound = f :: rest → s.book.readyFor f.mark = true →
    ∃ t, Runs .takeRequest s t ∧
      let c : Ctx := { tag := f.tag, code := f.code, mark := f.mark }
      let answered (a : Answer) (after : BatchState) : Prop :=
        t.book.hmp.out = s.book.hmp.out ++ [.reply c a] ∧ t.book.hmp.batch = after ∧
          t.book.mail.requests = s.book.mail.requests
      (f.mark = .first ∧ s.book.hmp.batch ≠ .none → answered (Answer.because .badRequest .batch) .failed) ∧
      (f.mark = .middle ∧ s.book.hmp.batch = .none → answered (Answer.because .badRequest .batch) .none) ∧
      (f.mark = .last ∧ s.book.hmp.batch = .none → answered (Answer.because .badRequest .batch) .none) ∧
      (f.mark = .middle ∧ s.book.hmp.batch = .failed → answered (Answer.of .skipped) .failed) ∧
      (f.mark = .last ∧ s.book.hmp.batch = .failed → answered (Answer.of .skipped) .none)

/-- R188, R189: HELLO becomes the head of the queue. A RESTART that is not SOLE is answered BAD_REQUEST/BATCH and one
during a commit BUSY/COMMIT, and neither becomes pending; a SOLE one outside a commit does. While it is pending no
request is taken; with every earlier request answered its OK is posted; and when that OK has been read the next state is
the state reset with kind RESTART, every block of it. -/
def Obligations.HelloAndRestart : Prop :=
  (∀ s : State, s.book.hmp.helloPosted = false →
    ∃ t, Runs .hello s t ∧ t.book.hmp.helloPosted = true ∧
      t.book.hmp.out =
        .notice 0 (.hello .cb384 Config.revision 96 s.book.cfs.valid s.book.hmp.resetKind) :: s.book.hmp.out) ∧
  (∀ (s : State) (c : Ctx) (rest : List Handed),
    Asks s c .restart rest → c.mark = .sole → s.book.cfs.commit = none →
    ∃ t, Runs .restart s t ∧ t.book.hmp.restart = .pending c ∧ t.book.mail.requests = rest ∧
      t.book.hmp.out = s.book.hmp.out) ∧
  (∀ (s : State) (c : Ctx) (rest : List Handed),
    Asks s c .restart rest → s.book.hmp.restart = .none → c.mark ≠ .sole ∨ s.book.cfs.commit ≠ none →
    ∃ t, Runs .restart s t ∧ t.book.hmp.restart = .none ∧ t.book.mail.requests = rest ∧
      (c.mark ≠ .sole → Replied s t c (Answer.because .badRequest .batch) ∧
        (s.book.hmp.batch = .opened → c.mark ≠ .last → t.book.hmp.batch = .failed)) ∧
      (c.mark = .sole → Replied s t c (Answer.because .busy .commit))) ∧
  (∀ (s : State) (c : Ctx), s.book.hmp.restart = .pending c → Runs .takeRequest s s) ∧
  (∀ (s : State) (c : Ctx), s.book.hmp.restart = .pending c → s.book.hmp.held = [c] →
    ∃ t, Runs .restartReply s t ∧ t.book.hmp.restart = .answered ∧
      t.book.hmp.out = s.book.hmp.out ++ [.reply c (Answer.ok .none)]) ∧
  (∀ (s : State) (r : ReadSelect), s.link.reading = some r → s.book.hmp.restartRead r.yield = true →
    Runs .linkReadComplete s (s.resetBy .restart)) ∧
  (∀ s : State,
    let t := s.resetBy .restart
    t.pending = s.pending ∧ t.link = Link.reset ∧ t.ctu = Ctu.reset ∧ t.book.hmp = Hmp.reset .restart ∧
      t.book.mail = Mail.reset ∧ t.book.bss = Bss.reset ∧ t.book.bke.records.entries = [] ∧
      t.book.bke.rows.entries = [] ∧ t.book.bke.series.entries = [] ∧ t.book.bke.draft = Draft.empty ∧
      t.book.csc.orders.entries = [] ∧ t.book.squ.runs.entries = [] ∧ t.ppu.waits = [] ∧ t.ppu.horizon = none ∧
      (∀ k x, t.sbc.stations.find k = some x → x.state = .absent) ∧
      t.book.cfs.committed = s.book.cfs.committed ∧ t.book.cfs.commitNumber = s.book.cfs.commitNumber)

/-- R1, R181, R188, R191: what a power-on reset leaves: the link counts, an empty queue, no tag, an UNSET clock, empty
tables of bookings, orders, runs and series, and the committed set loaded where it is COMPLETE. -/
def Obligations.PowerOnResetLeavesTheResetValues : Prop :=
  ∀ s : State, ∃ t, Runs .powerOnReset s t ∧
    t.link.occupied = 0 ∧ t.link.awaitingReturn = 0 ∧ t.link.hostCredit = 96 ∧ t.link.inbound = [] ∧
    t.book.hmp.out = [] ∧ t.book.hmp.tags = [] ∧ t.book.hmp.batch = .none ∧ t.book.hmp.dropped = 0 ∧
    t.book.hmp.restart = .none ∧ t.attention = false ∧ t.ctu.clock = none ∧ t.ctu.second = 0 ∧
    t.book.bke.records.entries = [] ∧ t.book.bke.rows.entries = [] ∧ t.book.bke.holds = [] ∧
    t.book.bke.series.entries = [] ∧ t.book.csc.orders.entries = [] ∧ t.book.squ.runs.entries = [] ∧
    t.book.cfs.committed = s.book.cfs.committed ∧ t.book.cfs.commitNumber = s.book.cfs.commitNumber ∧
    t.book.cfs.valid = s.book.cfs.complete ∧ t.book.cfs.staged = [] ∧ t.book.cfs.commit = none ∧
    (s.book.cfs.complete = true →
      t.book.bke.rooms = s.book.cfs.committed.roomTable ∧ t.book.squ.templates = s.book.cfs.committed.templates ∧
        t.sbc.pollPeriod = s.book.cfs.committed.settings.pollPeriod) ∧
    (s.book.cfs.complete = false →
      t.book.bke.rooms.entries = [] ∧ t.sbc.stations.entries = [] ∧ t.book.csc.kitchens.entries = [] ∧
        t.sbc.pollPeriod = 2)


/-! ## The clock (01) -/

/-- R2 to R4: one second of the crystal: it counts in either clock state, advances the elapsed base, and each sixtieth
is a minute completion. A minute completion below 1439 advances the minute, raises the reach mark, and delivers the
minute event to every recipient, behind slot boundary b where x = 360 + 15b exceeds the mark held before, and to the PPU
what falls due for it. In an UNSET clock a minute completion changes nothing but the count of those that wait. -/
def Obligations.SecondsAndMinutesPass : Prop :=
  (∀ s : State, ∃ t, Runs .secondCompletion s t ∧ t.book = s.book ∧ t.ctu.clock = s.ctu.clock ∧
    t.ctu.setting = s.ctu.setting ∧ t.ctu.trimming = s.ctu.trimming ∧ t.ctu.opening = s.ctu.opening ∧
    t.ctu.elapsed = s.ctu.elapsed + 32768 ∧
    (s.ctu.second < 59 → t.ctu.second = s.ctu.second + 1 ∧ t.ctu.minutesDue = s.ctu.minutesDue) ∧
    (59 ≤ s.ctu.second → t.ctu.second = 0 ∧ t.ctu.minutesDue = s.ctu.minutesDue + 1)) ∧
  (∀ (s : State) (c : Clock), s.ctu.clock = some c → s.ctu.minutesDue ≠ 0 → s.ctu.holding = false → c.minute < 1439 →
    ∃ t c', Runs .minuteCompletion s t ∧ t.ctu.clock = some c' ∧ t.ctu.minutesDue = s.ctu.minutesDue - 1 ∧
      t.ctu.second = s.ctu.second ∧ c'.date = c.date ∧ c'.weekday = c.weekday ∧ c'.minute = c.minute + 1 ∧
      c'.reach = max c.reach (c.minute + 1) ∧
      let minute : TimeEvent := { date := c.date, kind := .minute (c.minute + 1) }
      t.book.mail.squEvents = s.book.mail.squEvents ++ [minute] ∧
      t.book.mail.ppuEvents = s.book.mail.ppuEvents ++ (eventsAt c.date c.reach (c.minute + 1)).ppu ∧
      (∀ b, b ≤ 64 → c.minute + 1 = 360 + 15 * b → c.reach < c.minute + 1 →
        c'.lastBoundary = some b ∧
          t.book.mail.bkeEvents =
            s.book.mail.bkeEvents ++ [{ date := c.date, kind := boundaryEvent b }, minute] ∧
          t.book.mail.cscEvents =
            s.book.mail.cscEvents ++ [{ date := c.date, kind := boundaryEvent b }, minute]) ∧
      ((∀ b, b ≤ 64 → c.minute + 1 ≠ 360 + 15 * b) ∨ c.minute + 1 ≤ c.reach →
        c'.lastBoundary = c.lastBoundary ∧ t.book.mail.bkeEvents = s.book.mail.bkeEvents ++ [minute] ∧
          t.book.mail.cscEvents = s.book.mail.cscEvents ++ [minute])) ∧
  (∀ s : State, s.ctu.clock = none → s.ctu.minutesDue ≠ 0 → s.ctu.holding = false →
    ∃ t, Runs .minuteCompletion s t ∧ t.book = s.book ∧
      t.ctu = { s.ctu with minutesDue := s.ctu.minutesDue - 1 })

/-- R4: what the PPU is delivered at minute x: above the mark the morning build at 345, the pre-boundary b at 359 + 15b,
the boundary b at 360 + 15b with the slots it begins and ends, and the day-end at 1320, in the order of R4; at or below
the mark the minute event alone. The BKE and the CSC are delivered the boundary and the minute event, the SQU the minute
event. -/
def Obligations.PagesAreDeliveredTheDaysEvents : Prop :=
  ∀ (d : Date) (mark x : Nat), x ≤ 1439 →
    let ev (k : EventKind) : TimeEvent := { date := d, kind := k }
    let got := (eventsAt d mark x).ppu
    (x ≤ mark → got = [ev (.minute x)]) ∧
      (mark < x → x = 345 → got = [ev .morningBuild, ev (.minute x)]) ∧
      (mark < x → ∀ b, b ≤ 64 → x = 359 + 15 * b → got = [ev (.preBoundary b), ev (.minute x)]) ∧
      (mark < x → ∀ b, b ≤ 63 → x = 360 + 15 * b →
        got = [ev (.slotBoundary b (some b) (if 1 ≤ b then some (b - 1) else none)), ev (.minute x)]) ∧
      (mark < x → x = 1320 → got = [ev (.slotBoundary 64 none (some 63)), ev .dayEnd, ev (.minute x)]) ∧
      (mark < x → x ≠ 345 → (∀ b, b ≤ 64 → x ≠ 359 + 15 * b ∧ x ≠ 360 + 15 * b) → got = [ev (.minute x)]) ∧
      (eventsAt d mark x).squ = [ev (.minute x)] ∧ (eventsAt d mark x).csc = (eventsAt d mark x).bke ∧
      (mark < x → ∀ b, b ≤ 64 → x = 360 + 15 * b →
        (eventsAt d mark x).bke = [ev (boundaryEvent b), ev (.minute x)]) ∧
      (x ≤ mark ∨ (∀ b, b ≤ 64 → x ≠ 360 + 15 * b) → (eventsAt d mark x).bke = [ev (.minute x)])

/-- R2, R12: midnight: the date and weekday advance, the reach mark is 0 with no boundary delivered, and each recipient
is delivered day retire, day open with the date that becomes day offset 13 and its weekday, and minute 0; DAY_OPENED
follows when every midnight event has been taken. The calendar gives a valid date after each valid date, year 00 after
year 99, and the weekday of R7 advances with it. -/
def Obligations.MidnightOpensTheNextDay : Prop :=
  (∀ (s : State) (c : Clock),
    s.ctu.clock = some c → s.ctu.minutesDue ≠ 0 → s.ctu.holding = false → 1439 ≤ c.minute →
    ∃ t, Runs .minuteCompletion s t ∧
      t.ctu.clock =
        some { date := c.date.next, weekday := c.weekday.next, minute := 0, reach := 0, lastBoundary := none } ∧
      t.ctu.opening = true ∧
      let events : List TimeEvent :=
        [{ date := c.date, kind := .dayRetire },
          { date := c.date.next, kind := .dayOpen (c.date.next.after 13) (weekday13 c.weekday.next) },
          { date := c.date.next, kind := .minute 0 }]
      t.book.mail.bkeEvents = s.book.mail.bkeEvents ++ events ∧
        t.book.mail.ppuEvents = s.book.mail.ppuEvents ++ events ∧
        t.book.mail.cscEvents = s.book.mail.cscEvents ++ events ∧
        t.book.mail.squEvents = s.book.mail.squEvents ++ events) ∧
  (∀ (s : State) (c : Clock),
    s.ctu.clock = some c → s.ctu.opening = true → s.book.mail.eventLeft EventKind.isMidnight = false →
    ∃ t, Runs .dayOpened s t ∧ t.ctu = { s.ctu with opening := false } ∧
      t.book = s.book.post (.dayOpened c.date c.weekday (c.date.after 13))) ∧
  ((∀ d : Date, d.valid = true → d.next.valid = true) ∧
    Date.next { year := 99, month := 12, day := 31 } = { year := 0, month := 1, day := 1 } ∧
    Date.weekday { year := 0, month := 1, day := 1 } = .saturday ∧
    ∀ d : Date, d.valid = true → ¬(d.year = 99 ∧ d.month = 12 ∧ d.day = 31) → d.next.weekday = d.weekday.next)

/-- R7, R8: SET_CLOCK is answered BAD_REQUEST, then REFUSED/SET, else it sets the clock and delivers horizon open; with
every horizon open taken CLOCK_STATE SET and the OK are posted. -/
def Obligations.SetClockSetsAndOpensTheHorizon : Prop :=
  (∀ (s : State) (x : Ctx) (d : Date) (m : Nat) (rest : List Handed),
    Asks s x (.setClock d m) rest → s.ctu.trimming = none →
    ∃ t, Runs .setClock s t ∧ t.book.mail.requests = rest ∧
      (d.valid = false ∨ 1439 < m → t.ctu = s.ctu ∧ Replied s t x (Answer.of .badRequest)) ∧
      (d.valid = true → m ≤ 1439 → s.ctu.clock ≠ none →
        t.ctu = s.ctu ∧ Replied s t x (Answer.because .refused .set)) ∧
      (d.valid = true → m ≤ 1439 → s.ctu.clock = none →
        t.ctu.clock =
            some { date := d, weekday := d.weekday, minute := m, reach := m, lastBoundary := none } ∧
          t.ctu.second = 0 ∧ t.ctu.minutesDue = 0 ∧ t.ctu.elapsed = s.ctu.elapsed ∧
          t.book.hmp.out = s.book.hmp.out ∧
          let event : TimeEvent := { date := d, kind := .horizonOpen d.weekday m .beforeDay }
          t.book.mail.bkeEvents = s.book.mail.bkeEvents ++ [event] ∧
            t.book.mail.ppuEvents = s.book.mail.ppuEvents ++ [event] ∧
            t.book.mail.cscEvents = s.book.mail.cscEvents ++ [event] ∧
            t.book.mail.squEvents = s.book.mail.squEvents ++ [event])) ∧
  (∀ (s : State) (x : Ctx) (c : Clock),
    s.ctu.setting = some (x, c) → s.book.mail.eventLeft EventKind.isHorizonOpen = false →
    ∃ t, Runs .clockSetComplete s t ∧ t.ctu = { s.ctu with setting := none } ∧
      t.book =
        (s.book.post (.clockState .running c.date c.weekday c.minute c.slot c.reach .set)).reply x
          (Answer.ok (.clockSet c.date c.weekday c.minute c.slot)))

/-- R9, R11: a backward trim moves the minute alone, delivers nothing, and is answered at once behind its CLOCK_STATE;
the minute of a SQU whose today it is moves back with it (log 44). A trim that is refused leaves the clock as it was.
That no request waits behind a SET_CLOCK whose horizon opens are still being taken is the model's choice (log 107). -/
def Obligations.BackwardAndRefusedTrimsDeliverNothing : Prop :=
  (∀ (s : State) (x : Ctx) (c : Clock) (k : Nat) (rest : List Handed),
    Asks s x (.trimClock (-(k : Int))) rest → s.ctu.trimming = none → s.ctu.clock = some c → 1 ≤ k → k ≤ 30 →
    k ≤ c.minute → c.minute ≤ 1439 →
    let c' : Clock := { c with minute := c.minute - k }
    ∃ t, Runs .trimClock s t ∧ t.ctu = { s.ctu with clock := some c' } ∧
      t.book.mail = { s.book.mail with requests := rest } ∧
      t.book =
        (((s.book.withMail { s.book.mail with requests := rest }).squMinuteBack c.date c'.minute).post
          (.clockState .running c.date c.weekday c'.minute c.slot c.reach (.trim (-(k : Int))))).reply x
            (Answer.ok (.trimmed c'.minute c.slot)) ∧
      t.book.squ =
        (if s.book.squ.horizon.any (fun h => h.today == c.date) then
          { s.book.squ with minute := s.book.squ.minute.map (min c'.minute) }
        else s.book.squ)) ∧
  (∀ (s : State) (x : Ctx) (n : Int) (rest : List Handed),
    Asks s x (.trimClock n) rest → s.ctu.trimming = none →
    ∃ t, Runs .trimClock s t ∧
      (n = 0 ∨ n < -30 ∨ 30 < n → t.ctu = s.ctu ∧ Replied s t x (Answer.of .badRequest)) ∧
      (n ≠ 0 → -30 ≤ n → n ≤ 30 → s.ctu.clock = none → t.ctu = s.ctu ∧ Replied s t x (Answer.of .clockUnset)) ∧
      (n ≠ 0 → -30 ≤ n → n ≤ 30 → ∀ c, s.ctu.clock = some c → (c.minute : Int) + n < 0 ∨ 1439 < (c.minute : Int) + n →
        t.ctu = s.ctu ∧ Replied s t x (Answer.because .refused .trim)))

/-- R9, R10: a forward trim by k takes the clock from minute m to m + k, raises the mark, delivers to each recipient
what falls due at each of the k minutes in rising order, the boundaries, pre-boundaries and day events above the mark
among them, with the last boundary delivered following, and is answered when every event has been taken. The k minutes
are one step (log 8). That no request waits behind a SET_CLOCK whose horizon opens are still being taken is the model's
choice (log 107). -/
def Obligations.ForwardTrimPassesEveryMinute : Prop :=
  (∀ (s : State) (x : Ctx) (c : Clock) (k : Nat) (rest : List Handed),
    Asks s x (.trimClock (k : Int)) rest → s.ctu.trimming = none → s.ctu.clock = some c → 1 ≤ k → k ≤ 30 →
    c.minute + k ≤ 1439 →
    ∃ t c', Runs .trimClock s t ∧ t.ctu = { s.ctu with clock := some c', trimming := some (x, (k : Int)) } ∧
      c'.minute = c.minute + k ∧ c'.reach = max c.reach (c.minute + k) ∧ c'.date = c.date ∧
      c'.weekday = c.weekday ∧ t.book.hmp.out = s.book.hmp.out ∧
      let due (i : Nat) : Delivery := eventsAt c.date c.reach (c.minute + i + 1)
      let passed (b : Nat) : Prop :=
        b ≤ 64 ∧ c.reach < 360 + 15 * b ∧ c.minute < 360 + 15 * b ∧ 360 + 15 * b ≤ c.minute + k
      t.book.mail.squEvents =
        s.book.mail.squEvents ++
          ((List.range k).map fun i => { date := c.date, kind := .minute (c.minute + i + 1) }) ∧
      t.book.mail.bkeEvents = s.book.mail.bkeEvents ++ ((List.range k).flatMap fun i => (due i).bke) ∧
      t.book.mail.ppuEvents = s.book.mail.ppuEvents ++ ((List.range k).flatMap fun i => (due i).ppu) ∧
      t.book.mail.cscEvents = s.book.mail.cscEvents ++ ((List.range k).flatMap fun i => (due i).csc) ∧
      (∀ b, passed b → ¬passed (b + 1) → c'.lastBoundary = some b) ∧
      ((∀ b, ¬passed b) → c'.lastBoundary = c.lastBoundary)) ∧
  (∀ (s : State) (x : Ctx) (c : Clock) (n : Int),
    s.ctu.trimming = some (x, n) → s.ctu.clock = some c → s.book.mail.eventLeft (fun _ => true) = false →
    ∃ t, Runs .trimComplete s t ∧ t.ctu = { s.ctu with trimming := none } ∧
      t.book =
        (s.book.post (.clockState .running c.date c.weekday c.minute c.slot c.reach (.trim n))).reply x
          (Answer.ok (.trimmed c.minute c.slot)))

/-- R13: READ_CLOCK is answered OK in both clock states, with the values held when it is taken, and changes nothing;
behind a forward trim it is held. That no request waits behind a SET_CLOCK whose horizon opens are still being taken is
the model's choice (log 107). -/
def Obligations.ReadClockAnswersInBothStates : Prop :=
  (∀ (s : State) (x : Ctx) (rest : List Handed), Asks s x .readClock rest → s.ctu.trimming = none →
    ∃ t, Runs .readClock s t ∧ OnlyReads s t rest ∧
      (s.ctu.clock = none →
        Replied s t x (Answer.ok (.clock .unset none none s.ctu.second none none none none))) ∧
      (∀ c, s.ctu.clock = some c →
        Replied s t x
          (Answer.ok
            (.clock .running (some (c.date, c.weekday)) (some c.minute) s.ctu.second (some c.reach)
              (some (slotOfBoundary c.lastBoundary)) (some (windowOfBoundary c.lastBoundary))
              (some (c.date.after 13)))))) ∧
  (∀ s : State, s.ctu.trimming ≠ none → Runs .readClock s s)

/-- R5: the current slot and window are taken from the last slot boundary delivered today; a slot has begun, or ended,
when its boundary has been delivered; within one date the last boundary never moves back, and a new date begins with
none. -/
def Obligations.CurrentSlotFollowsTheLastBoundary : Prop :=
  (∀ (s : State) (c : Clock), s.ctu.clock = some c →
    (c.lastBoundary = none → s.ctu.slot = .beforeDay ∧ windowOfBoundary c.lastBoundary = .beforeDay) ∧
      (∀ b, c.lastBoundary = some b → b ≤ 63 →
        s.ctu.slot = .slot b ∧ windowOfBoundary c.lastBoundary = .slot (b / 2)) ∧
      (c.lastBoundary = some 64 → s.ctu.slot = .afterDay ∧ windowOfBoundary c.lastBoundary = .afterDay) ∧
      ∀ n, s.ctu.delivered n = true ↔ ∃ b, c.lastBoundary = some b ∧ n ≤ b) ∧
  (∀ (s t : State) (c c' : Clock),
    ClockLaw s.ctu → s.ctu.clock = some c → step s = .next t → t.ctu.clock = some c' →
      (c'.date = c.date → ∀ b, c.lastBoundary = some b → ∃ b', c'.lastBoundary = some b' ∧ b ≤ b') ∧
        (c'.date ≠ c.date → c'.lastBoundary = none ∧ t.ctu.slot = .beforeDay))


/-! ## The live book: requests (03) -/

/-- R32, R34: a new record takes an id that no record has and a slot that is empty. -/
def Obligations.NewIdsAndSlotsAreFree : Prop :=
  ∀ b : Book, b.tableFull = false →
    (1 ≤ b.newId ∧ b.newId ≤ 65535 ∧ b.newId ∉ b.usedIds) ∧
      b.slot b.newSlot = none ∧ b.newSlot < 4096 ∧ ∀ m, m < b.newSlot → b.slot m ≠ none

/-- R40, R42, R47: BOOK in the write edition LIVE makes a CONFIRMED meeting, started at once where its start slot has
begun, with a run where the room has a template; it writes the span and the buffer, and replies. That the run and the
buffer follow the templates which the SQU holds, also while a commit is being taken, is the model's choice (log 68).
R24, R25: in either write edition a BOOK that the conflict test refuses is answered with the test's outcome and changes
nothing; and of every claim the test passes just where each row is GOOD and no tested cell is taken, and else answers
what R25 says. That a CONFLICT names no booking id where no SOUND record covers the cell and that of two which cover it,
in a stale draft view, it names the one in the lower record slot are the model's choices (logs 60 and 109). -/
def Obligations.BookMakesAConfirmedMeeting : Prop :=
  (∀ (s : State) (c : Ctx) (f : BookFields) (rest : List Handed) (rm : Room),
    Asks s c (.book f) rest → s.book.bke.writeEdition = .live → StoreSound s.book → FieldsOk f →
    SpanPasses s.ctu s.book f.date f.start f.count → RoomTakes s.book f.room f.attendees rm →
    TablesOpen s.book rm →
    let buf := clipBuffer (f.start + f.count) (s.book.squ.bufferOf rm)
    RowsOpen s.book f.room f.date f.start (f.count + buf) →
    ∃ t r, Runs .book s t ∧ t.book.slot s.book.newSlot = some (.sound r) ∧
      r.id = s.book.newId ∧ r.kind = .meeting ∧ r.edition = .live ∧ r.origin = .host ∧ r.room = f.room ∧
      r.date = f.date ∧ r.start = f.start ∧ r.count = f.count ∧ r.attendees = f.attendees ∧
      r.organiser = f.organiser ∧ r.series = none ∧ r.order = none ∧ r.bufSlots = buf ∧ r.check = .none ∧
      r.run = (if (s.book.squ.templateOf rm).isSome then some s.book.squ.newRunId else none) ∧
      (s.book.begun s.ctu f.date f.start = false → r.state = .confirmed ∧ r.graceExpiry = none) ∧
      (s.book.begun s.ctu f.date f.start = true → rm.checkin = false → r.state = .inProgress) ∧
      (s.book.begun s.ctu f.date f.start = true → rm.checkin = true →
        r.state = .awaitingCheckin ∧
          r.graceExpiry = some (min 1439 (max (360 + 15 * f.start) s.ctu.minute + rm.grace))) ∧
      t.book.bke.lastId = s.book.newId ∧ t.book.bke.holds = s.book.bke.holds ∧
      t.book.mail.requests = rest ∧ Replied s t c (Answer.ok (.booked (s.book.placed r) r.state r.run)) ∧
      RowsWritten s t f.room f.date (spanWritten f.room f.start f.count buf .booked) ∧
      ClaimKeeps s t s.book.newSlot f.room f.date ∧ t.book.csc = s.book.csc) ∧
  (∀ (s : State) (c : Ctx) (f : BookFields) (rest : List Handed) (rm : Room) (a : Answer),
    Asks s c (.book f) rest → TestReady s.book s.book.bke.writeEdition f.room f.date → FieldsOk f →
    SpanPasses s.ctu s.book f.date f.start f.count → RoomTakes s.book f.room f.attendees rm →
    TestRefuses s.book s.book.bke.writeEdition f.room f.date f.start f.count
      (clipBuffer (f.start + f.count) (s.book.squ.bufferOf rm)) none a →
    ∃ t, Runs .book s t ∧ ClaimRefused s t c rest a) ∧
  (∀ (b : Book) (ed : Edition) (room : Nat) (d : Date) (start count buf : Nat) (excl : Option Record),
    DraftsWhole b ed room d →
    (b.conflict ed room d start count buf excl = none ↔ TestPasses b ed room d start (count + buf) excl) ∧
      (b.bke.records.wf = true → ∀ a, TestRefuses b ed room d start count buf excl a →
        b.conflict ed room d start count buf excl = some a))

/-- R37: HOLD makes a HELD meeting whose id enters the hold list with its expiry minute; it writes HELD over the span,
TIED in part rows and BUFFER over the buffer, and replies. R39, R42: CONFIRM makes it CONFIRMED, off the hold list, with
a run where the room has a template, its span BOOKED, TIED in part rows, and its buffer standing. The templates are
those which the SQU holds: the model's choice (log 68). R25, R39: a HOLD that the conflict test refuses, and a CONFIRM
over a row that is not GOOD, are answered with the test's outcome and change nothing (a CONFLICT's id: logs 60 and 109).
-/
def Obligations.HoldAndConfirm : Prop :=
  (∀ (s : State) (c : Ctx) (f : BookFields) (asked : Option Nat) (rest : List Handed) (rm : Room),
    Asks s c (.hold f asked) rest → s.book.bke.writeEdition = .live → StoreSound s.book → FieldsOk f →
    asked.getD 0 ≤ 30 → SpanPasses s.ctu s.book f.date f.start f.count → RoomTakes s.book f.room f.attendees rm →
    s.book.tableFull = false → s.book.bke.holds.length < 64 →
    let buf := clipBuffer (f.start + f.count) (s.book.squ.bufferOf rm)
    let minutes := if asked.getD 0 = 0 then s.book.bke.holdMinutes else asked.getD 0
    let expiry := min 1439 (s.ctu.minute + minutes)
    RowsOpen s.book f.room f.date f.start (f.count + buf) →
    ∃ t r, Runs .hold s t ∧ t.book.slot s.book.newSlot = some (.sound r) ∧
      r.id = s.book.newId ∧ r.kind = .meeting ∧ r.edition = .live ∧ r.origin = .host ∧ r.state = .held ∧
      r.check = .none ∧ r.room = f.room ∧ r.date = f.date ∧ r.start = f.start ∧ r.count = f.count ∧
      r.attendees = f.attendees ∧ r.organiser = f.organiser ∧ r.bufSlots = buf ∧
      r.series = none ∧ r.order = none ∧ r.run = none ∧ r.holdExpiry = some expiry ∧
      (∃ e, e ∈ t.book.bke.holds ∧ e.id = r.id ∧ e.expiry = expiry) ∧
      (∀ e ∈ s.book.bke.holds, e ∈ t.book.bke.holds) ∧ t.book.squ = s.book.squ ∧ t.book.csc = s.book.csc ∧
      t.book.mail.requests = rest ∧ Replied s t c (Answer.ok (.hold (s.book.placed r) expiry)) ∧
      RowsWritten s t f.room f.date (spanWritten f.room f.start f.count buf .held) ∧
      ClaimKeeps s t s.book.newSlot f.room f.date) ∧
  (∀ (s : State) (c : Ctx) (n : Nat) (r : Record) (rest : List Handed),
    Asks s c (.confirm r.id) rest → StoreSound s.book → s.book.bke.horizon ≠ none → HoldsLive s.book n r →
    r.kind = .meeting → r.state = .held → RowsOpen s.book r.room r.date r.start 0 →
    (∀ rm, s.book.room r.room = some rm → s.book.runsShort rm = false) →
    ∃ t r', Runs .confirm s t ∧ t.book.slot n = some (.sound r') ∧ r'.id = r.id ∧ r'.holdExpiry = none ∧
      r'.room = r.room ∧ r'.date = r.date ∧ r'.start = r.start ∧ r'.count = r.count ∧
      (s.book.begun s.ctu r.date r.start = false → r'.state = .confirmed) ∧
      (s.book.begun s.ctu r.date r.start = true → r'.state.started = true) ∧
      (∀ e ∈ t.book.bke.holds, e.id ≠ r.id) ∧
      (∀ e ∈ s.book.bke.holds, e.id ≠ r.id → e ∈ t.book.bke.holds) ∧
      t.book.mail.requests = rest ∧ Replied s t c (Answer.ok (.reached r.id r'.state r'.run)) ∧
      (∀ rm, s.book.room r.room = some rm →
        ((s.book.squ.templateOf rm).isSome = false → r'.run = r.run ∧ t.book.squ = s.book.squ) ∧
        ((s.book.squ.templateOf rm).isSome = true →
          r'.run = some s.book.squ.newRunId ∧
            ∃ x, t.book.squ.runs.find s.book.squ.newRunId = some x ∧ x.booking = r.id ∧ x.room = r.room ∧
              x.date = r.date ∧ x.state = .armed ∧ x.startMinute = 360 + 15 * r.start ∧
              x.endMinute = 360 + 15 * (r.start + r.count))) ∧
      RowsWritten s t r.room r.date (spanWritten r.room r.start r.count (heldBuffer r) .booked) ∧
      ClaimKeeps s t n r.room r.date) ∧
  (∀ (s : State) (c : Ctx) (f : BookFields) (asked : Option Nat) (rest : List Handed) (rm : Room) (a : Answer),
    Asks s c (.hold f asked) rest → s.book.bke.writeEdition = .live → TestReady s.book .live f.room f.date →
    FieldsOk f → asked.getD 0 ≤ 30 → SpanPasses s.ctu s.book f.date f.start f.count →
    RoomTakes s.book f.room f.attendees rm →
    TestRefuses s.book .live f.room f.date f.start f.count
      (clipBuffer (f.start + f.count) (s.book.squ.bufferOf rm)) none a →
    ∃ t, Runs .hold s t ∧ ClaimRefused s t c rest a) ∧
  (∀ (s : State) (c : Ctx) (n : Nat) (r : Record) (rest : List Handed) (a : Answer),
    Asks s c (.confirm r.id) rest → TestReady s.book .live r.room r.date → s.book.bke.horizon ≠ none →
    HoldsLive s.book n r → r.kind = .meeting → r.state = .held →
    TestRefuses s.book .live r.room r.date r.start 0 0 none a →
    ∃ t, Runs .confirm s t ∧ ClaimRefused s t c rest a)

/-- R41: LOAD restores a booking under the id given, in the state given, with the buffer of the template that the SQU
holds (the model's choice, log 68). R26: CLOSE_CELLS in the write edition LIVE makes a closure over CLOSED cells. R77:
in the write edition DRAFT it makes a draft closure over the draft rows. R25: a LOAD or, in either write edition, a
CLOSE_CELLS that the conflict test refuses is answered with the test's outcome and changes nothing (a CONFLICT's id:
logs 60 and 109). -/
def Obligations.LoadAndCloseCells : Prop :=
  (∀ (s : State) (c : Ctx) (f : BookFields) (id : Nat) (st : LoadState) (rest : List Handed) (rm : Room),
    Asks s c (.load f id st) rest → s.book.bke.writeEdition = .live → StoreSound s.book → FieldsOk f →
    1 ≤ id → id ≤ 65535 → id ∉ s.book.usedIds → s.book.bke.horizon.isSome = true →
    (s.book.offset f.date).isSome = true → spanInDay f.start f.count = true →
    (s.book.isToday f.date = true → s.ctu.passed (f.start + f.count) = false) →
    RoomTakes s.book f.room f.attendees rm → TablesOpen s.book rm →
    let buf := clipBuffer (f.start + f.count) (s.book.squ.bufferOf rm)
    RowsOpen s.book f.room f.date f.start (f.count + buf) →
    let past := s.book.startPast s.ctu f.date f.start
    st = .confirmed ∨ (past = true ∧ (st = .checkedIn ∨ st = .inProgress)) →
    ∃ t r, Runs .load s t ∧ t.book.slot s.book.newSlot = some (.sound r) ∧ r.id = id ∧ r.origin = .load ∧
      r.kind = .meeting ∧ r.edition = .live ∧ r.room = f.room ∧ r.date = f.date ∧ r.start = f.start ∧
      r.count = f.count ∧ r.bufSlots = buf ∧ t.book.bke.lastId = s.book.bke.lastId ∧
      (st = .checkedIn → r.state = .checkedIn ∧ r.check = .done) ∧ (st = .inProgress → r.state = .inProgress) ∧
      (st = .confirmed → past = false → r.state = .confirmed) ∧
      (st = .confirmed → past = true → rm.checkin = true → r.state = .awaitingCheckin) ∧
      (st = .confirmed → past = true → rm.checkin = false → r.state = .inProgress) ∧
      t.book.mail.requests = rest ∧ Replied s t c (Answer.ok (.reached id r.state r.run)) ∧
      RowsWritten s t f.room f.date (spanWritten f.room f.start f.count buf .booked) ∧
      ClaimKeeps s t s.book.newSlot f.room f.date) ∧
  (∀ (s : State) (c : Ctx) (f : CloseFields) (rest : List Handed) (rm : Room),
    Asks s c (.closeCells f) rest → s.book.bke.writeEdition = .live → StoreSound s.book → f.room ≤ 383 →
    labelBad f.label = false → SpanPasses s.ctu s.book f.date f.start f.count → s.book.room f.room = some rm →
    s.book.bke.guard.contains f.room = false → s.book.tableFull = false →
    RowsOpen s.book f.room f.date f.start f.count →
    ∃ t r, Runs .closeCells s t ∧ t.book.slot s.book.newSlot = some (.sound r) ∧ r.id = s.book.newId ∧
      r.kind = .closure ∧ r.edition = .live ∧ r.state = .confirmed ∧ r.room = f.room ∧ r.date = f.date ∧
      r.start = f.start ∧ r.count = f.count ∧ r.bufSlots = 0 ∧ r.run = none ∧ r.order = none ∧
      t.book.squ = s.book.squ ∧ t.book.csc = s.book.csc ∧ t.book.mail.requests = rest ∧
      Replied s t c (Answer.ok (.closed (s.book.placed r))) ∧
      RowsWritten s t f.room f.date
        (fun _ k old => if f.start ≤ k ∧ k < f.start + f.count then .closed else old) ∧
      ClaimKeeps s t s.book.newSlot f.room f.date) ∧
  (∀ (s : State) (c : Ctx) (f : CloseFields) (rest : List Handed) (rm : Room),
    Asks s c (.closeCells f) rest → s.book.bke.writeEdition = .draft → StoreSound s.book → f.room ≤ 383 →
    labelBad f.label = false → SpanPasses s.ctu s.book f.date f.start f.count → s.book.room f.room = some rm →
    s.book.bke.guard.contains f.room = false → s.book.tableFull = false → s.book.bke.draft.records.length < 512 →
    DraftReady s.book (s.book.familyDays f.room f.date) →
    s.book.conflict .draft f.room f.date f.start f.count 0 none = none →
    ∃ t r, Runs .closeCells s t ∧ DraftOnly s t rest ∧ t.book.slot s.book.newSlot = some (.sound r) ∧
      r.id = s.book.newId ∧ r.kind = .closure ∧ r.edition = .draft ∧ r.state = .confirmed ∧ r.room = f.room ∧
      r.date = f.date ∧ r.start = f.start ∧ r.count = f.count ∧ r.bufSlots = 0 ∧ r.cancelMark = false ∧
      (∀ m, m ≠ s.book.newSlot → t.book.slot m = s.book.slot m) ∧
      t.book.bke.draft.records = s.book.bke.draft.records ++ [r.id] ∧
      t.book.bke.draft.marked = s.book.bke.draft.marked ∧
      Replied s t c (Answer.ok (.closed (s.book.placed r))) ∧
      DraftWritten s t f.room f.date
        (fun _ k old => if f.start ≤ k ∧ k < f.start + f.count then .closed else old)) ∧
  (∀ (s : State) (c : Ctx) (f : BookFields) (id : Nat) (st : LoadState) (rest : List Handed) (rm : Room) (a : Answer),
    Asks s c (.load f id st) rest → s.book.bke.writeEdition = .live → TestReady s.book .live f.room f.date →
    FieldsOk f → 1 ≤ id → id ≤ 65535 → id ∉ s.book.usedIds → s.book.bke.horizon.isSome = true →
    (s.book.offset f.date).isSome = true → spanInDay f.start f.count = true →
    (s.book.isToday f.date = true → s.ctu.passed (f.start + f.count) = false) →
    RoomTakes s.book f.room f.attendees rm →
    st = .confirmed ∨
      (s.book.startPast s.ctu f.date f.start = true ∧ (st = .checkedIn ∨ st = .inProgress)) →
    TestRefuses s.book .live f.room f.date f.start f.count
      (clipBuffer (f.start + f.count) (s.book.squ.bufferOf rm)) none a →
    ∃ t, Runs .load s t ∧ ClaimRefused s t c rest a) ∧
  (∀ (s : State) (c : Ctx) (f : CloseFields) (rest : List Handed) (rm : Room) (a : Answer),
    Asks s c (.closeCells f) rest → TestReady s.book s.book.bke.writeEdition f.room f.date → f.room ≤ 383 →
    labelBad f.label = false → SpanPasses s.ctu s.book f.date f.start f.count → s.book.room f.room = some rm →
    s.book.bke.guard.contains f.room = false →
    TestRefuses s.book s.book.bke.writeEdition f.room f.date f.start f.count 0 none a →
    ∃ t, Runs .closeCells s t ∧ ClaimRefused s t c rest a)


/-- R48: the outcome of a CHECK_IN follows the meeting's state (mark EARLY before the window: log 50); it changes no
cell. R54: a panel CHECK_IN checks in the meeting chosen, and its outcome goes to the PPU; with none it is answered
NOT_FOUND. R57, R169: where the read that a panel's CHECK_IN, END or EXTEND makes finds a candidate lost it is
answered DAMAGED. That a CHECK_IN also chooses a meeting released in the slot it covers, answered TOO_LATE by R49, is
the model's choice (log 51), and so is that every candidate is read, and DAMAGED for a candidate that was damaged
before where no other is chosen (log 52). Log 50 is a model's choice too. -/
def Obligations.CheckInFollowsTheState : Prop :=
  (∀ (s : State) (c : Ctx) (n : Nat) (r : Record) (badge : Option HostRef) (rest : List Handed),
    Asks s c (.checkIn r.id badge) rest → StoreSound s.book → s.book.bke.horizon ≠ none → HoldsLive s.book n r →
    r.kind = .meeting →
    let opened := s.book.isToday r.date = true ∧ 360 + 15 * r.start ≤ s.ctu.minute + 10
    ∃ t, Runs .checkIn s t ∧ t.book.mail.requests = rest ∧ ClaimKeeps s t n r.room r.date ∧
      (∀ x d, t.book.row x d = s.book.row x d) ∧ t.book.bke.holds = s.book.bke.holds ∧
      let became (r' : Record) (d : Detail) (minute : Nat) : Prop :=
        t.book.slot n = some (.sound r') ∧ Replied s t c (Answer.because .ok d) ∧
          t.book.mail.bkeToSqu = s.book.mail.bkeToSqu ++ [{ booking := r.id, run := r.run, minute := minute }]
      let stays (a : Answer) : Prop :=
        t.book.slot n = some (.sound r) ∧ Replied s t c a ∧ t.book.mail.bkeToSqu = s.book.mail.bkeToSqu
      (r.state = .awaitingCheckin ∨ r.state = .inProgress →
        became { r with state := .checkedIn, check := .done, graceExpiry := none } .checkedIn s.ctu.minute) ∧
      (r.state = .confirmed → r.check ≠ .early → opened →
        became { r with check := .early } .early (360 + 15 * r.start)) ∧
      (r.state = .confirmed → r.check ≠ .early → ¬opened → stays (Answer.because .refused .notOpen)) ∧
      (r.state = .confirmed → r.check = .early → stays (Answer.because .ok .early)) ∧
      (r.state = .checkedIn → stays (Answer.because .ok .checkedIn)) ∧
      (r.state = .held → stays (Answer.because .refused .state)) ∧
      (r.state = .released ∨ r.state = .ended → stays (Answer.of .tooLate)) ∧
      (r.state = .cancelled → stays (Answer.because .refused .terminal))) ∧
  (∀ (s : State) (c : PanelClaim) (rest : List PanelClaim) (badge : Option HostRef) (n : Nat) (r : Record),
    s.book.mail.ppuToBke = c :: rest → c.event = .checkIn badge → StoreSound s.book →
    s.book.bke.records.wf = true → s.book.bke.horizon ≠ none →
    HoldsLive s.book n r → s.book.checkInChoice s.ctu c.room = some (n, r) →
    ∃ t, Runs .panelCheckIn s t ∧
      (r.state = .awaitingCheckin →
        t.book.slot n = some (.sound { r with state := .checkedIn, check := .done, graceExpiry := none }) ∧
          PanelAnswered s t c rest (Answer.because .ok .checkedIn) (some r.id) none) ∧
      (r.state = .confirmed → r.check ≠ .early → s.book.windowOpen s.ctu r = true →
        t.book.slot n = some (.sound { r with check := .early }) ∧
          PanelAnswered s t c rest (Answer.because .ok .early) (some r.id) none) ∧
      (r.state = .released →
        t.book.slot n = some (.sound r) ∧ PanelAnswered s t c rest (Answer.of .tooLate) (some r.id) none)) ∧
  (∀ (s : State) (c : PanelClaim) (rest : List PanelClaim) (badge : Option HostRef),
    s.book.mail.ppuToBke = c :: rest → c.event = .checkIn badge → StoreSound s.book →
    s.book.bke.records.wf = true → s.book.bke.horizon ≠ none →
    s.book.checkInChoice s.ctu c.room = none →
    ∃ t, Runs .panelCheckIn s t ∧ SameBke s t ∧
      (s.book.lostCandidate c.room = none → PanelAnswered s t c rest (Answer.of .notFound) none none) ∧
      (∀ d, s.book.lostCandidate c.room = some d → PanelAnswered s t c rest (Answer.of .damaged) d.id none)) ∧
  (∀ (s : State) (c : PanelClaim) (rest : List PanelClaim) (cmd : Instr) (n : Nat) (r : Record) (i : StoreItem) (e : ItemErr),
    s.book.mail.ppuToBke = c :: rest →
    (cmd = .panelCheckIn ∧ ∃ badge, c.event = .checkIn badge) ∨ (cmd = .panelEnd ∧ c.event = .endMeeting) ∨
        (cmd = .panelExtend ∧ c.event = .extend) →
    s.book.bke.records.wf = true → s.book.bke.horizon ≠ none → (n, r) ∈ s.book.candidates c.room →
    s.book.slot n = some (.sound r) →
    i = .record n ∨ i = .index n → s.book.bss.errorOf i = some e → e.hard = true → SoundBut s.book i →
    ∃ t y, Runs cmd s t ∧ t.book.slot n = some (.damaged y) ∧ (∀ m, m ≠ n → t.book.slot m = s.book.slot m) ∧
      t.book.mail.ppuToBke = rest ∧ t.book.squ = s.book.squ ∧
      t.book.mail.bkeToPanel =
        s.book.mail.bkeToPanel ++
          [{ claim := c, status := .damaged, detail := .none, subject := y.id, placed := none }] ∧
      (i = .record n → y.id = some r.id ∧ y.place = some (r.room, r.date)) ∧
      (i = .index n → y.place = none ∧ y.id = some r.id))

/-- R44: CANCEL in the write edition LIVE: a hold is removed, a CONFIRMED meeting and a closure go to CANCELLED, their
cells freed; what has started or ended is refused. R78: in the write edition DRAFT a draft record is removed, and a
CONFIRMED live one is marked, its cells freed in the draft rows alone; what is held, started or ended is refused. That
the SQU takes the abort in the same command, behind the reports handed to it before, is the model's reading (log 61).
The reply to the CANCEL of a draft record names the booking id beside the state REMOVED: the model's choice (log 88).
-/
def Obligations.CancelFollowsTheState : Prop :=
  (∀ (s : State) (c : Ctx) (n : Nat) (r : Record) (rest : List Handed),
    Asks s c (.cancel r.id) rest → s.book.bke.writeEdition = .live → StoreSound s.book →
    s.book.bke.horizon ≠ none → HoldsLive s.book n r → RowsOpen s.book r.room r.date r.start 0 →
    ∃ t, Runs .cancel s t ∧ t.book.mail.requests = rest ∧ ClaimKeeps s t n r.room r.date ∧
      t.book.csc = s.book.csc ∧
      (r.kind = .meeting → r.state = .held →
        t.book.slot n = none ∧ Replied s t c (Answer.ok (.cancelled r.id none)) ∧
          (∀ e, e ∈ t.book.bke.holds ↔ e ∈ s.book.bke.holds ∧ e.id ≠ r.id) ∧
          RowsWritten s t r.room r.date (spanCleared r)) ∧
      (r.kind = .meeting → r.state = .confirmed →
        t.book.slot n =
            some (.sound
              { r with
                state := .cancelled, run := none
                bufState := if r.bufState = .reserved then .released else r.bufState }) ∧
          Replied s t c (Answer.ok (.cancelled r.id (some .cancelled))) ∧
          t.book.squ = s.book.squTaken.abort r ∧ t.book.mail.bkeToSqu = [] ∧
          t.book.mail.bkeToCsc = s.book.mail.bkeToCsc ++ [{ booking := r.id, change := .cancelled }] ∧
          RowsWritten s t r.room r.date (spanCleared r)) ∧
      (r.kind = .closure → r.state = .confirmed →
        t.book.slot n = some (.sound { r with state := .cancelled }) ∧
          Replied s t c (Answer.ok (.cancelled r.id (some .cancelled))) ∧
          RowsWritten s t r.room r.date (spanCleared r)) ∧
      (r.kind = .meeting → r.state = .awaitingCheckin ∨ r.state = .checkedIn ∨ r.state = .inProgress →
        t.book.slot n = some (.sound r) ∧ Replied s t c (Answer.because .refused .started) ∧
          RowsWritten s t r.room r.date cellKept) ∧
      (r.state = .ended ∨ r.state = .released ∨ r.state = .cancelled →
        t.book.slot n = some (.sound r) ∧ Replied s t c (Answer.because .refused .terminal) ∧
          RowsWritten s t r.room r.date cellKept)) ∧
  (∀ (s : State) (c : Ctx) (n : Nat) (r : Record) (rest : List Handed),
    Asks s c (.cancel r.id) rest → s.book.bke.writeEdition = .draft → StoreSound s.book →
    s.book.bke.horizon ≠ none → s.book.slotOf r.id = some n → s.book.slot n = some (.sound r) →
    DraftReady s.book (s.book.familyDays r.room r.date) →
    ∃ t, Runs .cancel s t ∧ DraftOnly s t rest ∧ (∀ m, m ≠ n → t.book.slot m = s.book.slot m) ∧
      let stays (a : Answer) : Prop := SameBke s t ∧ Replied s t c a
      (r.edition = .draft → r.state = .confirmed →
        t.book.slot n = none ∧
          t.book.bke.draft.records = s.book.bke.draft.records.filter (fun i => i != r.id) ∧
          t.book.bke.draft.marked = s.book.bke.draft.marked ∧
          Replied s t c (Answer.ok (.cancelled r.id none)) ∧ DraftWritten s t r.room r.date (spanCleared r)) ∧
      (r.edition = .live → r.state = .confirmed → r.id ∉ s.book.bke.draft.marked →
        t.book.slot n = some (.sound { r with cancelMark := true }) ∧
          t.book.bke.draft.records = s.book.bke.draft.records ∧
          t.book.bke.draft.marked = s.book.bke.draft.marked ++ [r.id] ∧
          Replied s t c { status := .ok, detail := .marked, data := .marked r.id } ∧
          DraftWritten s t r.room r.date (spanCleared r)) ∧
      (r.edition = .live → r.state = .confirmed → r.id ∈ s.book.bke.draft.marked →
        stays (Answer.because .ok .unchanged)) ∧
      (r.edition = .live → r.state = .held → stays (Answer.because .refused .state)) ∧
      (r.edition = .live → r.kind = .meeting → r.state.started = true → stays (Answer.because .refused .started)) ∧
      (r.edition = .live → r.state.active = false → stays (Answer.because .refused .terminal)))

/-- R45, R46: a MOVE that passes its checks frees the old cells, writes the new ones and sets the record's place; its
other fields stay, but that a CONFIRMED meeting moved onto a slot that has begun is started. R79, R80: in the write
edition DRAFT the MOVE of a live record marks it and makes a draft record at the new place, and the MOVE of a draft
record moves it; the draft rows are written, and no live row. The buffer is that of the template which the SQU holds:
the model's choice (log 68). R162: the run of a moved CONFIRMED meeting is created, retimed, replaced under its id or
removed, as the new room's template has it. That the SQU takes this in the same command, behind the reports handed to it
before, is the model's reading (log 61). R25: a MOVE that the conflict test refuses, in either write edition, is
answered with the test's outcome and changes nothing (a CONFLICT's id: logs 60 and 109). -/
def Obligations.MovePlacesTheMeetingAnew : Prop :=
  (∀ (s : State) (c : Ctx) (n : Nat) (r : Record) (f : MoveFields) (rest : List Handed) (rm : Room),
    Asks s c (.move f) rest → MovePasses s n r f rm → r.order = none →
    let buf := clipBuffer (f.start + f.count) (s.book.squ.bufferOf rm)
    ∃ t r', Runs .move s t ∧ Moved s t n r r' f buf ∧ t.book.mail.requests = rest ∧
      t.book.bke.holds = s.book.bke.holds ∧ t.book.csc = s.book.csc ∧ (∀ m, m ≠ n → t.book.slot m = s.book.slot m) ∧
      (∃ a, Replied s t c (Answer.ok (.placed a r'.run)) ∧
        a = { id := r.id, room := f.room, code := s.book.code f.room, date := f.date, start := f.start,
              count := f.count, bufSlots := buf }) ∧
      (∃ l, t.book.mail.bkeToPpu =
        s.book.mail.bkeToPpu ++
          .change { kind := .moved, room := f.room, date := f.date, before := some (r.room, r.date), panel := none }
            :: l) ∧
      RowsWritten s t f.room f.date
        (fun x k old =>
          if f.start ≤ k ∧ k < f.start + f.count + buf then
            spanWritten f.room f.start f.count buf (if r.state = .held then .held else .booked) x k old
          else if f.date = r.date ∧ x ∈ rowFamily s.book.bke.rooms r.room then spanCleared r x k old
          else old) ∧
      ((∀ x ∈ rowFamily s.book.bke.rooms r.room, f.date = r.date → x ∉ rowFamily s.book.bke.rooms f.room) →
        RowsWritten s t r.room r.date (spanCleared r)) ∧
      (r.state = .confirmed → RunsKeyed s.book.squ → RunMoved s t r r' rm)) ∧
  (∀ (s : State) (c : Ctx) (n : Nat) (r : Record) (f : MoveFields) (rest : List Handed) (rm : Room),
    Asks s c (.move f) rest → s.book.bke.writeEdition = .draft → StoreSound s.book → f.id = r.id →
    s.book.slotOf r.id = some n → s.book.slot n = some (.sound r) → r.kind = .meeting → r.state = .confirmed →
    f.room ≤ 383 → SpanPasses s.ctu s.book f.date f.start f.count → RoomTakes s.book f.room r.attendees rm →
    DraftReady s.book (s.book.familyDays r.room r.date ++ s.book.familyDays f.room f.date) →
    let buf := clipBuffer (f.start + f.count) (s.book.squ.bufferOf rm)
    s.book.conflict .draft f.room f.date f.start f.count buf (some r) = none →
    (r.edition = .live → s.book.tableFull = false ∧ s.book.bke.draft.records.length < 512) →
    ∃ t r', Runs .move s t ∧ DraftOnly s t rest ∧ r'.edition = .draft ∧ r'.kind = .meeting ∧ r'.state = .confirmed ∧
      r'.room = f.room ∧ r'.date = f.date ∧ r'.start = f.start ∧ r'.count = f.count ∧ r'.bufSlots = buf ∧
      r'.organiser = r.organiser ∧ r'.attendees = r.attendees ∧ r'.label = cleanLabel r.label ∧
      (r.edition = .live → r.id ∈ s.book.bke.draft.marked →
        SameBke s t ∧ Replied s t c (Answer.because .refused .marked)) ∧
      (r.edition = .live → r.id ∉ s.book.bke.draft.marked →
        t.book.slot n = some (.sound { r with cancelMark := true }) ∧
          t.book.slot s.book.newSlot = some (.sound r') ∧ r'.id = s.book.newId ∧ r'.origin = .host ∧
          r'.order = none ∧ r'.run = none ∧ r'.series = none ∧
          t.book.bke.draft.marked = s.book.bke.draft.marked ++ [r.id] ∧
          t.book.bke.draft.records = s.book.bke.draft.records ++ [r'.id] ∧
          Replied s t c (Answer.ok (.draftMoved r.id (s.book.placed r')))) ∧
      (r.edition = .draft → r.label = cleanLabel r.label →
        t.book.slot n = some (.sound r') ∧ r'.id = r.id ∧ t.book.bke.draft.marked = s.book.bke.draft.marked ∧
          t.book.bke.draft.records = s.book.bke.draft.records ∧
          Replied s t c (Answer.ok (.placed (s.book.placed r') none))) ∧
      (r.edition = .draft ∨ r.id ∉ s.book.bke.draft.marked →
        DraftWritten s t f.room f.date
          (fun x k old =>
            if f.start ≤ k ∧ k < f.start + f.count + buf then spanWritten f.room f.start f.count buf .booked x k old
            else if f.date = r.date ∧ x ∈ rowFamily s.book.bke.rooms r.room then spanCleared r x k old
            else old) ∧
        ((∀ x ∈ rowFamily s.book.bke.rooms r.room, f.date = r.date → x ∉ rowFamily s.book.bke.rooms f.room) →
          DraftWritten s t r.room r.date (spanCleared r)))) ∧
  (∀ (s : State) (c : Ctx) (n : Nat) (r : Record) (f : MoveFields) (rest : List Handed) (rm : Room) (a : Answer),
    Asks s c (.move f) rest → MoveReaches s n r f rm → TestReady s.book .live f.room f.date →
    TestRefuses s.book .live f.room f.date f.start f.count
      (clipBuffer (f.start + f.count) (s.book.squ.bufferOf rm)) (some r) a →
    ∃ t, Runs .move s t ∧ ClaimRefused s t c rest a) ∧
  (∀ (s : State) (c : Ctx) (n : Nat) (r : Record) (f : MoveFields) (rest : List Handed) (rm : Room) (a : Answer),
    Asks s c (.move f) rest → s.book.bke.writeEdition = .draft → TestReady s.book .draft f.room f.date →
    f.id = r.id → s.book.slotOf r.id = some n → s.book.slot n = some (.sound r) → r.kind = .meeting →
    r.state = .confirmed → (r.edition = .live → r.id ∉ s.book.bke.draft.marked) → f.room ≤ 383 →
    SpanPasses s.ctu s.book f.date f.start f.count → RoomTakes s.book f.room r.attendees rm →
    TestRefuses s.book .draft f.room f.date f.start f.count
      (clipBuffer (f.start + f.count) (s.book.squ.bufferOf rm)) (some r) a →
    ∃ t, Runs .move s t ∧ ClaimRefused s t c rest a)

/-- R52: EXTEND lengthens the span by the slots asked and re-places a RESERVED buffer after it; R54: a panel EXTEND does
so by one slot for the meeting chosen. That the SQU takes the new end in the same command, behind the reports handed to
it before, is the model's reading (log 61). R25: an EXTEND, of the host or of a panel, that the conflict test refuses is
answered with the test's outcome and changes nothing (a CONFLICT's id: logs 60 and 109). What the retime does to the
run's steps is said with O51. -/
def Obligations.ExtendLengthensTheMeeting : Prop :=
  (∀ (s : State) (c : Ctx) (n k : Nat) (r : Record) (rest : List Handed),
    Asks s c (.extend r.id k) rest → s.book.bke.writeEdition = .live → StoreSound s.book →
    s.book.bke.horizon ≠ none → HoldsLive s.book n r → r.kind = .meeting →
    r.state = .confirmed ∨ r.state.started = true → 1 ≤ k → k ≤ 4 → r.start + r.count + k ≤ 64 →
    RowsOpen s.book r.room r.date 0 0 →
    let buf := if r.bufState = .reserved then clipBuffer (r.start + r.count + k) r.bufSlots else 0
    s.book.conflict .live r.room r.date (r.start + r.count) k buf (some r) = none →
    ∃ t r', Runs .extend s t ∧ t.book.slot n = some (.sound r') ∧ t.book.mail.requests = rest ∧
      r'.count = r.count + k ∧ r'.start = r.start ∧ r'.state = r.state ∧ r'.id = r.id ∧ r'.order = r.order ∧
      heldBuffer r' = buf ∧ (r.bufState ≠ .reserved → r'.bufSlots = r.bufSlots ∧ r'.bufState = r.bufState) ∧
      t.book.squ = s.book.squTaken.retime r r.start (r.count + k) ∧ t.book.mail.bkeToSqu = [] ∧
      t.book.csc = s.book.csc ∧ Replied s t c (Answer.ok (.extended r.start (r.count + k) r'.bufSlots)) ∧
      RowsWritten s t r.room r.date (spanWritten r.room r.start (r.count + k) buf .booked) ∧
      ClaimKeeps s t n r.room r.date) ∧
  (∀ (s : State) (c : PanelClaim) (rest : List PanelClaim) (n : Nat) (r : Record),
    s.book.mail.ppuToBke = c :: rest → c.event = .extend → StoreSound s.book →
    s.book.bke.records.wf = true → s.book.bke.horizon ≠ none →
    HoldsLive s.book n r → s.book.runningChoice s.ctu c.room = some (n, r) → r.kind = .meeting →
    r.state.started = true → r.start + r.count < 64 → RowsOpen s.book r.room r.date 0 0 →
    let buf := if r.bufState = .reserved then clipBuffer (r.start + r.count + 1) r.bufSlots else 0
    s.book.conflict .live r.room r.date (r.start + r.count) 1 buf (some r) = none →
    ∃ t r', Runs .panelExtend s t ∧ t.book.slot n = some (.sound r') ∧ r'.count = r.count + 1 ∧
      r'.start = r.start ∧ r'.state = r.state ∧ r'.id = r.id ∧
      PanelAnswered s t c rest (Answer.of .ok) (some r.id) (some (s.book.placed r')) ∧
      RowsWritten s t r.room r.date (spanWritten r.room r.start (r.count + 1) buf .booked)) ∧
  (∀ (s : State) (c : Ctx) (n k : Nat) (r : Record) (rest : List Handed) (a : Answer),
    Asks s c (.extend r.id k) rest → s.book.bke.writeEdition = .live → TestReady s.book .live r.room r.date →
    s.book.bke.horizon ≠ none → HoldsLive s.book n r → r.kind = .meeting →
    r.state = .confirmed ∨ r.state.started = true → 1 ≤ k → k ≤ 4 → r.start + r.count + k ≤ 64 →
    TestRefuses s.book .live r.room r.date (r.start + r.count) k
      (if r.bufState = .reserved then clipBuffer (r.start + r.count + k) r.bufSlots else 0) (some r) a →
    ∃ t, Runs .extend s t ∧ ClaimRefused s t c rest a) ∧
  (∀ (s : State) (c : PanelClaim) (rest : List PanelClaim) (n : Nat) (r : Record) (a : Answer),
    s.book.mail.ppuToBke = c :: rest → c.event = .extend → TestReady s.book .live r.room r.date →
    s.book.bke.horizon ≠ none → HoldsLive s.book n r → s.book.runningChoice s.ctu c.room = some (n, r) →
    r.kind = .meeting → r.state.started = true → r.start + r.count < 64 →
    TestRefuses s.book .live r.room r.date (r.start + r.count) 1
      (if r.bufState = .reserved then clipBuffer (r.start + r.count + 1) r.bufSlots else 0) (some r) a →
    ∃ t, Runs .panelExtend s t ∧ PanelRefused s t c rest a (some r.id))

/-- R53: END_NOW ends a started meeting at the boundary that closes slot c, the current slot or, while BEFORE_DAY, the
slot of the reach mark: its later cells are freed, and a RESERVED buffer is re-placed where the conflict test passes
it clipped behind the new end, else (a row of the family is not GOOD) released; where slot c is the meeting's last
slot nothing changes. R54: a panel END does so for the meeting chosen, marked as panel-originated. That the SQU takes
the new end in the same command (log 61), and that the PPU is handed one change, for the meeting and its buffer (log
37), is the model's reading. What the retime does to the run's steps is said with O51. -/
def Obligations.EndNowShortensTheMeeting : Prop :=
  (∀ (s : State) (c : Ctx) (n x : Nat) (r : Record) (rest : List Handed),
    Asks s c (.endNow r.id) rest → StoreSound s.book → s.book.bke.horizon ≠ none → HoldsLive s.book n r →
    r.kind = .meeting → r.state.started = true → IsSlotC s.ctu x → r.start ≤ x → RowsStand s.book r.room r.date →
    ∃ t r', Runs .endNow s t ∧ t.book.mail.requests = rest ∧ t.book.csc = s.book.csc ∧
      (r.count ≤ x + 1 - r.start →
        t.book.slot n = some (.sound r) ∧ ClaimKeeps s t n r.room r.date ∧ t.book.squ = s.book.squ ∧
          (∀ y d, t.book.row y d = s.book.row y d) ∧
          Replied s t c { status := .ok, detail := .unchanged, data := .endedEarly r.start r.count r.bufState }) ∧
      (x + 1 - r.start < r.count →
        EndedEarly s t n r r' (x + 1 - r.start) none ∧
          Replied s t c (Answer.ok (.endedEarly r.start (x + 1 - r.start) r'.bufState)))) ∧
  (∀ (s : State) (c : PanelClaim) (rest : List PanelClaim) (n x : Nat) (r : Record),
    s.book.mail.ppuToBke = c :: rest → c.event = .endMeeting → StoreSound s.book →
    s.book.bke.records.wf = true → s.book.bke.horizon ≠ none →
    HoldsLive s.book n r → s.book.runningChoice s.ctu c.room = some (n, r) → IsSlotC s.ctu x → r.start ≤ x →
    RowsStand s.book r.room r.date →
    ∃ t r', Runs .panelEnd s t ∧ t.book.csc = s.book.csc ∧
      (r.count ≤ x + 1 - r.start →
        t.book.slot n = some (.sound r) ∧ (∀ y d, t.book.row y d = s.book.row y d) ∧
          PanelAnswered s t c rest (Answer.because .ok .unchanged) (some r.id) (some (s.book.placed r))) ∧
      (x + 1 - r.start < r.count →
        EndedEarly s t n r r' (x + 1 - r.start) (some c.room) ∧
          PanelAnswered s t c rest (Answer.of .ok) (some r.id) (some (s.book.placed r'))))

/-- R55: a panel WALKUP makes a CHECKED_IN meeting from the current slot for the slots asked, up to slot 63. R51: a
run's RELEASE_BUFFER releases a RESERVED buffer and frees its cells. The buffer is that of the template which the SQU
holds: the model's choice (log 68). R25, R55: a WALKUP that the conflict test refuses is answered to the panel with the
test's status and detail, and changes nothing. That a claim of a run is for the record that then has the booking id is
the model's choice (log 112). -/
def Obligations.WalkupAndBufferRelease : Prop :=
  (∀ (s : State) (c : PanelClaim) (rest : List PanelClaim) (slots x : Nat) (h : Horizon) (rm : Room),
    s.book.mail.ppuToBke = c :: rest → c.event = .walkup slots → 1 ≤ slots → StoreSound s.book →
    s.book.bke.horizon = some h → s.ctu.slot = .slot x → x ≤ 63 → RoomTakes s.book c.room 0 rm →
    rm.walkup = true → TablesOpen s.book rm →
    let count := min slots (64 - x)
    let buf := clipBuffer (x + count) (s.book.squ.bufferOf rm)
    RowsOpen s.book c.room h.today x (count + buf) →
    ∃ t r, Runs .panelWalkup s t ∧ t.book.slot s.book.newSlot = some (.sound r) ∧ r.id = s.book.newId ∧
      r.state = .checkedIn ∧ r.check = .done ∧ r.origin = .panel ∧ r.room = c.room ∧ r.date = h.today ∧
      r.start = x ∧ r.count = count ∧ r.bufSlots = buf ∧ r.attendees = 0 ∧
      PanelAnswered s t c rest (Answer.of .ok) (some r.id) (some (s.book.placed r)) ∧
      RowsWritten s t c.room h.today (spanWritten c.room x count buf .booked) ∧
      ClaimKeeps s t s.book.newSlot c.room h.today) ∧
  (∀ (s : State) (n : Nat) (r : Record) (rest : List Nat),
    s.book.mail.squToBke = r.id :: rest → StoreSound s.book → HoldsLive s.book n r →
    RowsOpen s.book r.room r.date 0 0 →
    ∃ t, Runs .releaseBuffer s t ∧ t.book.mail.squToBke = rest ∧ t.book.hmp = s.book.hmp ∧
      ClaimKeeps s t n r.room r.date ∧
      (r.bufState = .reserved →
        t.book.slot n = some (.sound { r with bufState := .released }) ∧
          RowsWritten s t r.room r.date
            (fun _ k old =>
              if r.start + r.count ≤ k ∧ k < r.start + r.count + r.bufSlots then .free else old)) ∧
      (r.bufState ≠ .reserved →
        t.book.slot n = some (.sound r) ∧ RowsWritten s t r.room r.date cellKept)) ∧
  (∀ (s : State) (c : PanelClaim) (rest : List PanelClaim) (slots x : Nat) (h : Horizon) (rm : Room) (a : Answer),
    s.book.mail.ppuToBke = c :: rest → c.event = .walkup slots → TestReady s.book .live c.room h.today →
    s.book.bke.horizon = some h → s.ctu.slot = .slot x → RoomTakes s.book c.room 0 rm → rm.walkup = true →
    TestRefuses s.book .live c.room h.today x (min slots (64 - x))
      (clipBuffer (x + min slots (64 - x)) (s.book.squ.bufferOf rm)) none a →
    ∃ t, Runs .panelWalkup s t ∧ PanelRefused s t c rest a none)


/-! ## The live book: campus time (02, 03) -/

/-- R18: horizon open copies the horizon and makes 14 free rows for every room. R30, R31, R58: day retire and day open,
in one claim: no record and no row of the retired date stays, the horizon follows the new today and the weekday of the
date opened, two weeks after yesterday's, and every room has a free row for that date (where no series falls on its
weekday). -/
def Obligations.HorizonOpenAndDayRetire : Prop :=
  (∀ (s : State) (e : TimeEvent) (w : Weekday) (m : Nat) (slot : CurSlot) (rest : List TimeEvent),
    s.book.mail.bkeEvents = e :: rest → e.kind = .horizonOpen w m slot → e.date.valid = true →
    ∃ t, Runs .bkeHorizonOpen s t ∧ t.book.mail.bkeEvents = rest ∧ t.book.hmp = s.book.hmp ∧
      t.book.bke.horizon = some { today := e.date, weekday := w } ∧
      t.book.bke.records = s.book.bke.records ∧ t.book.bke.rooms = s.book.bke.rooms ∧
      ∀ x ∈ s.book.bke.rooms.keys, ∀ k, k < 14 →
        t.book.row x (e.date.after k) =
          some { room := x, date := e.date.after k, cells := List.replicate 64 .free, state := .good, version := 0 }) ∧
  (∀ (s : State) (e o : TimeEvent) (opened : Date) (w : Weekday) (rest : List TimeEvent),
    s.book.mail.bkeEvents = e :: o :: rest → e.kind = .dayRetire → o.kind = .dayOpen opened w →
    (∀ k r, s.book.bke.rows.find k = some r → k = rowKey r.room r.date) → e.date ≠ opened →
    (∀ p ∈ s.book.bke.series.entries, p.2.mask.contains w = false) →
    ∃ t, Runs .bkeDayRetire s t ∧ t.book.mail.bkeEvents = rest ∧
      t.book.bke.horizon = some { today := o.date, weekday := w.next } ∧
      (∀ n x p, t.book.slot n = some x → x.place = some p → p.2 ≠ e.date) ∧
      (∀ k r, t.book.bke.rows.find k = some r → r.date ≠ e.date) ∧
      (∀ p ∈ t.book.bke.draft.rows.entries, p.2.date = e.date → p.1 ≠ rowKey p.2.room p.2.date) ∧
      ∀ x ∈ s.book.bke.rooms.keys,
        t.book.row x opened =
          some
            { room := x, date := opened, cells := List.replicate 64 .free, state := .good, version := 0 })

/-- R38, R47, R50, R51: a slot boundary starts the CONFIRMED meetings of the date that begin there, ends those whose
span ends there (one that awaits check-in is released), releases the buffers that end there, and lapses the holds whose
span ends there, freeing their cells; the others stay. A meeting that its EARLY mark makes CHECKED_IN is reported to the
SQU as checked in at the boundary's minute (R47, R160; log 47). The order of these effects is the model's choice
(log 14). -/
def Obligations.SlotBoundaryStartsAndEnds : Prop :=
  ∀ (s : State) (e : TimeEvent) (x : Nat) (rest : List TimeEvent),
    s.book.mail.bkeEvents = e :: rest → e.kind = boundaryEvent x → StoreSound s.book →
    s.book.bke.records.wf = true →
    ∃ t, Runs .bkeSlotBoundary s t ∧ t.book.mail.bkeEvents = rest ∧
      ∀ n r, s.book.slot n = some (.sound r) → 1 ≤ r.count →
        let here := r.edition = .live ∧ r.date = e.date
        let ends := r.start + r.count = x
        let bufferEnds := r.bufState = .reserved ∧ r.start + r.count + r.bufSlots = x
        let freed (from' stop : Nat) : Prop :=
          RowsOpen s.book r.room r.date 0 0 →
            ∀ y ∈ rowFamily s.book.bke.rooms r.room, ∃ z, t.book.row y r.date = some z ∧ z.state = .good ∧
              ∀ k, from' ≤ k → k < stop → cellAt z.cells k = .free
        (here → r.kind = .meeting → r.state = .confirmed → r.start = x →
          ∃ r', t.book.slot n = some (.sound r') ∧ r'.id = r.id ∧
            (r.check = .early → r'.state = .checkedIn ∧ r'.check = .done ∧
              ((∀ m q, s.book.slot m = some (.sound q) → q.start + q.count ≠ x) →
                { booking := r.id, run := r.run, minute := 360 + 15 * x } ∈ t.book.mail.bkeToSqu)) ∧
            (r.check ≠ .early → ∀ rm, s.book.room r.room = some rm →
              (rm.checkin = true →
                r'.state = .awaitingCheckin ∧ r'.graceExpiry = some (min 1439 (360 + 15 * x + rm.grace))) ∧
              (rm.checkin = false → r'.state = .inProgress))) ∧
        (here → ends → r.state = .checkedIn ∨ r.state = .inProgress →
          freed r.start x ∧
            t.book.slot n =
              some (.sound
                { r with state := .ended, bufState := if r.bufSlots = 0 then r.bufState.freed else r.bufState })) ∧
        (here → ends → r.state = .awaitingCheckin →
          freed r.start (x + heldBuffer r) ∧
            t.book.slot n =
              some (.sound
                { r with state := .released, graceExpiry := none, run := none, bufState := r.bufState.freed })) ∧
        (here → ends → r.kind = .closure → r.state = .confirmed →
          freed r.start x ∧ ∃ r', t.book.slot n = some (.sound r') ∧ r'.id = r.id ∧ r'.state = .ended) ∧
        (here → ends → r.state = .held → t.book.slot n = none ∧ freed r.start (x + heldBuffer r)) ∧
        (here → ¬ends → bufferEnds →
          freed (r.start + r.count) x ∧ t.book.slot n = some (.sound { r with bufState := .released })) ∧
        (¬here → t.book.slot n = some (.sound r)) ∧
        (r.start ≠ x → ¬ends → ¬bufferEnds → t.book.slot n = some (.sound r))

/-- R38, R49: under the minute event a hold whose expiry is due lapses, its cells freed, and HOLD_LAPSED is posted; a
meeting still awaiting check-in at its grace expiry is released, and NO_SHOW is posted. That the SQU takes the abort in
the same command, behind the reports handed to it before, is the model's reading (log 61), and so is one expiry a command
(log 8) and, of several no-shows of one minute, the lowest record slot first (log 64). -/
def Obligations.HoldsLapseAndNoShowsAreReleased : Prop :=
  (∀ (s : State) (d : Date) (m n : Nat) (h : HoldEntry) (r : Record),
    s.book.bkeMinuteEvent = some (d, m) → StoreSound s.book → s.book.dueHold m = some h → h.id = r.id →
    HoldsLive s.book n r → r.state = .held → RowsOpen s.book r.room r.date 0 0 →
    ∃ t, Runs .holdLapse s t ∧ t.book.slot n = none ∧
      (∀ e, e ∈ t.book.bke.holds ↔ e ∈ s.book.bke.holds ∧ e.id ≠ r.id) ∧
      t.book.hmp =
        s.book.hmp.post
          (.holdLapsed r.id r.room (s.book.code r.room) r.date r.start r.count r.organiser .expired) ∧
      RowsWritten s t r.room r.date (spanCleared r) ∧ ClaimKeeps s t n r.room r.date) ∧
  (∀ (s : State) (d : Date) (m n : Nat) (r : Record),
    s.book.bkeMinuteEvent = some (d, m) → StoreSound s.book → s.book.dueGrace d m = some n →
    HoldsLive s.book n r → r.state = .awaitingCheckin → RowsOpen s.book r.room r.date 0 0 →
    ∃ t, Runs .noShow s t ∧
      t.book.slot n =
        some (.sound
          { r with
            state := .released, graceExpiry := none, run := none
            bufState := if r.bufState = .reserved then .released else r.bufState }) ∧
      t.book.hmp =
        s.book.hmp.post
          (.noShow r.id r.room (s.book.code r.room) r.date r.start r.count r.organiser .grace) ∧
      t.book.squ = s.book.squTaken.abort r ∧ t.book.mail.bkeToSqu = [] ∧
      t.book.mail.bkeToCsc = s.book.mail.bkeToCsc ++ [{ booking := r.id, change := .released }] ∧
      RowsWritten s t r.room r.date (spanCleared r) ∧ ClaimKeeps s t n r.room r.date)

/-! ## Reads -/

/-- R28, R29, R56, R71, R88, R165, R177: the reads of the book, the runs and the store change nothing (those of the
book over a store without errors) and answer what is held: READ_ROW the row of the read edition's view with the first
12 of its covers, FIND_FREE the first 8 rooms that pass, in index order, with the rooms skipped and the next room,
READ_SERIES the first 14 instances, READ_SCRUB the counts and the patrol place; a QUARANTINED row with the ids of its
damaged records; READ_RUN by run id or booking id; a draft record in the read edition DRAFT alone. The model's
choices: the cover list holds the entries that have a cell at or after the first slot (log 53), the room code of
READ_RUN is read in the BKE's directory (log 23), of two runs of one booking id the lower is found (log 67), and
FIND_FREE takes the buffer of the template that the SQU holds (log 68). That the BUSY/REBUILDING of READ_ROW names the
room and its code (log 82), and that the cover list is sorted entry by entry (log 83), are its choices too. -/
def Obligations.BookReadsChangeNothing : Prop :=
  (∀ (s : State) (c : Ctx) (n : Nat) (r : Record) (rest : List Handed),
    Asks s c (.readBooking r.id) rest → StoreSound s.book → s.book.bke.horizon ≠ none → r.id ≠ 0 →
    HoldsLive s.book n r →
    ∃ t, Runs .readBooking s t ∧ OnlyReads s t rest ∧
      Replied s t c (Answer.ok (.booking r (s.book.code r.room)))) ∧
  (∀ (s : State) (c : Ctx) (n : Nat) (r : Record) (rest : List Handed),
    Asks s c (.readBooking r.id) rest → StoreSound s.book → s.book.bke.horizon ≠ none → r.id ≠ 0 →
    s.book.slotOf r.id = some n → s.book.slot n = some (.sound r) → r.edition = .draft →
    ∃ t, Runs .readBooking s t ∧ OnlyReads s t rest ∧
      (s.book.bke.readEdition = .draft → Replied s t c (Answer.ok (.booking r (s.book.code r.room)))) ∧
      (s.book.bke.readEdition = .live → Replied s t c (Answer.of .notFound))) ∧
  (∀ (s : State) (c : Ctx) (room k lo : Nat) (d : Date) (first : Option Nat) (rm : Room) (r : Row) (rest : List Handed),
    Asks s c (.readRow room d first) rest → StoreSound s.book → s.book.bke.horizon ≠ none →
    s.book.offset d = some k → room ≤ 383 → first.getD 0 = lo → lo ≤ 63 → s.book.room room = some rm →
    s.book.row room d = some r → r.room = room → r.date = d → s.book.bke.records.wf = true →
    let ed := s.book.bke.readEdition
    ∃ t, Runs .readRow s t ∧ OnlyReads s t rest ∧
      (s.book.draftView ed room d = none →
        (r.state = .good → ∃ l more,
          Replied s t c (Answer.ok (.row room rm d k ed .good r.version none r.cells l more)) ∧
            CoversListed s.book ed room d lo l more) ∧
        (r.state = .rebuilding →
          Replied s t c { status := .busy, detail := .rebuilding, data := .room room (s.book.code room) }) ∧
        (r.state = .quarantined → ∃ l : List Damaged,
          Replied s t c
              { status := .damaged, detail := .quarantined
                data := .damagedIds ((l.filterMap fun y => y.id).take 8) l.length } ∧
            (∀ y, y ∈ l ↔ y.place = some (room, d) ∧ ∃ m, s.book.slot m = some (.damaged y)) ∧
            l.Pairwise (fun x y => x.id.getD 0 ≤ y.id.getD 0) ∧
            l.length = s.book.damagedRecords.countP fun p => p.2.place == some (room, d))) ∧
      (∀ z, s.book.draftView ed room d = some z →
        (z.damaged = true → Replied s t c (Answer.because .damaged .draft)) ∧
        (z.damaged = false → ∃ l more,
          Replied s t c (Answer.ok (.row room rm d k ed r.state r.version (some z.base) z.cells l more)) ∧
            CoversListed s.book ed room d lo l more))) ∧
  (∀ (s : State) (c : Ctx) (f : FindFields) (rest : List Handed),
    Asks s c (.findFree f) rest → StoreSound s.book → SpanPasses s.ctu s.book f.date f.start f.count →
    1 ≤ f.minSeats → f.minSeats ≤ 500 → f.building.all (fun x => decide (x ≤ 15)) = true →
    f.first.getD 0 ≤ 383 → s.book.bke.rooms.wf = true →
    let wanted (rm : Room) : Bool :=
      rm.bookable && decide (f.minSeats ≤ rm.seats) && f.building.all (fun x => x == rm.building)
    let test (p : Nat × Room) : Option Answer :=
      s.book.conflict s.book.bke.readEdition p.1 f.date f.start f.count
        (clipBuffer (f.start + f.count) (s.book.squ.bufferOf p.2)) none
    let above := s.book.bke.rooms.entries.filter fun p => decide (f.first.getD 0 ≤ p.1)
    let passing := above.filter fun p => wanted p.2 && (test p).isNone
    let lost (p : Nat × Room) : Bool := wanted p.2 && (test p).any fun a => a.status != .conflict
    ∃ t skipped next, Runs .findFree s t ∧ OnlyReads s t rest ∧
      Replied s t c
        (Answer.ok
          (.found
            ((passing.take 8).map fun p =>
              { room := p.1, code := p.2.code, kind := p.2.kind, building := p.2.building, floor := p.2.floor
                seats := p.2.seats })
            skipped next)) ∧
      (passing.length < 8 → skipped = above.countP lost ∧ next = none) ∧
      ∀ p, passing[7]? = some p →
        skipped = above.countP (fun q => decide (q.1 < p.1) && lost q) ∧
          next = if s.book.bke.rooms.keys.any (fun k => decide (p.1 < k)) then some (p.1 + 1) else none) ∧
  (∀ (s : State) (c : Ctx) (x : Series) (id : Nat) (rest : List Handed),
    Asks s c (.readSeries id) rest → StoreSound s.book → s.book.bke.horizon ≠ none → 1 ≤ id → id ≤ 127 →
    s.book.bke.series.find id = some x → s.book.bke.records.wf = true →
    ∃ (t : State) (all : List (Nat × Date × Option Nat × Nat × Nat × BState)),
      Runs .readSeries s t ∧ OnlyReads s t rest ∧
      Replied s t c (Answer.ok (.series x (s.book.code x.room) (all.take 14))) ∧
      all.Pairwise (fun a b =>
        (s.book.offset a.2.1).getD 14 < (s.book.offset b.2.1).getD 14 ∨
          (s.book.offset a.2.1).getD 14 = (s.book.offset b.2.1).getD 14 ∧ a.1 ≤ b.1) ∧
      (DistinctIds s.book → all.Nodup) ∧
      ∀ e, e ∈ all ↔ ∃ m r, s.book.slot m = some (.sound r) ∧ r.edition = .live ∧ r.series = some id ∧
        e = (r.id, r.date, s.book.offset r.date, r.start, r.count, r.state)) ∧
  (∀ (s : State) (c : Ctx) (id : Nat) (x : Run) (rest : List Handed),
    Asks s c (.readRun (some id) none) rest → 1 ≤ id → id ≤ 511 → s.book.squ.runs.find id = some x →
    ∃ t, Runs .readRun s t ∧ OnlyReads s t rest ∧
      Replied s t c
        (Answer.ok (.run x (s.book.code x.room) (s.book.squ.horizon.bind fun h => h.offset x.date)))) ∧
  (∀ (s : State) (c : Ctx) (booking : Nat) (rest : List Handed),
    Asks s c (.readRun none (some booking)) rest → 1 ≤ booking → booking ≤ 65535 →
    ∃ t, Runs .readRun s t ∧ OnlyReads s t rest ∧
      ((∀ k x, s.book.squ.runs.find k = some x → x.booking ≠ booking) → s.book.squ.runs.wf = true →
        Replied s t c (Answer.of .notFound)) ∧
      (∀ k x, s.book.squ.runs.find k = some x → x.booking = booking → s.book.squ.runs.wf = true →
        (∀ j y, s.book.squ.runs.find j = some y → y.booking = booking → k ≤ j) →
        Replied s t c
          (Answer.ok (.run x (s.book.code x.room) (s.book.squ.horizon.bind fun h => h.offset x.date))))) ∧
  (∀ (s : State) (c : Ctx) (rest : List Handed), Asks s c .readScrub rest →
    ∃ t place isRow, Runs .readScrub s t ∧ OnlyReads s t rest ∧
      Replied s t c
        (Answer.ok
          (.scrub s.book.bss.passes s.book.bss.position place isRow s.book.bss.corrected s.book.bss.uncorrectable
            (s.book.bke.rows.values.countP fun r => r.state == .rebuilding)
            (s.book.bke.rows.values.countP fun r => r.state == .quarantined) s.book.damagedRecords.length
            (s.book.damagedRecords.countP fun x => x.2.place.isNone) s.book.bke.draft.damaged)) ∧
      (s.book.bss.position < 5376 →
        isRow = true ∧ place = (s.book.bss.position / 14, s.book.bss.position % 14)) ∧
      (5376 ≤ s.book.bss.position → isRow = false ∧ place = (s.book.bss.position - 5376, 0)))

/-- R107, R150, R190, R194: the reads of the part's identity, of orders, kitchens, stations and the site configuration
change nothing and answer what is held. That CONFIG_GET reads the loaded set (log 41), that the room codes of
READ_STATION and READ_ORDER are read in the BKE's directory (log 23) and which counts READ_IDENTITY gives (log 22) are
the model's choices. So is that an order whose booking is REMOVED keeps its last room, whose code READ_ORDER gives
(log 77). -/
def Obligations.OtherReadsChangeNothing : Prop :=
  (∀ (s : State) (c : Ctx) (id : Nat) (o : Order) (rest : List Handed),
    Asks s c (.readOrder id) rest → s.book.csc.horizon ≠ none → 1 ≤ id → id ≤ 1023 →
    s.book.csc.orders.find id = some o →
    ∃ t, Runs .readOrder s t ∧ OnlyReads s t rest ∧
      Replied s t c (Answer.ok (.readOrder o.view (360 + 15 * o.slot) (s.book.code o.copy.room)))) ∧
  (∀ (s : State) (c : Ctx) (k : Nat) (d : Date) (h : Horizon) (kit : Kitchen) (rest : List Handed),
    Asks s c (.readCapacity k d none) rest → s.book.csc.horizon = some h → k ≤ 5 →
    (h.offset d).isSome = true → s.book.csc.kitchen k = some kit →
    ∃ t l, Runs .readCapacity s t ∧ OnlyReads s t rest ∧ Replied s t c (Answer.ok (.capacity kit.view l true)) ∧
      l = (List.range 8).filterMap (fun w => (s.book.csc.entry k d w).map CapEntry.view)) ∧
  (∀ (s : State) (c : Ctx) (k : Nat) (kit : Kitchen) (rest : List Handed),
    Asks s c (.readWaitlist k) rest → s.book.csc.horizon ≠ none → k ≤ 5 → s.book.csc.kitchen k = some kit →
    ∃ t l, Runs .readWaitlist s t ∧ OnlyReads s t rest ∧ Replied s t c (Answer.ok (.waitlist l)) ∧
      ((∀ id ∈ kit.waitlist, ∃ o, s.book.csc.orders.find id = some o ∧ o.id = id) →
        l.map (fun e => e.1) = kit.waitlist)) ∧
  (∀ (s : State) (c : Ctx) (g a : Nat) (x : Station) (rest : List Handed),
    takeFirst Handed.isReadStation s.book.mail.requests = some ({ ctx := c, request := .readStation g a }, rest) →
    g ≤ 3 → 1 ≤ a → a ≤ 48 → s.sbc.station g a = some x →
    ∃ t code, Runs .readStation s t ∧ OnlyReads s t rest ∧
      Replied s t c (Answer.ok (.station (x.view code (s.sbc.flightWith g a)))) ∧
      (x.type = .panel → code = s.book.code x.binding) ∧ (x.type = .terminal → code = none)) ∧
  (∀ (s : State) (c : Ctx) (key : ItemKey) (rest : List Handed),
    Asks s c (.configGet key false) rest → s.book.cfs.commit = none → key.inRange = true →
    ∃ t, Runs .configGet s t ∧ OnlyReads s t rest ∧
      (∀ i, s.book.cfs.loadSet.find key = some i → ∃ more, Replied s t c (Answer.ok (.item i none more))) ∧
      (s.book.cfs.loadSet.find key = none → Replied s t c (Answer.of .notFound))) ∧
  (∀ (s : State) (c : Ctx) (rest : List Handed), Asks s c .readIdentity rest →
    ∃ t, Runs .readIdentity s t ∧ OnlyReads s t rest ∧
      Replied s t c
        (Answer.ok
          (.identity .cb384 Config.revision s.book.cfs.valid s.book.hmp.resetKind s.book.hmp.taken.occupied
            s.book.hmp.taken.awaiting s.book.hmp.taken.credit s.book.hmp.tags.length s.book.hmp.repliesHeld
            s.book.hmp.noticesHeld s.book.hmp.batch s.book.hmp.dropped s.book.hmp.rejected s.book.hmp.overruns
            s.book.hmp.clashes)))

/-! ## Series and the draft (04, 05) -/

/-- R63 to R65: SERIES_CREATE makes the series record under the next series id and claims an instance on each of its
dates: where the conflict test passes and a record and a run can be had, the instance is made, its record and cells
written; where the test fails the date is skipped with its outcome. The reply lists the ids made and the skips. R69:
SERIES_CANCEL removes the series; its CONFIRMED instances are CANCELLED with their effects, and no record keeps its id.
R66: at day open a series whose mask has the weekday of the opened date makes its instance on it, CONFIRMED, over that
date's fresh rows, or is skipped with SERIES_SKIP; of two series that overlap in one room the lower id takes the cells
and the higher is skipped, CONFLICT naming the instance just made; a series that reaches its last date is marked, and one
that has reached it is passed over. R67: at day retire a series whose last date is retired leaves the table, and no
record keeps its id. The runs and buffers follow the templates that the SQU holds: the model's choice (log 68). -/
def Obligations.SeriesAreMadeAndCancelled : Prop :=
  (∀ (s : State) (c : Ctx) (f : SeriesFields) (rest : List Handed) (rm : Room),
    Asks s c (.seriesCreate f) rest → s.book.bke.writeEdition = .live → s.book.bke.horizon ≠ none →
    StoreSound s.book →
    s.book.seriesBad f = false → RoomTakes s.book f.room f.attendees rm → s.book.bke.series.size < 127 →
    (∀ h, s.book.bke.horizon = some h → h.today.valid = true) → RowsKeyed s.book →
    let id := nextId s.book.bke.series.keys 127 s.book.bke.lastSeries s.book.bke.series.size
    let dates :=
      s.book.creationDates s.ctu
        (s.book.newSeries f ((f.first.orElse fun _ => s.book.bke.horizon.map fun h => h.today).getD
          { year := 0, month := 1, day := 1 }))
    let buf := clipBuffer (f.start + f.count) (s.book.squ.bufferOf rm)
    let test (d : Date) : Option Answer := s.book.conflict .live f.room d f.start f.count buf none
    ∃ (t : State) (x : Series) (instances : List (Date × Nat)) (skips : List Skip),
      Runs .seriesCreate s t ∧ t.book.mail.requests = rest ∧
      t.book.bke.series.find id = some x ∧ x.id = id ∧ x.room = f.room ∧ x.start = f.start ∧ x.count = f.count ∧
      x.mask = f.mask ∧ x.last = f.last ∧ t.book.bke.lastSeries = id ∧
      x.made = instances.length ∧ x.skipped = skips.length ∧
      ((instances.map fun p => p.1) ++ skips.map fun k => k.date).Perm dates ∧
      Replied s t c
        (Answer.ok
          (.seriesMade id f.room (s.book.code f.room) x.lastReached instances.length skips.length
            ((instances.map fun p => p.2).take 14) (skips.take 8) (decide (8 < skips.length)))) ∧
      (∀ p ∈ instances, test p.1 = none ∧
        ∃ n r, t.book.slot n = some (.sound r) ∧ r.id = p.2 ∧ r.date = p.1 ∧ r.series = some id ∧ r.kind = .meeting ∧
          r.edition = .live ∧ r.origin = .series ∧ r.room = f.room ∧ r.start = f.start ∧ r.count = f.count ∧
          r.bufSlots = buf ∧ r.organiser = f.organiser ∧ r.attendees = f.attendees ∧
          (s.book.begun s.ctu p.1 f.start = false → r.state = .confirmed) ∧
          (s.book.begun s.ctu p.1 f.start = true → r.state.started = true)) ∧
      (∀ p ∈ instances, RowsOpen s.book f.room p.1 0 0 →
        RowsWritten s t f.room p.1 (spanWritten f.room f.start f.count buf .booked)) ∧
      (∀ k ∈ skips, ∀ a, test k.date = some a →
        k = { date := k.date, status := a.status, detail := a.detail
              clash := match a.data with
                | .clash z => some z
                | _ => none }) ∧
      (s.book.bke.records.size + 14 ≤ 4096 → s.book.squ.runs.size + 14 ≤ 511 →
        ∀ d ∈ dates, test d = none → d ∈ instances.map fun p => p.1) ∧
      ∀ n y, s.book.slot n = some y → t.book.slot n = some y) ∧
  (∀ (s : State) (c : Ctx) (id : Nat) (rest : List Handed),
    Asks s c (.seriesCancel id) rest → s.book.bke.writeEdition = .live → s.book.bke.horizon ≠ none → 1 ≤ id →
    id ≤ 127 → s.book.bke.series.has id = true → StoreSound s.book → s.book.bke.records.wf = true →
    ∃ t cancelled running finished ids, Runs .seriesCancel s t ∧ t.book.mail.requests = rest ∧
      t.book.bke.series.find id = none ∧
      Replied s t c (Answer.ok (.seriesCancelled id cancelled running finished ids)) ∧
      cancelled = (s.book.instances id).countP (fun p => p.2.state == .confirmed) ∧
      running = (s.book.instances id).countP (fun p => p.2.state.started) ∧
      cancelled + running + finished = (s.book.instances id).length ∧
      ids = (((s.book.instances id).filter fun p => p.2.state == .confirmed).map fun p => p.2.id).take 14 ∧
      ∀ n r, s.book.slot n = some (.sound r) →
        (r.edition = .live → r.series = some id → r.state = .confirmed →
          t.book.slot n =
              some (.sound
                { r with
                  state := .cancelled, run := none, series := none, cancelMark := false
                  bufState := if r.bufState = .reserved then .released else r.bufState }) ∧
            r.id ∉ t.book.bke.draft.marked ∧ { booking := r.id, change := .cancelled } ∈ t.book.mail.bkeToCsc ∧
            (RowsOpen s.book r.room r.date 0 0 → ∀ y ∈ rowFamily s.book.bke.rooms r.room,
              ∃ z, t.book.row y r.date = some z ∧
                ∀ k, r.start ≤ k → k < r.start + r.count + heldBuffer r → cellAt z.cells k = .free)) ∧
        (r.edition = .live → r.series = some id → r.state ≠ .confirmed →
          t.book.slot n = some (.sound { r with series := none })) ∧
        (r.edition = .draft ∨ r.series ≠ some id → t.book.slot n = some (.sound r))) ∧
  (∀ (s : State) (e o : TimeEvent) (opened : Date) (w : Weekday) (rest : List TimeEvent) (x : Series) (rm : Room),
    DayTurns s e o opened w rest → OneSeriesFalls s.book w x → RoomTakes s.book x.room x.attendees rm →
    TablesOpen s.book rm → spanInDay x.start x.count = true →
    (∀ y ∈ rowFamily s.book.bke.rooms x.room, y ∈ s.book.bke.rooms.keys) →
    let buf := clipBuffer (x.start + x.count) (s.book.squ.bufferOf rm)
    ∃ t n r, Runs .bkeDayRetire s t ∧ t.book.mail.bkeEvents = rest ∧ t.book.slot n = some (.sound r) ∧
      (∀ m y, t.book.slot m = some y → m ≠ n → y.id ≠ some r.id) ∧ t.book.bke.lastId = r.id ∧ r.date = opened ∧
      r.series = some x.id ∧ r.kind = .meeting ∧ r.edition = .live ∧ r.origin = .series ∧ r.state = .confirmed ∧
      r.check = .none ∧ r.room = x.room ∧ r.start = x.start ∧ r.count = x.count ∧ r.bufSlots = buf ∧
      r.organiser = x.organiser ∧ r.attendees = x.attendees ∧ r.label = cleanLabel x.label ∧ r.order = none ∧
      (r.run.isSome = (s.book.squ.templateOf rm).isSome) ∧
      t.book.bke.series.find x.id =
        some { x with made := bump 65535 x.made, lastReached := x.last == some opened } ∧
      (QuietRetire s.book e.date → t.book.hmp = s.book.hmp) ∧
      ∀ y ∈ rowFamily s.book.bke.rooms x.room,
        ∃ z, t.book.row y opened = some z ∧ z.room = y ∧ z.date = opened ∧ z.state = .good ∧ z.version = 1 ∧
          ∀ k, k < 64 → cellAt z.cells k = spanWritten x.room x.start x.count buf .booked y k .free) ∧
  (∀ (s : State) (e o : TimeEvent) (opened : Date) (w : Weekday) (rest : List TimeEvent) (x : Series) (rm : Room),
    DayTurns s e o opened w rest → OneSeriesFalls s.book w x → s.book.bke.rooms.find x.room = some rm →
    s.book.bke.guard.contains x.room = false → rm.bookable = false ∨ rm.seats < x.attendees →
    QuietRetire s.book e.date →
    ∃ t, Runs .bkeDayRetire s t ∧ t.book.mail.bkeEvents = rest ∧ t.book.bke.lastId = s.book.bke.lastId ∧
      t.book.bke.series.find x.id =
        some { x with skipped := bump 65535 x.skipped, lastReached := x.last == some opened } ∧
      t.book.hmp =
        s.book.hmp.post
          (.seriesSkip x.id 13 x.room (some rm.code) x.organiser
            { date := opened, status := .refused, detail := if rm.bookable then .seats else .room, clash := none }
            (bump 65535 x.skipped))) ∧
  (∀ (s : State) (e o : TimeEvent) (opened : Date) (w : Weekday) (rest : List TimeEvent) (x y : Series) (rm : Room),
    DayTurns s e o opened w rest → s.book.bke.series.entries = [(x.id, x), (y.id, y)] → x.id < y.id →
    x.mask.contains w = true → x.lastReached = false → y.mask.contains w = true → y.lastReached = false →
    RoomTakes s.book x.room x.attendees rm → y.room = x.room → y.attendees ≤ rm.seats → TablesOpen s.book rm →
    rowFamily s.book.bke.rooms x.room = [x.room] → spanInDay x.start x.count = true →
    spanInDay y.start y.count = true → x.start ≤ y.start → y.start < x.start + x.count →
    (∀ n q, s.book.slot n = some (.sound q) → q.date ≠ opened) → QuietRetire s.book e.date →
    ∃ t n r, Runs .bkeDayRetire s t ∧ t.book.slot n = some (.sound r) ∧ r.series = some x.id ∧ r.date = opened ∧
      r.state = .confirmed ∧ t.book.bke.lastId = r.id ∧
      t.book.bke.series.find y.id =
        some { y with skipped := bump 65535 y.skipped, lastReached := y.last == some opened } ∧
      t.book.hmp =
        s.book.hmp.post
          (.seriesSkip y.id 13 x.room (some rm.code) y.organiser
            { date := opened, status := .conflict, detail := .span
              clash := some
                { room := x.room, code := some rm.code, slot := y.start, cell := .booked, booking := some r.id } }
            (bump 65535 y.skipped))) ∧
  (∀ (s : State) (e o : TimeEvent) (opened : Date) (w : Weekday) (rest : List TimeEvent),
    DayTurns s e o opened w rest → s.book.bke.series.wf = true →
    (∀ k y, s.book.bke.series.find k = some y → y.id = k) →
    ∃ t, Runs .bkeDayRetire s t ∧ ∀ k y, s.book.bke.series.find k = some y →
      (y.last = some e.date → y.lastReached = true →
        t.book.bke.series.find k = none ∧ ∀ n r, t.book.slot n = some (.sound r) → r.series ≠ some k) ∧
      (y.last ≠ some e.date ∨ y.lastReached = false → y.lastReached = true ∨ y.mask.contains w = false →
        t.book.bke.series.find k = some { y with lastReached := y.lastReached || y.last == some opened }))

/-- R72: after either reset both editions are LIVE; SET_EDITIONS sets both in either clock state and whatever the draft
holds, or refuses a value that names none; READ_EDITIONS reports them with the draft; PUBLISH and DISCARD leave them as
they are. -/
def Obligations.EditionSettings : Prop :=
  (∀ (s : State) (k : ResetKind),
    (s.resetBy k).book.bke.readEdition = .live ∧ (s.resetBy k).book.bke.writeEdition = .live) ∧
  (∀ (s : State) (c : Ctx) (r w : EditionField) (rest : List Handed), Asks s c (.setEditions r w) rest →
    ∃ t, Runs .setEditions s t ∧ t.book.mail.requests = rest ∧ t.book.bke.records = s.book.bke.records ∧
      t.book.bke.rows = s.book.bke.rows ∧ t.book.bke.draft = s.book.bke.draft ∧
      (∀ x y, editionOf r = some x → editionOf w = some y →
        t.book.bke.readEdition = x ∧ t.book.bke.writeEdition = y ∧ Replied s t c (Answer.ok (.editions x y))) ∧
      (editionOf r = none ∨ editionOf w = none →
        t.book.bke.readEdition = s.book.bke.readEdition ∧ t.book.bke.writeEdition = s.book.bke.writeEdition ∧
          Replied s t c (Answer.of .badRequest))) ∧
  (∀ (s : State) (c : Ctx) (rest : List Handed), Asks s c .readEditions rest →
    ∃ t, Runs .readEditions s t ∧ OnlyReads s t rest ∧
      Replied s t c
        (Answer.ok
          (.draftState s.book.bke.readEdition s.book.bke.writeEdition s.book.bke.draft.damaged
            s.book.bke.draft.rows.size s.book.bke.draft.records.length s.book.bke.draft.marked.length))) ∧
  (∀ (s t : State) (i : Instr), i = .publish ∨ i = .discard → Runs i s t →
    t.book.bke.readEdition = s.book.bke.readEdition ∧ t.book.bke.writeEdition = s.book.bke.writeEdition)

/-- R77: BOOK in the write edition DRAFT makes a draft record over draft rows, and no live row changes. R82: PUBLISH
over a REBUILDING row, of a stale draft or of one that needs more runs than are free is refused and changes nothing.
R83, R84: else it drops the lapsed draft records, writes every draft row into its live row, makes the kept records
live, cancels the marked ones, empties the draft and answers with the counts. R85: DISCARD removes the draft records,
clears the marks, empties the draft and changes nothing live. Which of the kept meetings are counted for a run and are
given one goes by the room's template as the SQU holds it: the model's choices (logs 63 and 68). R81: a draft row is
stale where its base version differs from its live row's, or a marked record whose cells were freed in it is no longer
CONFIRMED; of several such records the row carries one, and none where the versions differ (log 65). R83: a draft
record is lapsed where it is dated today and its start is past; the run count is that of the kept draft meetings whose
room has a template. -/
def Obligations.DraftIsWrittenPublishedAndDiscarded : Prop :=
  (∀ (s : State) (c : Ctx) (f : BookFields) (rest : List Handed) (rm : Room),
    Asks s c (.book f) rest → s.book.bke.writeEdition = .draft → StoreSound s.book → FieldsOk f →
    s.book.bke.draft.damaged = false → SpanPasses s.ctu s.book f.date f.start f.count →
    RoomTakes s.book f.room f.attendees rm → s.book.tableFull = false → s.book.bke.draft.records.length < 512 →
    s.book.bke.draft.rows.size + (rowFamily s.book.bke.rooms f.room).length ≤ 256 →
    let buf := clipBuffer (f.start + f.count) (s.book.squ.bufferOf rm)
    RowsOpen s.book f.room f.date f.start (f.count + buf) →
    (∀ x ∈ rowFamily s.book.bke.rooms f.room, s.book.draftRow x f.date = none) →
    ∃ t r, Runs .book s t ∧ t.book.slot s.book.newSlot = some (.sound r) ∧ r.edition = .draft ∧
      r.state = .confirmed ∧ r.id = s.book.newId ∧ r.room = f.room ∧ r.run = none ∧
      t.book.bke.draft.records = s.book.bke.draft.records ++ [r.id] ∧ t.book.mail.requests = rest ∧
      t.book.squ = s.book.squ ∧ Replied s t c (Answer.ok (.booked (s.book.placed r) .confirmed none)) ∧
      (∀ x d, t.book.row x d = s.book.row x d) ∧
      ∀ x ∈ rowFamily s.book.bke.rooms f.room, ∃ y z, s.book.row x f.date = some y ∧ t.book.draftRow x f.date = some z ∧
        z.base = y.version ∧
        ∀ k, k < 64 →
          cellAt z.cells k = spanWritten f.room f.start f.count buf .booked x k (cellAt y.cells k)) ∧
  (∀ (s : State) (c : Ctx) (rest : List Handed),
    Asks s c .publish rest → StoreSound s.book → s.book.bke.horizon ≠ none → s.book.bke.draft.damaged = false →
    s.book.bke.draft.isEmpty = false →
    let rebuilding := s.book.draftDays.find? fun r => (s.book.row r.room r.date).any fun x => x.state == .rebuilding
    let stale := s.book.draftDays.filterMap s.book.staleDay
    let free := 511 - s.book.squ.runs.size
    ∃ t, Runs .publish s t ∧ t.book.mail.requests = rest ∧
      let refused (a : Answer) : Prop := SameBke s t ∧ t.book.squ = s.book.squ ∧ Replied s t c a
      (∀ r, rebuilding = some r →
        refused { status := .busy, detail := .rebuilding, data := .roomDay r.room (s.book.code r.room) r.date }) ∧
      (rebuilding = none → stale ≠ [] →
        refused { status := .stale, detail := .none, data := .stale stale.length (stale.take 8) }) ∧
      (rebuilding = none → stale = [] → free < s.book.runCount s.ctu →
        refused { status := .full, detail := .runs, data := .runsNeeded (s.book.runCount s.ctu) free })) ∧
  (∀ (s : State) (c : Ctx) (rest : List Handed),
    Asks s c .publish rest → StoreSound s.book → s.book.bke.horizon ≠ none → s.book.bke.draft.damaged = false →
    s.book.bke.draft.isEmpty = false → s.book.bke.records.wf = true → s.book.bke.draft.rows.wf = true →
    RowsKeyed s.book →
    (∀ r ∈ s.book.draftDays, ∀ x, s.book.row r.room r.date = some x → x.state ≠ .rebuilding) →
    s.book.draftDays.filterMap s.book.staleDay = [] →
    s.book.runCount s.ctu + s.book.squ.runs.size ≤ 511 →
    let lapsed := s.book.draftRecords.filter fun p => s.book.lapsedDraft s.ctu p.2
    let kept := s.book.draftRecords.filter fun p => !s.book.lapsedDraft s.ctu p.2
    let withRun (r : Record) : Bool :=
      r.kind == .meeting && (s.book.room r.room).any fun rm => (s.book.squ.templateOf rm).isSome
    ∃ t, Runs .publish s t ∧ t.book.mail.requests = rest ∧ t.book.bke.draft = Draft.empty ∧
      Replied s t c
        (Answer.ok
          (.published s.book.bke.draft.rows.size kept.length (kept.countP fun p => withRun p.2)
            (s.book.sound.countP fun p =>
              s.book.isMarked p.2.id && !(p.2.edition == .draft && s.book.lapsedDraft s.ctu p.2))
            lapsed.length ((lapsed.map fun p => p.2.id).take 8))) ∧
      (∀ n r, t.book.slot n = some (.sound r) → r.edition = .live) ∧
      (∀ n r, s.book.slot n = some (.sound r) →
        (r.edition = .draft → s.book.lapsedDraft s.ctu r = true → t.book.slot n = none) ∧
        (r.edition = .draft → s.book.lapsedDraft s.ctu r = false → r.id ∉ s.book.bke.draft.marked →
          ∃ run, t.book.slot n = some (.sound { r with edition := .live, run := run }) ∧
            (withRun r = true → run ≠ none) ∧ (withRun r = false → run = r.run)) ∧
        (r.edition = .live → r.id ∈ s.book.bke.draft.marked →
          t.book.slot n =
              some (.sound
                { r with
                  state := .cancelled, run := none, cancelMark := false
                  bufState := if r.bufState = .reserved then .released else r.bufState }) ∧
            { booking := r.id, change := .cancelled } ∈ t.book.mail.bkeToCsc) ∧
        (r.edition = .live → r.id ∉ s.book.bke.draft.marked → t.book.slot n = some (.sound r))) ∧
      (∀ x d z y, s.book.draftRow x d = some z → z.damaged = false → s.book.row x d = some y →
        ∃ y', t.book.row x d = some y' ∧ y'.version = y.version + 1 ∧ y'.state = y.state ∧
          ∀ k, (LapsedCovers s z k → cellAt y'.cells k = .free) ∧
            (¬LapsedCovers s z k → cellAt y'.cells k = cellAt z.cells k)) ∧
      (∀ x d, s.book.draftRow x d = none → t.book.row x d = s.book.row x d) ∧
      ∃ l, t.book.mail.bkeToPpu =
        s.book.mail.bkeToPpu ++ l ++
          [.published ((s.book.draftDays.filter fun r => s.book.isToday r.date).map fun r => r.room)]) ∧
  (∀ (s : State) (c : Ctx) (rest : List Handed), Asks s c .discard rest →
    ∃ t, Runs .discard s t ∧ t.book.mail.requests = rest ∧ t.book.bke.draft = Draft.empty ∧
      t.book.squ = s.book.squ ∧ t.book.csc = s.book.csc ∧
      let counts : Answer :=
        Answer.ok
          (.discarded s.book.bke.draft.rows.size s.book.bke.draft.records.length s.book.bke.draft.marked.length)
      RepliedAfter s t c counts ∧
      (StoreSound s.book → s.book.bke.records.wf = true →
        Replied s t c counts ∧ t.book.bke.rows = s.book.bke.rows ∧
          ∀ n r, s.book.slot n = some (.sound r) →
            (r.id ∈ s.book.bke.draft.records → s.book.slotOf r.id = some n → t.book.slot n = none) ∧
            (r.id ∉ s.book.bke.draft.records → t.book.slot n = some (.sound { r with cancelMark := false })))) ∧
  (∀ (b : Book) (z : DraftRow) (y : Row), b.bke.records.wf = true → b.row z.room z.date = some y →
    let ended (q : Record) : Prop :=
      (∃ m, b.slot m = some (.sound q)) ∧ q.id ∈ b.bke.draft.marked ∧ q.id ∈ z.freed ∧ q.state ≠ .confirmed
    (b.staleDay z = none ↔ y.version = z.base ∧ ∀ q, ¬ended q) ∧
      ∀ e, b.staleDay z = some e →
        e.room = z.room ∧ e.code = b.code z.room ∧ e.date = z.date ∧ e.base = z.base ∧ e.version = y.version ∧
          (y.version ≠ z.base → e.marked = none) ∧
          (y.version = z.base → ∃ q, ended q ∧ e.marked = some q.id)) ∧
  (∀ (t : Ctu) (b : Book) (r : Record),
    b.lapsedDraft t r = true ↔
      ∃ h c, b.bke.horizon = some h ∧ h.today = r.date ∧ t.clock = some c ∧
        ((∃ l, c.lastBoundary = some l ∧ r.start ≤ l) ∨ 360 + 15 * r.start ≤ c.reach)) ∧
  (∀ (t : Ctu) (b : Book),
    (∀ z, z ∈ b.draftDays ↔ z ∈ b.bke.draft.rows.values) ∧
      b.draftDays.Pairwise
        (fun y z => y.room < z.room ∨
          y.room = z.room ∧ ∀ i j, b.offset y.date = some i → b.offset z.date = some j → i ≤ j) ∧
      b.runCount t =
        b.sound.countP fun p =>
          p.2.edition == .draft && !b.lapsedDraft t p.2 && p.2.kind == .meeting &&
            (b.room p.2.room).any fun rm => rm.template.isSome)


/-! ## Catering (08) -/

/-- R134, R135: ORDER hands the BKE a placement claim; the claim places the order CONFIRMED where its covers fit its
window, else WAITLISTED where it may wait and a place is free, and writes a placed order's id into the booking; an order
of the booking that is CANCELLED or DECLINED is removed, and the new one takes its place. Else no order is made and
nothing is removed: FULL/WAITLIST where it may wait, FULL/CAPACITY where it may not. A booking that has an order in
another state is answered IN_USE/ORDERED, found by the booking id (log 67), and one whose cut-off has passed TOO_LATE;
that of a closed window (R131) has, which the model deduces (log 97). That ORDER_STATE comes before the reply is its
choice (log 111). -/
def Obligations.OrderIsPlacedByTheBookEngine : Prop :=
  (∀ (s : State) (c : Ctx) (f : OrderFields) (rest : List Handed), Asks s c (.order f) rest →
    ∃ t, Runs .order s t ∧ t.book.mail.requests = rest ∧ t.book.csc = s.book.csc ∧
      (s.book.csc.horizon = none → Replied s t c (Answer.of .clockUnset)) ∧
      (s.book.csc.horizon ≠ none → f.booking ≠ 0 → linesBad f.lines = false → f.slot.getD 0 ≤ 63 →
        t.book.mail.cscToBke = s.book.mail.cscToBke ++ [{ ctx := c, fields := f }] ∧
          t.book.hmp = s.book.hmp)) ∧
  (∀ (s : State) (p : PlacementClaim) (rest : List PlacementClaim) (n k : Nat) (r : Record) (rm : Room) (kit : Kitchen)
    (e : CapEntry) (old : Option Order),
    s.book.mail.cscToBke = p :: rest → StoreSound s.book → HoldsLive s.book n r → r.id = p.fields.booking →
    r.kind = .meeting → r.state = .confirmed ∨ r.state.started = true → s.book.room r.room = some rm →
    rm.kitchen = some k → s.book.csc.kitchen k = some kit → s.book.csc.guard.contains k = false →
    OrdersKeyed s.book → s.book.csc.orderOf r.id = old →
    (∀ o, old = some o → o.state = .cancelled ∨ o.state = .declined) →
    (old = none → s.book.csc.orders.size < 1023) →
    let slot := p.fields.slot.getD r.start
    r.start ≤ slot → slot < r.start + r.count →
    s.book.csc.cutOffReached r.date (s.book.csc.cutOffMinute k slot) = false →
    s.book.csc.entry k r.date (slot / 2) = some e → e.closed = false →
    let n' := covers p.fields.lines
    let kept := (old.map fun o => s.book.csc.orders.drop o.id).getD s.book.csc.orders
    let id := nextId kept.keys 1023 s.book.csc.lastOrder kept.size
    ∃ t, Runs .orderPlacementClaim s t ∧ t.book.mail.cscToBke = rest ∧
      let placed (st : OrderState) (d : Detail) (left : Nat) : Prop :=
        ∃ o more, t.book.csc.orders.find id = some o ∧ o.id = id ∧ o.state = st ∧ o.booking = r.id ∧
          o.kitchen = k ∧ o.slot = slot ∧ o.lines = p.fields.lines ∧ o.fired = false ∧ o.ticket = .none ∧
          o.voidOwed = false ∧ o.cutOff = 360 + 15 * slot - kit.cutOff ∧
          o.copy =
            { date := r.date, room := r.room, start := r.start, count := r.count, state := some r.state
              label := r.label } ∧
          (∀ x, old = some x → x.id ≠ id → t.book.csc.orders.find x.id = none) ∧
          (∀ j, j ≠ id → (∀ x, old = some x → j ≠ x.id) →
            t.book.csc.orders.find j = s.book.csc.orders.find j) ∧
          t.book.csc.lastOrder = id ∧
          t.book.slot n = some (.sound { r with order := some id }) ∧
          t.book.hmp.out =
            (s.book.hmp.post
                (.orderState id r.id k r.date slot (slot / 2) n' none st .host .none)).out ++
              .reply p.ctx { status := .ok, detail := d, data := .order (o.placedView left) } :: more
      (n' + e.committed ≤ e.capacity →
        placed .confirmed .confirmed (e.capacity - (e.committed + n')) ∧
          t.book.csc.entry k r.date (slot / 2) = some { e with committed := e.committed + n' }) ∧
      (¬(n' + e.committed ≤ e.capacity) → 1 ≤ n' → p.fields.wait = true → kit.waitlist.length < 16 →
        placed .waitlisted .waiting (e.capacity - e.committed) ∧
          t.book.csc.kitchen k = some { kit with waitlist := kit.waitlist ++ [id] } ∧
          t.book.csc.entry k r.date (slot / 2) = some e) ∧
      (¬(n' + e.committed ≤ e.capacity) → 1 ≤ n' → p.fields.wait = true → 16 ≤ kit.waitlist.length →
        t.book.csc = s.book.csc ∧ t.book.bke = s.book.bke ∧ Replied s t p.ctx (Answer.because .full .waitlist)) ∧
      (¬(n' + e.committed ≤ e.capacity) → 1 ≤ n' → p.fields.wait = false →
        t.book.csc = s.book.csc ∧ t.book.bke = s.book.bke ∧ Replied s t p.ctx (Answer.because .full .capacity))) ∧
  (∀ (s : State) (p : PlacementClaim) (rest : List PlacementClaim) (n k : Nat) (r : Record) (rm : Room),
    s.book.mail.cscToBke = p :: rest → StoreSound s.book → HoldsLive s.book n r → r.id = p.fields.booking →
    r.kind = .meeting → r.state = .confirmed ∨ r.state.started = true → s.book.room r.room = some rm →
    rm.kitchen = some k →
    let slot := p.fields.slot.getD r.start
    r.start ≤ slot → slot < r.start + r.count →
    ∃ t, Runs .orderPlacementClaim s t ∧ t.book.mail.cscToBke = rest ∧
      let refused (a : Answer) : Prop := t.book.csc = s.book.csc ∧ t.book.bke = s.book.bke ∧ Replied s t p.ctx a
      (∀ o, s.book.csc.orderOf r.id = some o → o.state ≠ .cancelled → o.state ≠ .declined →
        refused (Answer.because .inUse .ordered)) ∧
      ((∀ o, s.book.csc.orderOf r.id = some o → o.state = .cancelled ∨ o.state = .declined) →
        CutOffPassed s.book.csc k r.date slot → refused (Answer.of .tooLate)))

/-- R136: ORDER_CHANGE of a CONFIRMED order takes its new fields where its new covers fit with its old ones returned,
else leaves it as it was; of a WAITLISTED one takes them, CONFIRMED where they fit. A new slot whose cut-off has passed
is answered TOO_LATE. R131: no covers are committed into a closed window; what a change, a scan and a MOVE then come to
the model deduces (log 97). That the notices of a claim come before its reply is its choice (log 111). R137: what an
ORDER_CANCEL comes to. R130: what both do to the capacity entries: covers returned to the old window and committed to
the new one, where no scan confirms another order; and the scan of a waitlist of one. R147: the MOVE of a meeting with
an order is decided by the order's state and the new room's kitchen; refused, it changes nothing, and on FIT the order
takes its new kitchen, date, slot and cut-off minute. That an order has a date of its own, which its windows, its
cut-off and its notices go by, and that it takes the new one with the MOVE, R147 does not say: it is the model's reading
(log 28). The moved meeting's buffer and run go by the template that the SQU holds, the model's choice (log 68). -/
def Obligations.OrdersAreChangedAndCancelled : Prop :=
  (∀ (s : State) (c : Ctx) (id : Nat) (lines : Option (List OrderLine)) (slot : Option Nat) (o : Order)
    (rest : List Handed),
    Asks s c (.orderChange id lines slot) rest → s.book.csc.horizon ≠ none → 1 ≤ id → id ≤ 1023 →
    lines ≠ none ∨ slot ≠ none → lines.any linesBad = false → OrdersKeyed s.book →
    s.book.csc.orders.find id = some o → s.book.csc.guard.contains o.kitchen = false →
    (∀ x, slot = some x →
      o.copy.start ≤ x ∧ x < o.copy.start + o.copy.count ∧ ¬CutOffPassed s.book.csc o.kitchen o.date x) →
    let n := s.book.csc.changedOrder o lines slot
    let back := s.book.csc.giveBack o.kitchen o.date o.window o.covers
    ∃ t, Runs .orderChange s t ∧ t.book.mail.requests = rest ∧
      n.lines = lines.getD o.lines ∧ n.slot = slot.getD o.slot ∧ n.state = o.state ∧
      (o.state = .confirmed → CoversFit back o.kitchen o.date n.window n.covers →
        t.book.csc.orders.find id = some n ∧
          RepliedAfter s t c { status := .ok, detail := .confirmed, data := .orderChanged n.view (s.book.code n.copy.room) } ∧
          (NoWaiters s.book o.kitchen ∨ (o.covers ≤ n.covers ∧ n.window = o.window) →
            CoversMoved s t o.kitchen o.date o.window o.covers n.window n.covers)) ∧
      (o.state = .confirmed → ¬CoversFit back o.kitchen o.date n.window n.covers →
        t.book.csc = s.book.csc ∧ Replied s t c (Answer.because .full .capacity)) ∧
      (o.state = .waitlisted → CoversFit s.book.csc o.kitchen o.date n.window n.covers →
        t.book.csc.orders.find id = some { n with state := .confirmed } ∧
          RepliedAfter s t c
            { status := .ok, detail := .confirmed
              data := .orderChanged (Order.view { n with state := .confirmed }) (s.book.code n.copy.room) } ∧
          CoversMoved s t o.kitchen o.date o.window 0 n.window n.covers) ∧
      (o.state = .waitlisted → ¬CoversFit s.book.csc o.kitchen o.date n.window n.covers →
        t.book.csc.orders.find id = some n ∧ t.book.csc.capacity = s.book.csc.capacity ∧
          Replied s t c { status := .ok, detail := .waiting, data := .orderChanged n.view (s.book.code n.copy.room) })) ∧
  (∀ (s : State) (c : Ctx) (id x : Nat) (lines : Option (List OrderLine)) (o : Order) (rest : List Handed),
    Asks s c (.orderChange id lines (some x)) rest → s.book.csc.horizon ≠ none → 1 ≤ id → id ≤ 1023 →
    lines.any linesBad = false → s.book.csc.orders.find id = some o → o.state = .confirmed ∨ o.state = .waitlisted →
    o.copy.start ≤ x → x < o.copy.start + o.copy.count → CutOffPassed s.book.csc o.kitchen o.date x →
    ∃ t, Runs .orderChange s t ∧ t.book.mail.requests = rest ∧ t.book.csc = s.book.csc ∧
      Replied s t c (Answer.of .tooLate)) ∧
  (∀ (s : State) (c : Ctx) (id : Nat) (o : Order) (rest : List Handed),
    Asks s c (.orderCancel id) rest → s.book.csc.horizon ≠ none → 1 ≤ id → id ≤ 1023 → OrdersKeyed s.book →
    s.book.csc.orders.find id = some o →
    ∃ t, Runs .orderCancel s t ∧ t.book.mail.requests = rest ∧ t.book.bke = s.book.bke ∧
      (o.state = .waitlisted ∨ o.state = .confirmed →
        t.book.csc.orders.find id = some { o with state := .cancelled } ∧ RepliedAfter s t c (Answer.ok .none)) ∧
      (o.state = .waitlisted → t.book.csc.capacity = s.book.csc.capacity ∧
        ∀ kit, s.book.csc.kitchen o.kitchen = some kit →
          t.book.csc.kitchen o.kitchen = some { kit with waitlist := kit.waitlist.filter fun i => i != id }) ∧
      (o.state = .confirmed →
        let back := s.book.csc.giveBack o.kitchen o.date o.window o.covers
        (NoWaiters s.book o.kitchen → CoversMoved s t o.kitchen o.date o.window o.covers o.window 0) ∧
        ∀ kit p, s.book.csc.guard.contains o.kitchen = false → s.book.csc.kitchen o.kitchen = some kit →
          kit.waitlist = [p.id] → p.id ≠ id → s.book.csc.orders.find p.id = some p → p.state = .waitlisted →
          p.kitchen = o.kitchen → p.date = o.date →
          (CoversFit back o.kitchen p.date p.window p.covers →
            t.book.csc.orders.find p.id = some { p with state := .confirmed } ∧
              t.book.csc.kitchen o.kitchen = some { kit with waitlist := [] } ∧
              CoversMoved s t o.kitchen o.date o.window o.covers p.window p.covers) ∧
          (¬CoversFit back o.kitchen p.date p.window p.covers →
            t.book.csc.orders.find p.id = some p ∧ t.book.csc.kitchen o.kitchen = some kit ∧
              CoversMoved s t o.kitchen o.date o.window o.covers o.window 0)) ∧
      (o.state = .cancelled ∨ o.state = .declined →
        t.book.csc = s.book.csc ∧ Replied s t c (Answer.because .refused .terminal)) ∧
      (o.state = .locked ∨ o.state = .ticketed ∨ o.state = .dispatched ∨ o.state = .delivered ∨
          o.state = .cleared ∨ o.state = .writtenOff →
        t.book.csc = s.book.csc ∧ Replied s t c (Answer.of .tooLate))) ∧
  (∀ (s : State) (c : Ctx) (n : Nat) (r : Record) (f : MoveFields) (rest : List Handed) (rm : Room) (o : Order),
    Asks s c (.move f) rest → MovePasses s n r f rm → r.order = some o.id → OrdersKeyed s.book →
    s.book.csc.orders.find o.id = some o → o.booking = r.id → r.start ≤ o.slot →
    let buf := clipBuffer (f.start + f.count) (s.book.squ.bufferOf rm)
    let slot := min (f.start + (o.slot - r.start)) (f.start + f.count - 1)
    ∃ t, Runs .move s t ∧ t.book.mail.requests = rest ∧
      let refused (a : Answer) : Prop :=
        t.book.slot n = some (.sound r) ∧ t.book.csc = s.book.csc ∧ (∀ x d, t.book.row x d = s.book.row x d) ∧
          Replied s t c a
      let moved : Prop :=
        ∃ r' a, Moved s t n r r' f buf ∧ a.id = r.id ∧ a.room = f.room ∧ a.date = f.date ∧ a.start = f.start ∧
          a.count = f.count ∧ a.bufSlots = buf ∧ RepliedAfter s t c (Answer.ok (.placed a r'.run))
      (o.state = .cancelled ∨ o.state = .declined → moved ∧ t.book.csc = s.book.csc) ∧
      (o.state = .locked ∨ o.state = .ticketed ∨ o.state = .dispatched ∨ o.state = .delivered ∨ o.state = .cleared ∨
          o.state = .writtenOff →
        refused (Answer.of .tooLate)) ∧
      (o.state = .confirmed ∨ o.state = .waitlisted →
        (rm.kitchen = none → refused (Answer.because .full .catering)) ∧
        ∀ k kit, rm.kitchen = some k → s.book.csc.kitchen k = some kit →
          let cut := s.book.csc.cutOffMinute k slot
          let own := if k = o.kitchen ∧ f.date = o.date ∧ slot / 2 = o.slot / 2 then o.covers else 0
          let o' : Order := { o with kitchen := k, date := f.date, slot := slot, cutOff := cut }
          (s.book.csc.guard.contains k = true → refused (Answer.because .busy .commit)) ∧
          (s.book.csc.guard.contains k = false → CutOffPassed s.book.csc k f.date slot →
            refused (Answer.of .tooLate)) ∧
          (s.book.csc.guard.contains k = false → ¬CutOffPassed s.book.csc k f.date slot →
            (o.state = .confirmed → s.book.csc.remaining k f.date (slot / 2) + own < o.covers →
              refused (Answer.because .full .catering)) ∧
            (o.state = .waitlisted → k ≠ o.kitchen → 16 ≤ kit.waitlist.length →
              refused (Answer.because .full .catering)) ∧
            (o.state = .confirmed → o.covers ≤ s.book.csc.remaining k f.date (slot / 2) + own →
              moved ∧ t.book.csc.orders.find o.id = some o' ∧
                ∀ before, s.book.csc.kitchen o.kitchen = some before → before.waitlist = [] →
                  t.book.csc.capacity =
                    ((s.book.csc.giveBack o.kitchen o.date (o.slot / 2) o.covers).commit k f.date (slot / 2)
                      o.covers).capacity) ∧
            (o.state = .waitlisted → k = o.kitchen ∧ kit.waitlist = [o.id] ∨ k ≠ o.kitchen ∧ kit.waitlist = [] →
              moved ∧
                t.book.csc.orders.find o.id =
                  some (if o.covers ≤ s.book.csc.remaining k f.date (slot / 2) then { o' with state := .confirmed }
                    else o')) ∧
            (s.book.hmp.restart ≠ .answered → s.book.hmp.noticesHeld < s.book.hmp.noticeRoom →
              (o.state = .confirmed ∧ o.covers ≤ s.book.csc.remaining k f.date (slot / 2) + own) ∨
                  (o.state = .waitlisted ∧ (k = o.kitchen ∨ kit.waitlist.length < 16)) →
              ∃ d, .notice d
                  (.orderState o.id o.booking k f.date slot (slot / 2) o.covers (some o.state) o.state .move .none) ∈
                t.book.hmp.out))))

/-- R131: a slot boundary closes the window that has just ended, on the date it carries, and no other entry. A scan
(R138) leaves every closed entry as it stands. That the scan passes over an order whose window is closed the model
deduces (log 97). -/
def Obligations.BoundaryClosesTheWindowThatEnded : Prop :=
  (∀ (b : Book) (k j : Nat) (y : CapEntry), b.csc.capacity.find j = some y → y.closed = true →
    (b.scan k).csc.capacity.find j = some y) ∧
  ∀ (s : State) (e : TimeEvent) (x : Nat) (rest : List TimeEvent),
    s.book.mail.cscEvents = e :: rest → e.kind = boundaryEvent x →
    ∃ t, Runs .cscSlotBoundary s t ∧ t.book.mail.cscEvents = rest ∧ t.book.csc.orders = s.book.csc.orders ∧
      ∀ k y, s.book.csc.capacity.find k = some y →
        (2 ≤ x → x % 2 = 0 → y.date = e.date → y.window = x / 2 - 1 →
          t.book.csc.capacity.find k = some { y with closed := true }) ∧
        (x % 2 = 1 ∨ x = 0 ∨ y.date ≠ e.date ∨ y.window ≠ x / 2 - 1 → t.book.csc.capacity.find k = some y)

/-- R129, R130, R139, R148: the other time events at the CSC: horizon open and day open make the entries of their dates,
day retire removes the date's orders and entries, the minute event fires every cut-off due, one at a time by CUT_OFF, the
earliest cut-off minute first and of equal ones the lowest order id. That one CUT_OFF fires one cut-off is the model's
choice (log 8); that the day retire, the cut-offs and their notices go by the order's own date is its reading (log 28). -/
def Obligations.CateringTakesItsTimeEvents : Prop :=
  (∀ (s : State) (e : TimeEvent) (w : Weekday) (m : Nat) (slot : CurSlot) (rest : List TimeEvent),
    s.book.mail.cscEvents = e :: rest → e.kind = .horizonOpen w m slot → e.date.valid = true →
    s.book.csc.kitchens.wf = true →
    ∃ t, Runs .cscHorizonOpen s t ∧ t.book.mail.cscEvents = rest ∧ t.book.csc.minute = some m ∧
      t.book.csc.horizon = some { today := e.date, weekday := w } ∧
      ∀ k kit j v, s.book.csc.kitchens.find k = some kit → j < 14 → v < 32 →
        t.book.csc.entry k (e.date.after j) v =
          some
            { kitchen := k, date := e.date.after j, window := v, capacity := (kit.profile[v]?).getD 0, committed := 0
              closed := decide (e.date.after j = e.date) && s.ctu.passed (2 * v + 2) }) ∧
  (∀ (s : State) (e : TimeEvent) (rest : List TimeEvent),
    s.book.mail.cscEvents = e :: rest → e.kind = .dayRetire → OrdersKeyed s.book →
    s.book.csc.orders.wf = true →
    ∃ t, Runs .cscDayRetire s t ∧ t.book.mail.cscEvents = rest ∧
      (∀ k o, t.book.csc.orders.find k = some o ↔ s.book.csc.orders.find k = some o ∧ o.date ≠ e.date) ∧
      ∀ x ∈ t.book.csc.capacity.entries, x.2.date ≠ e.date) ∧
  (∀ (s : State) (e : TimeEvent) (opened : Date) (w : Weekday) (rest : List TimeEvent),
    s.book.mail.cscEvents = e :: rest → e.kind = .dayOpen opened w → opened.valid = true →
    s.book.csc.kitchens.wf = true →
    ∃ t, Runs .cscDayOpen s t ∧ t.book.mail.cscEvents = rest ∧ t.book.csc.minute = s.book.csc.minute ∧
      t.book.csc.horizon = some { today := e.date, weekday := w.next } ∧
      ∀ k kit v, s.book.csc.kitchens.find k = some kit → v < 32 →
        t.book.csc.entry k opened v =
          some
            { kitchen := k, date := opened, window := v, capacity := (kit.profile[v]?).getD 0, committed := 0
              closed := false }) ∧
  (∀ (s : State) (e : TimeEvent) (m : Nat) (rest : List TimeEvent),
    s.book.mail.cscEvents = e :: rest → e.kind = .minute m → OrdersKeyed s.book →
    ∃ t, Runs .cscMinute s t ∧ t.book.mail.cscEvents = rest ∧ t.book.csc.minute = some m ∧
      (∀ k o, t.book.csc.orders.find k = some o → o.date = e.date → o.cutOff ≤ m → o.fired = true) ∧
      ((∀ k o, s.book.csc.orders.find k = some o → o.date = e.date → o.cutOff ≤ m → o.fired = true) →
        s.book.csc.orders.wf = true → t.book.csc.orders = s.book.csc.orders ∧ t.book.hmp = s.book.hmp)) ∧
  (∀ (q : Csc) (d : Date) (m : Nat), (∀ o ∈ q.orders.values, o.id ≤ 1023) →
    ∃ l : List Order, q.dueCutOffs d m = l.map (fun o => o.id) ∧
      (∀ o, o ∈ l ↔ o ∈ q.orders.values ∧ o.date = d ∧ o.fired = false ∧ o.cutOff ≤ m) ∧
      l.Pairwise (fun x y => x.cutOff < y.cutOff ∨ x.cutOff = y.cutOff ∧ x.id ≤ y.id)) ∧
  (∀ (s : State) (d : Date) (m id : Nat) (l : List Nat) (o : Order),
    s.book.mail.cscMinuteEvent = some (d, m) → s.book.csc.dueCutOffs d m = id :: l →
    s.book.csc.orders.find id = some o → o.id = id →
    ∃ t, Runs .cutOff s t ∧ t.book.mail.cscEvents = s.book.mail.cscEvents ∧
      (o.state = .confirmed →
        t.book.csc.orders.find id = some { o with fired := true, state := .locked, ticket := .pending } ∧
          (∀ kit, s.book.csc.kitchen o.kitchen = some kit →
            ∃ kit', t.book.csc.kitchen o.kitchen = some kit' ∧ id ∈ kit'.tickets) ∧
          ∃ more, t.book.hmp.out =
            (s.book.hmp.post
              (.orderState id o.booking o.kitchen o.date o.slot (o.slot / 2) o.covers (some .confirmed) .locked .cutOff
                .none)).out ++ more) ∧
      (o.state = .waitlisted →
        t.book.csc.orders.find id = some { o with fired := true, state := .declined } ∧
          (∀ kit, s.book.csc.kitchen o.kitchen = some kit →
            ∃ kit', t.book.csc.kitchen o.kitchen = some kit' ∧ id ∉ kit'.waitlist) ∧
          t.book.hmp =
            s.book.hmp.post
              (.orderState id o.booking o.kitchen o.date o.slot (o.slot / 2) o.covers (some .waitlisted) .declined
                .cutOff .none)) ∧
      (o.state ≠ .confirmed → o.state ≠ .waitlisted →
        t.book.csc.orders.find id = some { o with fired := true } ∧ t.book.hmp = s.book.hmp))

/-- R140 to R142, R148: what the SBC tells of a kitchen's ticket, call, slots and terminal; a report of an order that
has been removed is disregarded, also where a new order has its id, which the model tells by the serial (log 42). A
pickup call's order is the one found by its booking id, also one that an earlier record with the id left: the model's
choice (log 67). -/
def Obligations.TicketsCallsAndTerminalLinks : Prop :=
  (∀ (s : State) (g k id : Nat) (rest : List (Nat × CscReport)) (o : Order),
    nextOf g s.book.mail.sbcToCsc = some (.ticketDelivered k id o.serial, rest) →
    s.book.csc.orders.find id = some o → o.id = id → o.kitchen = k → o.ticket = .offered →
    ∃ t, Runs (.ticketDelivered g) s t ∧ t.book.mail.sbcToCsc = rest ∧
      t.book.csc.orders.find id = some { o with ticket := .sent, voidOwed := false } ∧
      ∀ kit, s.book.csc.kitchen k = some kit → ∃ kit', t.book.csc.kitchen k = some kit' ∧
        (o.voidOwed = true → { kind := .void, order := id, serial := o.serial } ∈ kit'.calls) ∧
        (o.voidOwed = false → kit'.calls = kit.calls)) ∧
  (∀ (s : State) (g k id : Nat) (rest : List (Nat × CscReport)) (o : Order),
    nextOf g s.book.mail.sbcToCsc = some (.ticketBack k id o.serial, rest) →
    s.book.csc.orders.find id = some o → o.id = id → o.kitchen = k → o.ticket = .offered →
    ∃ t, Runs (.ticketNotDelivered g) s t ∧ t.book.mail.sbcToCsc = rest ∧
      (o.state = .locked →
        t.book.csc.orders.find id = some { o with ticket := .pending } ∧
          ∀ kit, s.book.csc.kitchen k = some kit → ∃ kit', t.book.csc.kitchen k = some kit' ∧ id ∈ kit'.tickets) ∧
      (o.state ≠ .locked → t.book.csc.orders.find id = some { o with ticket := .none, voidOwed := false })) ∧
  (∀ (s : State) (g k id serial : Nat) (rest : List (Nat × CscReport)),
    nextOf g s.book.mail.sbcToCsc = some (.ticketBack k id serial, rest) → s.book.csc.reported id serial = none →
    ∃ t, Runs (.ticketNotDelivered g) s t ∧ t.book.mail.sbcToCsc = rest ∧ t.book.csc = s.book.csc) ∧
  (∀ (s : State) (g k : Nat) (c : Call) (rest : List (Nat × CscReport)) (kit : Kitchen),
    nextOf g s.book.mail.sbcToCsc = some (.callDelivered k c, rest) → s.book.csc.kitchen k = some kit →
    ∃ t, Runs (.callDelivered g) s t ∧ t.book.mail.sbcToCsc = rest ∧ t.book.csc.orders = s.book.csc.orders ∧
      t.book.csc.kitchen k = some { kit with callOut := none }) ∧
  (∀ (s : State) (g k : Nat) (c : Call) (rest : List (Nat × CscReport)) (kit : Kitchen),
    nextOf g s.book.mail.sbcToCsc = some (.callBack k c, rest) → s.book.csc.kitchen k = some kit →
    (s.book.csc.reported c.order c.serial).isSome = true →
    ∃ t kit', Runs (.callNotDelivered g) s t ∧ t.book.mail.sbcToCsc = rest ∧ t.book.csc.kitchen k = some kit' ∧
      kit'.calls = c :: kit.calls.filter (fun x => x != c) ∧ kit'.callOut = none) ∧
  (∀ (s : State) (g k : Nat) (c : Call) (rest : List (Nat × CscReport)) (kit : Kitchen),
    nextOf g s.book.mail.sbcToCsc = some (.callBack k c, rest) → s.book.csc.kitchen k = some kit →
    s.book.csc.reported c.order c.serial = none →
    ∃ t, Runs (.callNotDelivered g) s t ∧ t.book.mail.sbcToCsc = rest ∧
      t.book.csc.kitchen k = some { kit with callOut := none }) ∧
  (∀ (s : State) (g k : Nat) (ticket : Bool) (rest : List (Nat × CscReport)) (kit : Kitchen),
    nextOf g s.book.mail.sbcToCsc = some (.slotFree k ticket, rest) → s.book.csc.kitchen k = some kit →
    kit.online = true →
    ∃ t, Runs (.slotFree g) s t ∧ t.book.mail.sbcToCsc = rest ∧ t.book.csc = s.book.csc ∧
      (ticket = true → kit.tickets ≠ [] → s.book.csc.ticketFree k = true → k ∈ t.book.mail.ticketOffers) ∧
      (ticket = false → kit.calls ≠ [] → kit.callOut = none → k ∈ t.book.mail.callOffers)) ∧
  (∀ (s : State) (g k : Nat) (session : Option (BitVec 8)) (st : Option StationState) (rest : List (Nat × CscReport))
    (kit : Kitchen),
    nextOf g s.book.mail.sbcToCsc = some (.link k session st, rest) → s.book.csc.kitchen k = some kit →
    ∃ t kit', Runs (.terminalLinkChange g) s t ∧ t.book.mail.sbcToCsc = rest ∧ t.book.csc.kitchen k = some kit' ∧
      (st = some .online →
        kit'.online = true ∧ kit'.session = session.getD kit.session ∧ kit'.unreachable = false ∧
          t.book.hmp = s.book.hmp ∧
          (kit.tickets ≠ [] → s.book.csc.ticketFree k = true → k ∈ t.book.mail.ticketOffers)) ∧
      (st ≠ some .online →
        kit'.online = false ∧
          (kit.unreachable = false → kit.tickets ≠ [] ∨ kit.calls ≠ [] →
            kit'.unreachable = true ∧
              t.book.hmp =
                s.book.hmp.post (.kitchenUnreachable k kit.terminal st kit.tickets.length kit.calls.length)))) ∧
  (∀ (s : State) (booking : Nat) (rest : List Nat) (o : Order) (kit : Kitchen),
    s.book.mail.squToCsc = booking :: rest → s.book.csc.orderOf booking = some o →
    s.book.csc.kitchen o.kitchen = some kit →
    ∃ t kit', Runs .pickupCall s t ∧ t.book.mail.squToCsc = rest ∧ t.book.csc.orders = s.book.csc.orders ∧
      t.book.csc.kitchen o.kitchen = some kit' ∧
      (o.state = .delivered → { kind := .pickupCall, order := o.id, serial := o.serial } ∈ kit'.calls) ∧
      (o.state ≠ .delivered → kit' = kit))

/-- R143: a terminal's event takes the order on where the rule's table lists its state, and is counted as ignored in
every other state, in another session, and where the kitchen has no such order. R144: a cart at the right room delivers
the order, changes nothing once it is delivered and is refused in any other state; that the room's parts are read in the
BKE's directory is the model's choice (log 23), and the date of its notices its reading (log 28). R145: a booking's
cancel, release or forget cancels or writes off its order. R146: an early end that leaves the delivery slot outside the
span cancels an order that is not yet LOCKED. The CSC takes the terminal events in the order handed: one that another
segment's earlier event stands before waits. That only events keep that order across segments (log 94), that a change
acts on the order found by its booking id, also one that an earlier record with the id left (log 67), and that a copy
REMOVED keeps its last room, by which a cart is judged (log 77), are the model's choices. -/
def Obligations.EventsCartsAndBookingEffects : Prop :=
  (∀ (s : State) (g k a id : Nat) (session : BitVec 8) (ev : StationEvent) (l m : List (Nat × CscReport))
    (kit : Kitchen),
    s.book.mail.sbcToCsc = l ++ (g, .event k a session ev) :: m → (∀ e ∈ l, e.1 ≠ g ∧ e.2.isEvent = false) →
    s.book.csc.kitchen k = some kit → ev = .ticketTaken id ∨ ev = .dispatched id ∨ ev = .pickedUp id →
    ∃ t, Runs (.terminalEvent g) s t ∧ t.book.mail.sbcToCsc = l ++ m ∧
      let goes (o : Order) (st : OrderState) : Prop :=
        ∃ o', t.book.csc.orders.find id = some o' ∧ o'.state = st ∧
          o'.ticket = (if o.ticket = .pending then .none else o.ticket) ∧
          t.book.hmp =
            s.book.hmp.post
              (.orderState id o.booking k o.date o.slot (o.slot / 2) o.covers (some o.state) st .terminal .none)
      let ignored : Prop :=
        t.book.csc.orders = s.book.csc.orders ∧ t.book.hmp = s.book.hmp ∧
          t.book.csc.kitchen k = some { kit with ignored := bump 65535 kit.ignored }
      (∀ o, kit.session = session → s.book.csc.orders.find id = some o → o.id = id → o.kitchen = k →
        (ev = .ticketTaken id → o.state = .locked → goes o .ticketed) ∧
        (ev = .ticketTaken id → o.state ≠ .locked → ignored) ∧
        (ev = .dispatched id → o.state = .locked ∨ o.state = .ticketed → goes o .dispatched) ∧
        (ev = .dispatched id → o.state ≠ .locked → o.state ≠ .ticketed → ignored) ∧
        (ev = .pickedUp id → o.state = .delivered ∨ o.state = .dispatched → goes o .cleared) ∧
        (ev = .pickedUp id → o.state ≠ .delivered → o.state ≠ .dispatched → ignored)) ∧
      (kit.session ≠ session → ignored) ∧ (s.book.csc.orders.find id = none → ignored) ∧
      (∀ o, s.book.csc.orders.find id = some o → o.kitchen ≠ k → ignored)) ∧
  (∀ (s : State) (g h k a : Nat) (session : BitVec 8) (ev : StationEvent) (l m : List (Nat × CscReport)),
    s.book.mail.sbcToCsc = l ++ (h, .event k a session ev) :: m → (∀ e ∈ l, e.1 ≠ g) → h ≠ g →
    Runs (.terminalEvent g) s s) ∧
  (∀ (s : State) (p : PanelClaim) (rest : List PanelClaim) (id : Nat) (o : Order),
    s.book.mail.ppuToCsc = p :: rest → p.event = .cartArrived id → s.book.csc.horizon ≠ none →
    s.book.csc.orders.find id = some o → o.id = id →
    ∃ t, Runs .cartArrived s t ∧ t.book.mail.ppuToCsc = rest ∧
      let told (st : Status) (d : Detail) : Prop :=
        t.book.mail.cscToPanel =
          s.book.mail.cscToPanel ++ [{ claim := p, status := st, detail := d, subject := some id, placed := none }]
      (s.book.rightRoom o p.room = true → o.state = .locked ∨ o.state = .ticketed ∨ o.state = .dispatched →
        told .ok .delivered ∧ ∃ o', t.book.csc.orders.find id = some o' ∧ o'.state = .delivered) ∧
      (s.book.rightRoom o p.room = true → o.state = .delivered →
        told .ok .unchanged ∧ t.book.csc.orders = s.book.csc.orders) ∧
      (s.book.rightRoom o p.room = true → o.state ≠ .locked → o.state ≠ .ticketed → o.state ≠ .dispatched →
          o.state ≠ .delivered →
        told .refused .state ∧ t.book.csc = s.book.csc ∧ t.book.hmp = s.book.hmp) ∧
      (s.book.rightRoom o p.room = false →
        told .refused .room ∧ t.book.csc.orders = s.book.csc.orders ∧
          t.book.hmp =
            s.book.hmp.post
              (.orderState id o.booking o.kitchen o.date o.slot (o.slot / 2) o.covers (some o.state) o.state .cart
                (.wrongRoom p.room (s.book.code p.room))))) ∧
  (∀ (s : State) (w : CscNews) (rest : List CscNews) (o : Order),
    s.book.mail.bkeToCsc = w :: rest → s.book.csc.orderOf w.booking = some o → OrdersKeyed s.book →
    s.book.csc.orders.find o.id = some o →
    ∃ t o', Runs .cscBookingChange s t ∧ t.book.mail.bkeToCsc = rest ∧ t.book.csc.orders.find o.id = some o' ∧
      o'.copy = o.copy.after w.change ∧
      (w.change = .cancelled ∨ w.change = .released ∨ w.change = .forgotten →
        (o.state = .waitlisted ∨ o.state = .confirmed → o'.state = .cancelled) ∧
        (o.state = .locked ∨ o.state = .ticketed ∨ o.state = .dispatched →
          o'.state = .writtenOff ∧ (o.ticket = .offered → o'.voidOwed = true) ∧
            (o.ticket = .pending → o'.ticket = .none)) ∧
        (o.state = .delivered ∨ o.state = .cleared ∨ o.state = .writtenOff → o'.state = o.state)) ∧
      (∀ st, w.change = .started st → o'.state = o.state) ∧
      (∀ n, w.change = .extended n → o' = { o with copy := { o.copy with count := n } }) ∧
      (∀ n, w.change = .endedEarly n →
        let ended (x : Option OrderState) (st : OrderState) : Notice :=
          .orderState o.id o.booking o.kitchen o.date o.slot (o.slot / 2) o.covers x st .bookingEnd .none
        (o.slot < o.copy.start + n ∨ (o.state ≠ .waitlisted ∧ o.state ≠ .confirmed) →
          o' = { o with copy := { o.copy with count := n } } ∧ t.book.csc.capacity = s.book.csc.capacity ∧
            t.book.hmp = s.book.hmp) ∧
        (o.copy.start + n ≤ o.slot → o.state = .waitlisted →
          o' = { o with state := .cancelled, copy := { o.copy with count := n } } ∧
            t.book.hmp = s.book.hmp.post (ended (some .waitlisted) .cancelled) ∧
            ∀ kit, s.book.csc.kitchen o.kitchen = some kit →
              t.book.csc.kitchen o.kitchen = some { kit with waitlist := kit.waitlist.filter fun i => i != o.id }) ∧
        (o.copy.start + n ≤ o.slot → o.state = .confirmed →
          o' = { o with state := .cancelled, copy := { o.copy with count := n } } ∧
            (∃ more, t.book.hmp.out = (s.book.hmp.post (ended (some .confirmed) .cancelled)).out ++ more) ∧
            ∀ kit, s.book.csc.kitchen o.kitchen = some kit → kit.waitlist = [] →
              t.book.csc.capacity = (s.book.csc.giveBack o.kitchen o.date (o.slot / 2) o.covers).capacity)))


/-! ## Panel pages (07) -/

/-- R116, R117: the time events at the PPU: what each sets, and which pages it builds. A slot boundary clears the
release marks below the new slot, builds the pages of the IMMEDIATE groups and the LATCHED ones whose reference is not
yet its slot, and makes one latch claim for the LATCHED groups. R115: where the build of the one ONLINE panel's page changes
its content, the panel is handed a SHOW by horizon open, day open, the morning build and day-end, and by the other events a
STAGE where its group is LATCHED and a SHOW where it is not. That a wait which the minute event brings to 2 ends by a step
of its own, LATCH_WAIT_EXPIRY, and that the day retire's latches are handed the oldest wait's first are the model's choices
(logs 8 and 76). -/
def Obligations.PagesTakeTheirTimeEvents : Prop :=
  (∀ (s : State) (e : TimeEvent) (w : Weekday) (m : Nat) (slot : CurSlot) (rest : List TimeEvent),
    s.book.mail.ppuEvents = e :: rest → e.kind = .horizonOpen w m slot →
    ∃ t, Runs .ppuHorizonOpen s t ∧ t.book.mail.ppuEvents = rest ∧
      t.ppu.horizon = some { today := e.date, weekday := w } ∧
      t.ppu.darkPeriod = (decide (s.ctu.minute < 345) || decide (1320 ≤ s.ctu.minute)) ∧ (∀ x, PageBuilt s t x) ∧
      ChangeHanded s t fun _ => .display) ∧
  (∀ (s : State) (e : TimeEvent) (rest : List TimeEvent),
    s.book.mail.ppuEvents = e :: rest → e.kind = .dayRetire →
    ∃ t, Runs .ppuDayRetire s t ∧ t.book.mail.ppuEvents = rest ∧ t.ppu.waits = [] ∧
      t.book.mail.ppuToSbc = s.book.mail.ppuToSbc ++ s.ppu.waits.map (fun w => .latch w.groups) ∧
      ∀ x pg, s.ppu.pages.find x = some pg → t.ppu.pages.find x = some { pg with release := none, overlay := 0 }) ∧
  (∀ (s : State) (e : TimeEvent) (opened : Date) (w : Weekday) (rest : List TimeEvent),
    s.book.mail.ppuEvents = e :: rest → e.kind = .dayOpen opened w →
    ∃ t, Runs .ppuDayOpen s t ∧ t.book.mail.ppuEvents = rest ∧
      t.ppu.horizon = some { today := e.date, weekday := w.next } ∧ t.ppu.darkPeriod = s.ppu.darkPeriod ∧
      (∀ x, PageBuilt s t x) ∧ ChangeHanded s t fun _ => .display) ∧
  (∀ (s : State) (e : TimeEvent) (rest : List TimeEvent),
    s.book.mail.ppuEvents = e :: rest → e.kind = .morningBuild →
    ∃ t, Runs .morningBuild s t ∧ t.book.mail.ppuEvents = rest ∧ t.ppu.darkPeriod = false ∧
      t.ppu.horizon = s.ppu.horizon ∧ (∀ x, PageBuilt s t x) ∧ ChangeHanded s t fun _ => .display) ∧
  (∀ (s : State) (e : TimeEvent) (b : Nat) (rest : List TimeEvent),
    s.book.mail.ppuEvents = e :: rest → e.kind = .preBoundary b →
    ∃ t, Runs .preBoundary s t ∧ t.book.mail.ppuEvents = rest ∧ t.ppu.waits = s.ppu.waits ∧
      (ChangeHanded s t fun latched => if latched then .stage else .display) ∧
      (∀ x rm, s.ppu.rooms.find x = some rm → s.ppu.isLatched rm.group = true →
        PageBuilt s t x ∧ t.ppu.reference s.ctu rm.group = slotOfBoundary (some b)) ∧
      (s.ppu.rooms.wf = true → ∀ x rm, s.ppu.rooms.find x = some rm → s.ppu.isLatched rm.group = false →
        t.ppu.pages.find x = s.ppu.pages.find x)) ∧
  (∀ (s : State) (e : TimeEvent) (b : Nat) (rest : List TimeEvent),
    s.book.mail.ppuEvents = e :: rest → e.kind = boundaryEvent b →
    ∃ t, Runs .ppuSlotBoundary s t ∧ t.book.mail.ppuEvents = rest ∧ t.ppu.coming = none ∧
      (ChangeHanded s t fun latched => if latched then .stage else .display) ∧
      (∀ x rm, s.ppu.rooms.find x = some rm → s.ppu.isLatched rm.group = false → PageBuilt s t x) ∧
      (∀ x rm pg, s.ppu.rooms.find x = some rm → s.ppu.isLatched rm.group = true → s.ppu.pages.find x = some pg →
        pg.reference ≠ slotOfBoundary (some b) → PageBuilt s t x) ∧
      (∀ x pg, s.ppu.pages.find x = some pg → ∃ pg', t.ppu.pages.find x = some pg' ∧
        (∀ n, pg.release = some n → (∃ k, s.ctu.slot = .slot k ∧ n < k) ∨ s.ctu.slot = .afterDay →
          pg'.release = none) ∧
        (∀ n, pg.release = some n → (∀ k, s.ctu.slot = .slot k → k ≤ n) → s.ctu.slot ≠ .afterDay →
          pg'.release = some n) ∧
        (pg.release = none → pg'.release = none)) ∧
      (s.ppu.latchedGroups = [] → t.ppu.waits = s.ppu.waits) ∧
      (s.ppu.latchedGroups ≠ [] → LatchClaimed s t s.ppu.latchedGroups)) ∧
  (∀ (s : State) (e : TimeEvent) (rest : List TimeEvent),
    s.book.mail.ppuEvents = e :: rest → e.kind = .dayEnd →
    ∃ t, Runs .dayEnd s t ∧ t.book.mail.ppuEvents = rest ∧ t.ppu.darkPeriod = true ∧
      (∀ x rm, s.ppu.rooms.find x = some rm → s.ppu.isDark rm.group = true → PageBuilt s t x) ∧
      ChangeHanded s t fun _ => .display) ∧
  (∀ (s : State) (e : TimeEvent) (m : Nat) (rest : List TimeEvent),
    s.book.mail.ppuEvents = e :: rest → e.kind = .minute m →
    ∃ t, Runs .ppuMinute s t ∧ t.book.mail.ppuEvents = rest ∧
      t.ppu.waits = s.ppu.waits.map (fun w => { w with minutes := w.minutes + 1 }) ∧
      (∀ x rm, s.ppu.rooms.find x = some rm → s.ppu.windowOpens s.book m x = true → PageBuilt s t x) ∧
      ChangeHanded s t fun latched => if latched then .stage else .display)

/-- R113, R114: a page's display state is the first row of the table that applies, over the live records of its rooms as
the reference judges them, and its other fields follow it. R115, R118, R119: the changes handed by the BKE and the
overlay claims of runs build the pages they affect; a grace release marks its room and the parts of it; a changed page
goes to the room's panel, staged in a LATCHED group unless the change came from that room's panel; a publish completion
makes one latch claim for the LATCHED groups of its rooms; an overlay claim sets the page's overlay. R112: the reference
slot is the coming slot for a LATCHED group whose pre-boundary has been taken, else the current slot, with R112's one
exception. R118: the pages a change of today affects are those of its room, of its room's combined room and of its room's
parts, for a MOVE in both rooms. -/
def Obligations.PagesFollowTheBookAndTheRuns : Prop :=
  (∀ (s : State) (n : BookingNews) (rest : List PpuNews) (h : Horizon),
    s.book.mail.bkeToPpu = .change n :: rest → s.ppu.horizon = some h →
    ∃ t, Runs .ppuBookingChange s t ∧ t.book.mail.bkeToPpu = rest ∧
      (∀ x ∈ s.ppu.changed h.today n, PageBuilt s t x) ∧
      (n.kind = .releasedGrace → n.date = h.today → ∀ k, s.ctu.slot = .slot k →
        ∀ y, y = n.room ∨ y ∈ s.ppu.neighbourRooms n.room → ∀ pg, s.ppu.pages.find y = some pg →
          ∃ pg', t.ppu.pages.find y = some pg' ∧ pg'.release = some k) ∧
      (n.kind ≠ .releasedGrace ∨ n.date ≠ h.today → ∀ y pg, s.ppu.pages.find y = some pg →
        ∃ pg', t.ppu.pages.find y = some pg' ∧ pg'.release = pg.release) ∧
      ∀ v rm pg, s.ppu.views.entries = [(stationKey v.segment v.address, v)] → v.online = true →
        v.room ∈ s.ppu.changed h.today n → s.ppu.rooms.find v.room = some rm → s.ppu.pages.find v.room = some pg →
        ∃ pg', t.ppu.pages.find v.room = some pg' ∧
          (pg'.content ≠ pg.content →
            PageHanded s t v
              (if s.ppu.isLatched rm.group = true ∧ n.panel ≠ some v.room then .stage else .display) pg')) ∧
  (∀ (s : State) (room : Nat) (rest : List PpuNews), s.book.mail.bkeToPpu = .rowState room :: rest →
    ∃ t, Runs .ppuRowStateChange s t ∧ t.book.mail.bkeToPpu = rest ∧ PageBuilt s t room) ∧
  (∀ (s : State) (rooms : List Nat) (rest : List PpuNews), s.book.mail.bkeToPpu = .published rooms :: rest →
    ∃ t, Runs .publishCompletion s t ∧ t.book.mail.bkeToPpu = rest ∧
      (∀ y ∈ rooms, ∀ x ∈ s.ppu.affected y, PageBuilt s t x) ∧
      (s.ppu.groupsOf rooms = [] → t.ppu.waits = s.ppu.waits) ∧
      (s.ppu.groupsOf rooms ≠ [] → LatchClaimed s t (s.ppu.groupsOf rooms))) ∧
  (∀ (s : State) (room message : Nat) (rest : List PpuAction),
    s.book.mail.squToPpu = .overlay room message :: rest →
    ∃ t, Runs .showOverlay s t ∧ t.book.mail.squToPpu = rest ∧ PageBuilt s t room ∧
      (∀ pg, s.ppu.pages.find room = some pg →
        ∃ pg', t.ppu.pages.find room = some pg' ∧ pg'.overlay = message ∧
          ∀ v rm, s.ppu.views.entries = [(stationKey v.segment v.address, v)] → v.room = room → v.online = true →
            s.ppu.rooms.find room = some rm → pg'.content ≠ pg.content →
            PageHanded s t v (if s.ppu.isLatched rm.group then .stage else .display) pg') ∧
      ∀ x, x ≠ room → t.ppu.pages.find x = s.ppu.pages.find x) ∧
  (∀ (s : State) (room : Nat) (rest : List PpuAction), s.book.mail.squToPpu = .clearOverlay room :: rest →
    ∃ t, Runs .clearOverlay s t ∧ t.book.mail.squToPpu = rest ∧ PageBuilt s t room ∧
      ∀ pg, s.ppu.pages.find room = some pg → ∃ pg', t.ppu.pages.find room = some pg' ∧ pg'.overlay = 0) ∧
  (∀ (p : Ppu) (t : Ctu) (b : Book) (x : Nat) (rm : Room) (pg : Page) (ref : CurSlot),
    let c := p.content t b x rm pg ref
    let fieldless : Prop :=
      c.endMinute = none ∧ c.label = none ∧ c.nextMinute = none ∧ c.nextLabel = none ∧ c.freeUntil = none ∧
        c.walkup = false ∧ c.checkinOpen = false
    c.group = rm.group ∧ c.code = rm.code ∧
      (p.horizon = none → c.display = .notReady ∧ c.overlay = 0 ∧ fieldless) ∧
      ∀ h, p.horizon = some h →
        let dark := p.isDark rm.group = true ∧ p.darkPeriod = true
        let out := rm.bookable = false ∨ ∃ r, b.row x h.today = some r ∧ r.state = .quarantined
        (dark → c.display = .dark ∧ c.overlay = 0 ∧ fieldless) ∧
        (¬dark → c.overlay = pg.overlay) ∧
        (¬dark → out → c.display = .outOfService ∧ fieldless) ∧
        (¬dark → ¬out → PageDerived p t b h x rm pg ref c)) ∧
  (∀ (p : Ppu) (t : Ctu) (b : Book) (h : Horizon) (x : Nat) (ref : CurSlot) (q : Record),
    q ∈ b.viewRecords .live h.today → q.room ∈ candidateRooms p.rooms x →
    ∃ r ∈ (p.pageView t b h x ref).candidates,
      r = { q with state := r.state } ∧
        (q.kind = .meeting ∧ q.state = .confirmed ∧ ref.reaches q.start = true →
          r.state =
            if q.check = .early then .checkedIn
            else if (p.rooms.find q.room).any (fun rm => rm.checkin) then .awaitingCheckin
            else .inProgress) ∧
        (¬(q.kind = .meeting ∧ q.state = .confirmed ∧ ref.reaches q.start = true) → r.state = q.state)) ∧
  (∀ (p : Ppu) (t : Ctu) (group : Nat),
    (∀ n, p.isLatched group = true → p.coming = some n →
      (n ≤ 63 → p.reference t group = .slot n) ∧ (n = 64 → p.reference t group = .afterDay)) ∧
    (p.isLatched group = false ∨ p.coming = none →
      (t.slot ≠ .beforeDay ∨ t.minute < 360 → p.reference t group = t.slot) ∧
      (t.slot = .beforeDay → 1320 ≤ t.minute → p.reference t group = .afterDay) ∧
      ∀ n, t.slot = .beforeDay → t.minute < 1320 → 360 + 15 * n ≤ t.minute → t.minute < 375 + 15 * n →
        p.reference t group = .slot n)) ∧
  (∀ (p : Ppu) (today : Date) (n : BookingNews) (x : Nat),
    x ∈ p.changed today n ↔
      (n.date = today ∧ Affects p n.room x) ∨ ∃ y, n.before = some (y, today) ∧ Affects p y x)

/-- R120 to R122: a latch claim waits for the ONLINE panels of its groups that await delivery, and else hands the
latch at once; a wait that has reached two minutes ends, with a SHOW to each panel still awaited, by a
LATCH_WAIT_EXPIRY, which ends one wait (the model's choice, log 8); LATCH_GROUPS is answered when its wait ends; a
broadcast moves the panels listed. The SHOW items of a wait that ends by its count are handed in the order of the
panels' segments and addresses: the model's choice (log 91). -/
def Obligations.LatchesWaitForTheirPanels : Prop :=
  (∀ (s : State) (c : Ctx) (entries : List Bool) (rest : List Handed), Asks s c (.latchGroups entries) rest →
    let l := (groupsSet entries).filter s.ppu.isLatched
    ∃ t, Runs .latchGroups s t ∧ t.book.mail.requests = rest ∧ t.ppu.pages = s.ppu.pages ∧
      (groupsSet entries = [] → t.ppu = s.ppu ∧ Replied s t c (Answer.of .badRequest)) ∧
      (groupsSet entries ≠ [] → l = [] → t.ppu = s.ppu ∧ Replied s t c (Answer.because .ok .empty)) ∧
      (l ≠ [] → s.ppu.awaited l = [] →
        t.ppu = s.ppu ∧ Replied s t c (Answer.ok (.latched l)) ∧
          t.book.mail.ppuToSbc = s.book.mail.ppuToSbc ++ [.latch l]) ∧
      (l ≠ [] → s.ppu.awaited l ≠ [] → s.ppu.horizon ≠ none →
        t.ppu.waits = s.ppu.waits ++ [{ groups := l, panels := s.ppu.awaited l, minutes := 0, ctx := some c }] ∧
          t.book.hmp = s.book.hmp)) ∧
  (∀ (s : State) (room : Nat) (rest : List PpuAction) (l : List Nat),
    s.book.mail.squToPpu = .latch room :: rest → s.ppu.groupsOf [room] = l →
    ∃ t, Runs .latchStep s t ∧ t.book.mail.squToPpu = rest ∧ t.book.hmp = s.book.hmp ∧
      (l = [] → t.ppu = s.ppu ∧ t.book.mail.ppuToSbc = s.book.mail.ppuToSbc) ∧
      (l ≠ [] → s.ppu.awaited l = [] →
        t.ppu = s.ppu ∧ t.book.mail.ppuToSbc = s.book.mail.ppuToSbc ++ [.latch l]) ∧
      (l ≠ [] → s.ppu.awaited l ≠ [] → s.ppu.horizon ≠ none →
        t.ppu.waits = s.ppu.waits ++ [{ groups := l, panels := s.ppu.awaited l, minutes := 0, ctx := none }])) ∧
  (∀ (s : State) (w : LatchWait) (rest : List LatchWait),
    takeFirst (fun w => decide (2 ≤ w.minutes)) s.ppu.waits = some (w, rest) →
    ∃ t l, Runs .latchWaitExpiry s t ∧ t.ppu.waits = rest ∧ t.ppu.pages = s.ppu.pages ∧
      t.book.mail.ppuToSbc = s.book.mail.ppuToSbc ++ l ++ [.latch w.groups] ∧
      ((∀ k v, s.ppu.views.find k = some v → stationKey v.segment v.address = k) → l = showsFor s.ppu w.panels) ∧
      (∀ c, w.ctx = some c → Replied s t c (Answer.ok (.latched w.groups))) ∧
      (w.ctx = none → t.book.hmp = s.book.hmp)) ∧
  (∀ (s : State) (g a n : Nat) (v : PanelView) (groups : List Nat) (panels : List (Nat × BitVec 8))
    (rest : List (Nat × PpuReport)) (version : Half),
    nextOf g s.book.mail.sbcToPpu = some (.broadcast groups panels, rest) → (panels.map fun p => p.1).Nodup →
    (a, v.session) ∈ panels → s.ppu.view g a = some v → v.segment = g → v.address = a → v.staged = some (version, n) →
    (∀ k y, s.ppu.view g k = some y → y.segment = g ∧ y.address = k) →
    ∃ t v', Runs (.latchBroadcastRecord g) s t ∧ t.book.mail.sbcToPpu = rest ∧ t.ppu.view g a = some v' ∧
      (n ∈ groups → v'.shown = version) ∧ (n ∉ groups → v' = v))

/-- R123, R124: what the SBC tells of a panel: ONLINE, delivered and refused items, the shown version. -/
def Obligations.PanelViewsFollowTheBus : Prop :=
  (∀ (s : State) (g a : Nat) (c : LinkChange) (v : PanelView) (rest : List (Nat × PpuReport)),
    nextOf g s.book.mail.sbcToPpu = some (.link a c, rest) → s.ppu.view g a = some v → v.segment = g → v.address = a →
    ∃ t, Runs (.panelLinkChange g) s t ∧ t.book.mail.sbcToPpu = rest ∧ t.ppu.pages = s.ppu.pages ∧
      (∀ n, c = .online n → ∃ v', t.ppu.view g a = some v' ∧ v'.online = true ∧ v'.session = n ∧ v'.staged = none ∧
        v'.shown = 0 ∧ ∀ pg, s.ppu.pages.find v.room = some pg →
          v'.awaiting = true ∧ v'.lastHanded = some (pg.version, .display) ∧ PageHanded s t v .display pg) ∧
      (c = .offline → ∃ v', t.ppu.view g a = some v' ∧ v'.online = false ∧ v'.awaiting = false ∧
        v'.shown = v.shown ∧ v'.room = v.room) ∧
      (c = .removed → t.ppu.view g a = none) ∧
      (∀ room, c = .rebound room → ∃ v', t.ppu.view g a = some v' ∧ v'.online = false ∧ v'.room = room) ∧
      (c = .offline ∨ c = .removed → ∀ w ∈ t.ppu.waits, stationKey g a ∉ w.panels)) ∧
  (∀ (s : State) (g a group : Nat) (version : Half) (kind : PageKind) (v : PanelView) (rest : List (Nat × PpuReport)),
    nextOf g s.book.mail.sbcToPpu = some (.delivered a version kind group, rest) → s.ppu.view g a = some v →
    v.segment = g → v.address = a →
    ∃ t v', Runs (.pageDelivered g) s t ∧ t.book.mail.sbcToPpu = rest ∧ t.ppu.view g a = some v' ∧
      t.ppu.pages = s.ppu.pages ∧ (kind = .display → v'.shown = version) ∧
      (kind = .stage → v'.staged = some (version, group) ∧ v'.shown = v.shown) ∧
      ((∃ k, v.lastHanded = some (version, k)) → kind = .stage →
        v'.awaiting = false ∧ ∀ w ∈ t.ppu.waits, stationKey g a ∉ w.panels)) ∧
  (∀ (s : State) (g a : Nat) (v : PanelView) (rest : List (Nat × PpuReport)),
    nextOf g s.book.mail.sbcToPpu = some (.refused a, rest) → s.ppu.view g a = some v → v.segment = g → v.address = a →
    ∃ t, Runs (.pageItemRefused g) s t ∧ t.book.mail.sbcToPpu = rest ∧ t.ppu.waits = s.ppu.waits ∧
      t.ppu.view g a = some { v with awaiting := false }) ∧
  (∀ (s : State) (g a : Nat) (n : BitVec 8) (version : Half) (v : PanelView) (rest : List (Nat × PpuReport)),
    nextOf g s.book.mail.sbcToPpu = some (.shown a n version, rest) → s.ppu.view g a = some v → v.segment = g →
    v.address = a →
    ∃ t, Runs (.shownVersionReport g) s t ∧ t.book.mail.sbcToPpu = rest ∧
      (v.session ≠ n ∨ v.shown = version ∨ v.awaiting = true →
        t.ppu = s.ppu ∧ t.book.mail.ppuToSbc = s.book.mail.ppuToSbc) ∧
      (v.session = n → v.shown ≠ version → v.awaiting = false → v.online = true →
        ∀ pg, s.ppu.pages.find v.room = some pg →
          PageHanded s t v .display pg ∧
            t.ppu.view g a =
              some { v with shown := version, awaiting := true, lastHanded := some (pg.version, .display) }))

/-- R125, R126: a panel event goes to the BKE or to the CSC; its outcome comes back as a RESULT for the panel that sent
it, with PANEL_ACTION where it was accepted, and WALKUP behind it for a walk-up; a RESULT that was not sent needs no
further step. That PANEL_ACTION's room code is read in the BKE's directory (log 23) and which id it and the RESULT carry
(log 34) are the model's choices. -/
def Obligations.PanelEventsAreRelayedAndAnswered : Prop :=
  (∀ (s : State) (g a room : Nat) (n : BitVec 8) (e : StationEvent) (rest : List (Nat × PpuReport)),
    nextOf g s.book.mail.sbcToPpu = some (.event a n room e, rest) →
    let claim : PanelClaim := { segment := g, address := a, session := n, room := room, event := e }
    ∃ t, Runs (.panelEvent g) s t ∧ t.book.mail.sbcToPpu = rest ∧ t.ppu = s.ppu ∧
      ((∃ k, e = .checkIn k) ∨ (∃ k, e = .walkup k) ∨ e = .endMeeting ∨ e = .extend →
        t.book.mail.ppuToBke = s.book.mail.ppuToBke ++ [claim] ∧
          t.book.mail.ppuToCsc = s.book.mail.ppuToCsc) ∧
      (∀ id, e = .cartArrived id →
        t.book.mail.ppuToCsc = s.book.mail.ppuToCsc ++ [claim] ∧
          t.book.mail.ppuToBke = s.book.mail.ppuToBke)) ∧
  (∀ (s : State) (source : OutcomeSource) (a : PanelAnswer) (rest : List PanelAnswer),
    (source = .bke ∧ s.book.mail.bkeToPanel = a :: rest) ∨ (source = .csc ∧ s.book.mail.cscToPanel = a :: rest) →
    ∃ t r, Runs (.panelOutcome source) s t ∧ t.ppu = s.ppu ∧ r.status = a.status ∧ r.detail = a.detail ∧
      r.event = eventKindOf a.claim.event ∧
      r.booking = (if eventKindOf a.claim.event = .cartArrived then none else a.subject) ∧
      (source = .bke → t.book.mail.bkeToPanel = rest) ∧ (source = .csc → t.book.mail.cscToPanel = rest) ∧
      t.book.mail.ppuToSbc =
        s.book.mail.ppuToSbc ++ [.result a.claim.segment a.claim.address a.claim.session r] ∧
      (a.status ≠ .ok → t.book.hmp = s.book.hmp) ∧
      (a.status = .ok →
        let told :=
          s.book.hmp.post
            (.panelAction
              { segment := a.claim.segment, address := a.claim.address, room := a.claim.room
                code := s.book.code a.claim.room, event := a.claim.event, status := a.status, detail := a.detail
                subject := a.subject, span := a.placed.map fun x => (x.start, x.count) })
        (∀ k x, a.claim.event = .walkup k → a.placed = some x →
          t.book.hmp =
            told.post (.walkup x.id x.room x.code x.start x.count x.bufSlots a.claim.segment a.claim.address)) ∧
          ((∀ k, a.claim.event ≠ .walkup k) → t.book.hmp = told))) ∧
  (∀ (s : State) (g a : Nat) (rest : List (Nat × PpuReport)),
    nextOf g s.book.mail.sbcToPpu = some (.unsent a, rest) →
    ∃ t, Runs (.resultNotSent g) s t ∧ t.ppu = s.ppu ∧ t.book = s.book.withMail { s.book.mail with sbcToPpu := rest })

/-- R127: READ_PAGE changes nothing: an index above 383 is BAD_REQUEST, an unconfigured room NOT_FOUND/ROOM, and else it
is answered OK in either clock state with the page, its group's mode and flag, the dark-period mark and the room's
panels. -/
def Obligations.ReadPageAnswers : Prop :=
  ∀ (s : State) (c : Ctx) (x : Nat) (rest : List Handed), Asks s c (.readPage x) rest →
    ∃ t, Runs .readPage s t ∧ OnlyReads s t rest ∧
      (383 < x → Replied s t c (Answer.of .badRequest)) ∧
      (x ≤ 383 → s.ppu.rooms.find x = none → Replied s t c (Answer.because .notFound .room)) ∧
      (x ≤ 383 → ∀ rm pg, s.ppu.rooms.find x = some rm → s.ppu.pages.find x = some pg →
        Replied s t c
          (Answer.ok
            (.page x pg (s.ppu.isLatched rm.group) (s.ppu.isDark rm.group) s.ppu.darkPeriod
              ((s.ppu.views.values.filter fun v => v.room == x).map fun v =>
                { segment := v.segment, address := v.address, online := v.online, session := v.session
                  lastHanded := v.lastHanded, awaiting := v.awaiting, staged := v.staged.map (·.1)
                  shown := v.shown }))))


/-! ## Turnover sequences (09) -/

/-- R160, R164: the SQU's time events and check-in reports: it keeps its horizon and minute, drops the runs of a retired
date, and a first check-in report fixes a run's check-in minute and places its WAITING steps. R156: a placed step takes
its due minute and its mark as the rule says, and a late step makes its run owe a catch-up. R161: the retime of a run
that is not DONE sets its end minute and places its DUE END steps anew, and no other. R163: an abort takes the run from
the table, and its catch-up with it. That day open leaves the minute as it is, so that a step placed before the event
for minute 0 is late, is the model's choice (log 113). -/
def Obligations.SequenceUnitTakesItsEvents : Prop :=
  (∀ (s : State) (e : TimeEvent) (w : Weekday) (m : Nat) (slot : CurSlot) (rest : List TimeEvent),
    s.book.mail.squEvents = e :: rest → e.kind = .horizonOpen w m slot →
    ∃ t, Runs .squHorizonOpen s t ∧ t.book.mail.squEvents = rest ∧
      t.book.squ =
        { s.book.squ with horizon := some { today := e.date, weekday := w }, minute := some m }) ∧
  (∀ (s : State) (e : TimeEvent) (rest : List TimeEvent),
    s.book.mail.squEvents = e :: rest → e.kind = .dayRetire → s.book.squ.runs.wf = true →
    (∀ k r, s.book.squ.runs.find k = some r → r.id = k) →
    ∃ t, Runs .squDayRetire s t ∧ t.book.mail.squEvents = rest ∧
      ∀ k r, t.book.squ.runs.find k = some r ↔ s.book.squ.runs.find k = some r ∧ r.date ≠ e.date) ∧
  (∀ (s : State) (e : TimeEvent) (d : Date) (w : Weekday) (rest : List TimeEvent),
    s.book.mail.squEvents = e :: rest → e.kind = .dayOpen d w →
    ∃ t, Runs .squDayOpen s t ∧ t.book.mail.squEvents = rest ∧
      t.book.squ = { s.book.squ with horizon := some { today := e.date, weekday := w.next } }) ∧
  (∀ (s : State) (c : CheckinReport) (rest : List CheckinReport) (r : Run),
    s.book.mail.bkeToSqu = c :: rest → s.book.squ.runFor c.booking c.run = some r →
    s.book.squ.runs.find r.id = some r →
    ∃ t, Runs .squCheckinReport s t ∧ t.book.mail.bkeToSqu = rest ∧
      (r.state = .done ∨ r.fromCheckin = false ∨ r.checkinMinute ≠ none → t.book.squ = s.book.squ) ∧
      (r.state ≠ .done → r.fromCheckin = true → r.checkinMinute = none →
        ∃ l, RunBecomes s.book.squ t.book.squ r.id { r with checkinMinute := some c.minute, steps := l } ∧
          t.book.squ.lastRun = s.book.squ.lastRun ∧
          Pairs
            (fun x y =>
              (x.mark = .waiting → StepPlaced s.book.squ r.date c.minute x y) ∧ (x.mark ≠ .waiting → y = x))
            r.steps l)) ∧
  (∀ (q : Squ) (b : Record) (start count : Nat), RunsKeyed q →
    ((∀ r, ¬IsOwnRun q b r) → q.retime b start count = q ∧ q.abort b = q) ∧
      ∀ r, IsOwnRun q b r →
        (r.state = .done → q.retime b start count = q) ∧
          (r.state ≠ .done → RunRetimed q (q.retime b start count) r (360 + 15 * (start + count))) ∧
          RunGone q (q.abort b) r.id)

/-- R156 to R158: a step fires at its minute, once, and hands its action to the PPU, the CSC, the BKE or the host; a
minute event leaves no due step of its date unfired, and completes the runs with nothing left. The steps of a minute fire
by rising due minute, then run id, then step number. A catch-up fires the late steps of its run, in step order, and hands
the action of each. That one STEP_FIRING fires one step (log 8), that RUN_STEP's room code is the one in the BKE's directory
(log 23), and that of several runs the one that came first to owe a catch-up is taken first (log 79) are the model's
choices. -/
def Obligations.StepsFireAtTheirMinutes : Prop :=
  (∀ (s : State) (d : Date) (m due id n : Nat) (l : List (Nat × Nat × Nat)) (r : Run) (x : RunStep),
    s.book.mail.squMinuteEvent = some (d, m) → s.book.squ.catchUps = [] →
    s.book.squ.firing d m = (due, id, n) :: l → s.book.squ.runs.find id = some r → r.id = id → 1 ≤ n →
    r.steps[n - 1]? = some x →
    ∃ t r', Runs .stepFiring s t ∧ t.book.squ.runs.find id = some r' ∧ t.book.mail.squEvents = s.book.mail.squEvents ∧
      r'.steps[n - 1]? = some { x with mark := .fired, firedAt := some m } ∧
      r'.state = (if r.state = .armed then .running else r.state) ∧ t.book.squ.minute = some m ∧
      (∀ k, x.step.action = .showOverlay k →
        t.book.mail.squToPpu = s.book.mail.squToPpu ++ [.overlay r.room k]) ∧
      (x.step.action = .clearOverlay → t.book.mail.squToPpu = s.book.mail.squToPpu ++ [.clearOverlay r.room]) ∧
      (x.step.action = .latch → t.book.mail.squToPpu = s.book.mail.squToPpu ++ [.latch r.room]) ∧
      (x.step.action = .pickupCall → t.book.mail.squToCsc = s.book.mail.squToCsc ++ [r.booking]) ∧
      (x.step.action = .releaseBuffer → t.book.mail.squToBke = s.book.mail.squToBke ++ [r.booking]) ∧
      (∀ k, x.step.action = .notify k →
        t.book.hmp =
          s.book.hmp.post
            (.runStep id r.booking r.room (s.book.code r.room) r.date n k x.step.anchor x.step.offset (x.due.getD 0) m
              false))) ∧
  (∀ (s : State) (e : TimeEvent) (m : Nat) (rest : List TimeEvent),
    s.book.mail.squEvents = e :: rest → e.kind = .minute m →
    (∀ k r, s.book.squ.runs.find k = some r → r.id = k) →
    ∃ t, Runs .squMinute s t ∧ t.book.mail.squEvents = rest ∧ t.book.squ.minute = some m ∧
      ∀ k r, t.book.squ.runs.find k = some r → r.date = e.date →
        (∀ x ∈ r.steps, ∀ j, x.mark = .due → x.due = some j → m < j) ∧
        (r.endMinute ≤ m → ∀ x ∈ r.steps, x.mark ≠ .waiting) ∧
        (r.state = .armed ∨ r.state = .running → ∃ x ∈ r.steps, x.mark = .due ∨ x.mark = .waiting)) ∧
  (∀ (s : State) (h : Horizon) (m id : Nat) (l : List Nat) (r : Run),
    s.book.squ.catchUps = id :: l → s.book.squ.runs.find id = some r → r.id = id → s.book.squ.minute = some m →
    s.book.squ.horizon = some h → h.today = r.date →
    ∃ t r', Runs .catchUp s t ∧ id ∉ t.book.squ.catchUps ∧ t.book.squ.minute = some m ∧
      t.book.squ.runs.find id = some r' ∧ (∀ x ∈ r'.steps, ∀ j, x.mark = .due → x.due = some j → m < j) ∧
      t.book.mail.squEvents = s.book.mail.squEvents ∧
      (∀ (k : Nat) (x : RunStep), r.steps[k]? = some x →
        r'.steps[k]? =
          some
            (if x.mark = .due ∧ x.due.any (fun j => decide (j ≤ m)) = true then
              { x with mark := .fired, firedAt := some m }
            else x)) ∧
      r'.state = (if r.state = .armed ∧ lateSteps r m ≠ [] then .running else r.state) ∧
      let late := lateSteps r m
      t.book.mail.squToPpu = s.book.mail.squToPpu ++ late.filterMap (fun p => toPage r.room p.1) ∧
        t.book.mail.squToCsc =
          s.book.mail.squToCsc ++ (late.filter fun p => p.1.step.action == .pickupCall).map (fun _ => r.booking) ∧
        t.book.mail.squToBke =
          s.book.mail.squToBke ++ (late.filter fun p => p.1.step.action == .releaseBuffer).map (fun _ => r.booking) ∧
        t.book.hmp = (late.filterMap (lateNotice r (s.book.code r.room) m)).foldl Hmp.post s.book.hmp) ∧
  (∀ (q : Squ) (d : Date) (m : Nat), (∀ r ∈ q.runs.values, r.id ≤ 511 ∧ r.steps.length ≤ 31) →
    (∀ due id n, (due, id, n) ∈ q.firing d m ↔
      ∃ r ∈ q.runs.values, r.date = d ∧ r.id = id ∧ 1 ≤ n ∧
        ∃ x, r.steps[n - 1]? = some x ∧ x.mark = .due ∧ x.due = some due ∧ due ≤ m) ∧
    (q.firing d m).Pairwise fun x y =>
      x.1 < y.1 ∨ x.1 = y.1 ∧ (x.2.1 < y.2.1 ∨ x.2.1 = y.2.1 ∧ x.2.2 ≤ y.2.2))

/-! ## The store (10) -/

/-- R168: a read corrects the words of an item with a single-bit error, counts them, and changes nothing else. R167,
R170: the patrol does so with the item at its position; an uncorrectable one it counts and reports to the BKE, which
alone acts on it, but a draft row or record that is already known is neither counted nor reported again. That this
holds of the record with its index entry, and not of a live row, is the model's reading (log 12). R169 to R171: the
patrol advances by one item and counts a pass at its end; an uncorrectable row that is reported starts a rebuild, and
an uncorrectable record becomes DAMAGED. That one whose id the draft lists hold keeps that id, and that its id, order
and run are kept for a forget, are the model's choices (logs 58 and 78). The upsets of a patrol item are the command's
operand (log 11); a stale report is disregarded (log 12). That READ_ROW's BUSY/REBUILDING over a row which its own
read finds lost names the room and its code is the model's choice (log 82). -/
def Obligations.PatrolAdvancesAndDamageIsTaken : Prop :=
  (∀ (s : State) (l : List Upset), ∃ t, Runs (.patrolItem l) s t ∧ t.book.bke = s.book.bke ∧
    t.book.hmp = s.book.hmp ∧
    (s.book.bss.position + 1 < 9472 →
      t.book.bss.position = s.book.bss.position + 1 ∧ t.book.bss.passes = s.book.bss.passes) ∧
    (9472 ≤ s.book.bss.position + 1 →
      t.book.bss.position = 0 ∧ t.book.bss.passes = bump 65535 s.book.bss.passes) ∧
    (StoreSound s.book →
      t.book.bss.corrected = s.book.bss.corrected ∧ t.book.bss.uncorrectable = s.book.bss.uncorrectable ∧
        t.book.mail.bssToBke = s.book.mail.bssToBke)) ∧
  (∀ (s : State) (x : StoreReport) (rest : List StoreReport), s.book.mail.bssToBke = x :: rest →
    ∃ t, Runs .storeErrorReport s t ∧ t.book.mail.bssToBke = rest ∧
      (s.book.bss.errorOf x.item = none → t.book.bke = s.book.bke ∧ t.book.hmp = s.book.hmp) ∧
      (∀ room d e r, x.item = .liveRow room d → s.book.bss.errorOf x.item = some e → e.hard = true →
        s.book.row room d = some r → r.room = room → r.date = d →
        t.book.row room d = some { r with state := .rebuilding } ∧ t.book.bke.records = s.book.bke.records) ∧
      (∀ n e r, x.item = .record n → s.book.bss.errorOf x.item = some e → e.hard = true →
        s.book.slot n = some (.sound r) →
        let listed := r.id ∈ s.book.bke.draft.records ∨ r.id ∈ s.book.bke.draft.marked
        ∃ y, t.book.slot n = some (.damaged y) ∧ y.id = some r.id ∧ y.place = some (r.room, r.date) ∧
          y.own = r.id ∧ y.run = r.run ∧
          (listed → y.listed = some r.id ∧ t.book.bke.draft.damaged = true) ∧
          (¬listed → y.listed = none ∧ t.book.bke.draft = s.book.bke.draft))) ∧
  (∀ (s : State) (l : List Upset) (i : StoreItem) (e : ItemErr),
    PatrolReads s.book i → SoundBut s.book i → s.book.bss.errorOf i = some e →
    ∃ t, Runs (.patrolItem l) s t ∧ t.book.bke = s.book.bke ∧ t.book.hmp = s.book.hmp ∧
      t.book.bss.corrected = min 4294967295 (s.book.bss.corrected + e.soft) ∧
      let untold : Prop :=
        t.book.bss.uncorrectable = s.book.bss.uncorrectable ∧ t.book.mail.bssToBke = s.book.mail.bssToBke
      (e.hard = false → untold ∧ (l = [] → t.book.bss.errorOf i = none)) ∧
      (e.hard = true → l = [] → ∃ x, t.book.bss.errorOf i = some x ∧ x.hard = true ∧ x.soft = 0) ∧
      (e.hard = true → e.known = false →
        t.book.bss.uncorrectable = bump 65535 s.book.bss.uncorrectable ∧
          t.book.mail.bssToBke = s.book.mail.bssToBke ++ [{ item := i }]) ∧
      (e.hard = true → e.known = true → (∀ room d, i ≠ .liveRow room d) → untold)) ∧
  (∀ (s : State) (c : Ctx) (n : Nat) (r : Record) (i : StoreItem) (e : ItemErr) (rest : List Handed),
    Asks s c (.readBooking r.id) rest → s.book.bke.horizon ≠ none → r.id ≠ 0 → HoldsLive s.book n r →
    i = .record n ∨ i = .index n → s.book.bss.errorOf i = some e → e.hard = false → SoundBut s.book i →
    ∃ t, Runs .readBooking s t ∧ t.book.bke = s.book.bke ∧
      Replied s t c (Answer.ok (.booking r (s.book.code r.room))) ∧ t.book.bss.errorOf i = none ∧
      t.book.bss.corrected = min 4294967295 (s.book.bss.corrected + e.soft) ∧
      t.book.bss.uncorrectable = s.book.bss.uncorrectable) ∧
  (∀ (s : State) (c : Ctx) (room : Nat) (d : Date) (rm : Room) (r : Row) (e : ItemErr) (rest : List Handed),
    Asks s c (.readRow room d none) rest → s.book.bke.horizon ≠ none → (s.book.offset d).isSome = true → room ≤ 383 →
    s.book.room room = some rm → s.book.row room d = some r → s.book.bke.readEdition = .live →
    s.book.bss.errorOf (.liveRow room d) = some e → SoundBut s.book (.liveRow room d) →
    ∃ t, Runs .readRow s t ∧ t.book.bss.corrected = min 4294967295 (s.book.bss.corrected + e.soft) ∧
      (e.hard = false →
        t.book.bke = s.book.bke ∧ t.book.bss.errorOf (.liveRow room d) = none ∧
          t.book.bss.uncorrectable = s.book.bss.uncorrectable) ∧
      (e.hard = true → e.known = false → r.room = room → r.date = d →
        t.book.row room d = some { r with state := .rebuilding } ∧
          t.book.bss.uncorrectable = bump 65535 s.book.bss.uncorrectable ∧
          RepliedAfter s t c { status := .busy, detail := .rebuilding, data := .room room (s.book.code room) }))

/-- R173, R175, R176: a rebuild derives the row from its records, each cell as R19 and R20 state, raises its version and
answers the requests that wait; REBUILD_ROW starts one and waits; FORGET_BOOKING, by booking id or by record slot,
removes a DAMAGED record, hands the forget to the CSC and the SQU and starts the rebuilds of R176 step 4, and refuses a
SOUND one. Model's choices: the SQU takes the forget inside the claim (log 61); a record of the draft lists whose id was
lost is known by its listed id (log 58); a record whose id was lost is forgotten with its own id and run, and its order
is found by that id (logs 67 and 78). -/
def Obligations.RebuildsAndForgets : Prop :=
  (∀ (s : State) (room : Nat) (d : Date) (r : Row),
    s.book.row room d = some r → r.room = room → r.date = d → r.state = .rebuilding → StoreSound s.book →
    ∃ t r', Runs (.rebuildCompletion room d) s t ∧ t.book.row room d = some r' ∧ r'.room = room ∧ r'.date = d ∧
      r'.cells = s.book.derivedCells room d ∧ r'.cells.length = 64 ∧ r'.version = r.version + 1 ∧
      (∀ k, k < 64 →
        ((∀ q c, WritesRow s.book room d q → ¬WritesCell q room k c) → cellAt r'.cells k = .free) ∧
          ∀ q c, WritesRow s.book room d q → WritesCell q room k c →
            (∀ q' c', WritesRow s.book room d q' → WritesCell q' room k c' → c' = c) → cellAt r'.cells k = c) ∧
      (s.book.countedDamage room d = [] → r'.state = .good) ∧
      (s.book.countedDamage room d ≠ [] → r'.state = .quarantined) ∧
      t.book.bke.records = s.book.bke.records ∧
      (∀ w, w ∈ t.book.bke.waiters ↔ w ∈ s.book.bke.waiters ∧ ¬(w.room = room ∧ w.date = d)) ∧
      (∀ w, s.book.bke.waiters = [w] → w.room = room → w.date = d →
        RepliedAfter s t w.ctx
          (Answer.ok
            (.rebuilt room (s.book.code room) d r'.state r'.version (s.book.countedDamage room d).length)))) ∧
  (∀ (s : State) (c : Ctx) (room : Nat) (d : Date) (rm : Room) (r : Row) (rest : List Handed),
    Asks s c (.rebuildRow room d) rest → s.book.bke.horizon ≠ none → room ≤ 383 → (s.book.offset d).isSome = true →
    s.book.room room = some rm → s.book.row room d = some r → r.room = room → r.date = d →
    ∃ t, Runs .rebuildRow s t ∧ t.book.mail.requests = rest ∧
      t.book.row room d = some { r with state := .rebuilding } ∧
      t.book.bke.waiters = s.book.bke.waiters ++ [{ ctx := c, room := room, date := d }] ∧
      (r.state = .rebuilding → t.book.hmp = s.book.hmp)) ∧
  (∀ (s : State) (c : Ctx) (id n : Nat) (x : RecSlot) (rest : List Handed),
    Asks s c (.forgetBooking (some id) none) rest → 1 ≤ id → id ≤ 65535 → s.book.slotOf id = some n →
    s.book.slot n = some x → s.book.bke.records.wf = true → RowsKeyed s.book →
    ∃ t, Runs .forgetBooking s t ∧ t.book.mail.requests = rest ∧
      (∀ r, x = .sound r → t.book.bke = s.book.bke ∧ Replied s t c (Answer.because .refused .sound)) ∧
      (∀ y, x = .damaged y → y.known = some id ∧ Forgotten s t c n y)) ∧
  (∀ (s : State) (c : Ctx) (n : Nat) (rest : List Handed),
    Asks s c (.forgetBooking none (some n)) rest → n ≤ 4095 → RowsKeyed s.book →
    ∃ t, Runs .forgetBooking s t ∧ t.book.mail.requests = rest ∧
      (s.book.slot n = none → t.book.bke = s.book.bke ∧ Replied s t c (Answer.of .notFound)) ∧
      (∀ r, s.book.slot n = some (.sound r) →
        t.book.bke = s.book.bke ∧ Replied s t c (Answer.because .refused .sound)) ∧
      (∀ y, s.book.slot n = some (.damaged y) → Forgotten s t c n y))

/-! ## The station bus (06) -/

/-- R104, R105: an idle segment sends a pending LATCH first, then CLEAR to a station with the clear mark, then serves
its stations in turn, then probes; a station's own work is chosen in its order; a poll falls due when its period has
run out (R98), and the probe interval is 5 s (R97), each measured from its start. R100: a page and a ticket are
started only with a credit in hand, which their first attempt takes. That a call leaves its slot with its first
attempt is the model's choice (log 71). The turn of R104 goes by rising address after the station last served,
wrapping, over the ONLINE stations that have work; that of R97 goes likewise from the probe pointer over the ABSENT
ones; a CLEAR goes to the lowest address with the mark. -/
def Obligations.ArbiterChoosesInOrder : Prop :=
  (∀ (s : State) (n : Nat) (g : Segment), s.sbc.seg n = some g → g.inFlight = none →
    ∃ t g', Runs (.arbiterChoose n) s t ∧ t.sbc.seg n = some g' ∧ (∀ k, k ≠ n → t.sbc.seg k = s.sbc.seg k) ∧
      (g.mask ≠ [] →
        g'.inFlight = some { address := 0, work := .latch g.mask, attempt := 1, sequence := false } ∧ g'.mask = [] ∧
          t.sbc.stations = s.sbc.stations ∧
          t.book.mail.sbcToPpu =
            s.book.mail.sbcToPpu ++
              [(n, .broadcast g.mask
                (((s.sbc.onSegment n).filter fun x => x.type == .panel && x.state == .online).map fun x =>
                  (x.address, x.session)))]) ∧
      (g.mask = [] → ∀ x, (s.sbc.onSegment n).find? (fun y => y.clearMark) = some x →
        g'.inFlight = some { address := x.address, work := .clear, attempt := 1, sequence := false } ∧
          t.sbc.station x.segment x.address = some { x with clearMark := false } ∧ t.book = s.book) ∧
      (g.mask = [] → (s.sbc.onSegment n).find? (fun y => y.clearMark) = none →
        (∀ x w, s.sbc.roundRobin n g = some (x, w) →
          g'.inFlight = some { address := x.address, work := w, attempt := 1, sequence := x.sequence } ∧
            g'.lastServed = some x.address ∧
            t.book = s.book ∧
            ∃ y, t.sbc.station x.segment x.address = some y ∧
              (∀ i, w = .page i → 0 < x.credits ∧ y = { x with pageSlot := none, credits := x.credits - 1 }) ∧
              (∀ k, w = .ticket k → 0 < x.credits ∧ y = { x with ticketSlot := none, credits := x.credits - 1 }) ∧
              (∀ k, w = .call k → y = { x with callSlot := none }) ∧
              (w = .poll → y = { x with pollStart := some s.ctu.elapsed, pollDue := false }) ∧
              (∀ i, w = .result i → y = x)) ∧
        (s.sbc.roundRobin n g = none → ∀ x, s.sbc.probeNext n g = some x →
          g'.inFlight = some { address := x.address, work := .probe, attempt := 1, sequence := false } ∧
            g'.pointer = some x.address ∧ g'.probeReady = false ∧ g'.probeSent = some s.ctu.elapsed ∧
            t.sbc.stations = s.sbc.stations) ∧
        (s.sbc.roundRobin n g = none → s.sbc.probeNext n g = none → t.sbc = s.sbc))) ∧
  (∀ (x : Station),
    (x.type = .panel → ∀ r l, x.results = r :: l → x.choice = some (.result r)) ∧
      (x.type = .panel → x.results = [] → ∀ p, x.pageSlot = some p → 0 < x.credits → x.choice = some (.page p)) ∧
      (x.type = .panel → x.results = [] → x.pageSlot = none ∨ x.credits = 0 →
        (x.choice = some .poll ↔ x.pollDue = true ∧ x.resultsAwaited = 0)) ∧
      (x.type = .terminal → ∀ c, x.callSlot = some c → x.choice = some (.call c)) ∧
      (x.type = .terminal → x.callSlot = none → ∀ k, x.ticketSlot = some k → 0 < x.credits →
        x.choice = some (.ticket k)) ∧
      (x.type = .terminal → x.callSlot = none → x.ticketSlot = none ∨ x.credits = 0 →
        (x.choice = some .poll ↔ x.pollDue = true))) ∧
  (∀ (x : Sbc) (n : Nat) (g : Segment), StationsKeyed x →
    (∀ y w, x.roundRobin n g = some (y, w) ↔
      FirstInTurn x n g.lastServed (fun z => z.state = .online ∧ z.choice ≠ none) y ∧ y.choice = some w) ∧
    (x.roundRobin n g = none ↔
      ∀ y, x.station n y.address = some y → y.segment = n → y.state = .online → y.choice = none) ∧
    (∀ y, x.probeNext n g = some y ↔
      g.probeReady = true ∧ FirstInTurn x n g.pointer (fun z => z.state = .absent) y) ∧
    ∀ y, (x.onSegment n).find? (fun z => z.clearMark) = some y ↔
      FirstInTurn x n none (fun z => z.clearMark = true) y) ∧
  (∀ (s : State) (n : Nat) (g : Segment) (f : Transaction), s.sbc.seg n = some g → g.inFlight = some f →
    f.work = .clear ∨ (∃ l, f.work = .latch l) →
    ∃ t, Runs (.frameSent n) s t ∧ t.sbc.seg n = some { g with inFlight := none } ∧ t.book = s.book ∧
      t.sbc.stations = s.sbc.stations) ∧
  (∀ (s : State) (n a : Nat) (x : Station), s.sbc.station n a = some x → x.segment = n → x.address = a →
    x.state = .online →
    ∃ t, Runs (.pollDue n a) s t ∧ t.book = s.book ∧
      (∀ k, x.pollStart = some k →
        (k + s.sbc.pollPeriod * 32768 ≤ s.ctu.elapsed → t.sbc.station n a = some { x with pollDue := true }) ∧
        (s.ctu.elapsed < k + s.sbc.pollPeriod * 32768 → t.sbc = s.sbc))) ∧
  (∀ (s : State) (n : Nat) (g : Segment), s.sbc.seg n = some g →
    ∃ t, Runs (.probeIntervalExpiry n) s t ∧ t.sbc.stations = s.sbc.stations ∧ t.book = s.book ∧
      (∀ k, g.probeSent = some k →
        (k + 5 * 32768 ≤ s.ctu.elapsed → t.sbc.seg n = some { g with probeReady := true }) ∧
        (s.ctu.elapsed < k + 5 * 32768 → t.sbc = s.sbc)))

/-- R95 to R99: a valid answer ends the attempt with its effect: a POLL_ANSWER returns its credits, never more than are
outstanding (R100), and hands the shown version and each event to the station's owner in the order listed; the ACK of a
page, a ticket or a call tells its owner that it was delivered. An invalid one, or none within the wait, fails it: up to
three failures the frame is sent again, and the fourth faults the station; a PROBE is sent once (R97). A frame that is
not whole, or whose check differs, is as not received (R92) and the wait goes on, while an answer that is received and
not valid fails the attempt at once: the model's reading (log 16). The reading of an answer's body is the command's
operand (log 4). A faulted station loses its credits, results awaited, slots and lists; its tickets and calls, in flight
and in the slot, go back to the CSC, and its owner is told. Model's choices: a call leaves its slot with its first
attempt, so that its delivery leaves the slot alone (log 71); the order in which tickets and calls go back and the owner
is told, and that at an ACK the delivery is told before the free slot (log 106); a ticket is named by its order's id and
serial number (log 42). STATION_STATE carries the room code (log 93). -/
def Obligations.AttemptsSucceedOrFault : Prop :=
  (∀ (s : State) (n : Nat) (l : List Byte) (body : AnswerBody) (g : Segment) (f : Transaction) (k : FrameKind)
    (x : Station),
    s.sbc.seg n = some g → g.inFlight = some f → f.work.awaited = some k → s.sbc.station n f.address = some x →
    x.segment = n → x.address = f.address → frameReceived l = true → frameAnswers l f k = true →
    bodyValid x l k body = true →
    ∃ t y, Runs (.stationAnswer n l body) s t ∧ t.sbc.seg n = some { g with inFlight := none } ∧
      t.sbc.station n f.address = some y ∧
      (∀ type credits, body = .probe type credits → type = x.type → creditsInRange x.type credits = true →
        y.state = .online ∧ y.credits = credits ∧ y.advertised = credits ∧ y.session = x.session + 1 ∧
          y.sequence = false ∧ y.failures = 0 ∧
          t.book.hmp =
            s.book.hmp.post
              (.stationState n f.address x.type x.binding (s.book.stationCode x) x.state (some .online) .found x.faults
                none none)) ∧
      (∀ type credits, body = .probe type credits → ¬(type = x.type ∧ creditsInRange x.type credits = true) →
        y = { x with state := .mismatch, cause := some .mismatch }) ∧
      (∀ credits shown events, body = .poll credits shown events →
        y.credits = x.credits + credits ∧ y.failures = 0 ∧ y.sequence = !x.sequence ∧
          y.advertised = x.advertised ∧ (x.credits ≤ x.advertised → y.credits ≤ y.advertised) ∧
          (∀ c, s.ctu.clock = some c → y.lastPoll = some c.minute) ∧ (s.ctu.clock = none → y.lastPoll = x.lastPoll) ∧
          (x.type = .panel →
            y.shown = BitVec.ofNat 16 shown ∧ y.resultsAwaited = x.resultsAwaited + events.length ∧
              t.book.mail.sbcToCsc = s.book.mail.sbcToCsc ∧
              t.book.mail.sbcToPpu =
                s.book.mail.sbcToPpu ++
                  (n, .shown f.address x.session (BitVec.ofNat 16 shown)) ::
                    events.map fun e => (n, .event f.address x.session x.binding e)) ∧
          (x.type = .terminal →
            y.shown = x.shown ∧ y.resultsAwaited = x.resultsAwaited ∧ t.book.mail.sbcToPpu = s.book.mail.sbcToPpu ∧
              t.book.mail.sbcToCsc =
                s.book.mail.sbcToCsc ++ events.map fun e => (n, .event x.binding f.address x.session e))) ∧
      (∀ i, body = .ack → f.work = .page i →
        y.delivered = (i.version, some i.kind) ∧ y.sequence = !x.sequence ∧
          t.book.mail.sbcToPpu =
            s.book.mail.sbcToPpu ++ [(n, .delivered f.address i.version i.kind i.content.group)]) ∧
      (∀ i, body = .ack → f.work = .result i → y.results = x.results.drop 1) ∧
      (∀ i, body = .ack → f.work = .ticket i →
        t.book.mail.sbcToCsc =
          s.book.mail.sbcToCsc ++ [(n, .ticketDelivered x.binding i.order i.serial), (n, .slotFree x.binding true)]) ∧
      (∀ c, body = .ack → f.work = .call c →
        y = x.succeeded ∧
          t.book.mail.sbcToCsc =
            s.book.mail.sbcToCsc ++ [(n, .callDelivered x.binding c), (n, .slotFree x.binding false)])) ∧
  (∀ (s : State) (n : Nat) (g : Segment) (f : Transaction) (x : Station),
    s.sbc.seg n = some g → g.inFlight = some f → f.work.awaited.isSome = true → f.work ≠ .probe →
    s.sbc.station n f.address = some x → x.segment = n → x.address = f.address →
    ∃ t, Runs (.replyWaitExpiry n) s t ∧
      (x.failures < 3 →
        t.sbc.station n f.address = some { x with failures := x.failures + 1 } ∧
          t.sbc.seg n = some { g with inFlight := some { f with attempt := f.attempt + 1 } } ∧ t.book = s.book) ∧
      (3 ≤ x.failures → Faulted s t n g f x)) ∧
  (∀ (s : State) (n : Nat) (l : List Byte) (body : AnswerBody) (g : Segment) (f : Transaction) (k : FrameKind)
    (x : Station),
    s.sbc.seg n = some g → g.inFlight = some f → f.work.awaited = some k → f.work ≠ .probe →
    s.sbc.station n f.address = some x → x.segment = n → x.address = f.address → x.failures < 3 →
    frameReceived l = true → (frameAnswers l f k && bodyValid x l k body) = false →
    ∃ t, Runs (.stationAnswer n l body) s t ∧ t.book = s.book ∧
      t.sbc.station n f.address = some { x with failures := x.failures + 1 } ∧
      t.sbc.seg n = some { g with inFlight := some { f with attempt := f.attempt + 1 } }) ∧
  (∀ (s : State) (n : Nat) (l : List Byte) (body : AnswerBody) (g : Segment) (f : Transaction) (k : FrameKind)
    (x : Station),
    s.sbc.seg n = some g → g.inFlight = some f → f.work.awaited = some k → f.work ≠ .probe →
    s.sbc.station n f.address = some x → x.segment = n → x.address = f.address → 3 ≤ x.failures →
    frameReceived l = true → (frameAnswers l f k && bodyValid x l k body) = false →
    ∃ t, Runs (.stationAnswer n l body) s t ∧ Faulted s t n g f x) ∧
  (∀ (s : State) (n : Nat) (l : List Byte) (body : AnswerBody), frameReceived l = false →
    ∃ t, Runs (.stationAnswer n l body) s t ∧ t.sbc = s.sbc ∧ t.book = s.book) ∧
  (∀ (s : State) (n : Nat) (l : List Byte) (body : AnswerBody) (g : Segment) (f : Transaction) (x : Station),
    s.sbc.seg n = some g → g.inFlight = some f → f.work = .probe → s.sbc.station n f.address = some x →
    frameReceived l = true → (frameAnswers l f .probeAnswer && bodyValid x l .probeAnswer body) = false →
    ∃ t u, Runs (.replyWaitExpiry n) s t ∧ Runs (.stationAnswer n l body) s u ∧
      t.book = s.book ∧ t.sbc.stations = s.sbc.stations ∧ t.sbc.seg n = some { g with inFlight := none } ∧
      u.book = s.book ∧ u.sbc.stations = s.sbc.stations ∧ u.sbc.seg n = some { g with inFlight := none })

/-- R101 to R103, R105, R106: what the SBC takes in: pages, results, tickets, calls and latches; and RESET_STATION,
which puts a station back to ABSENT with the clear mark. TICKET_OFFER and CALL_OFFER take the head of the kitchen's list
as it stands when they are taken: the model's choice (log 21). What the station held goes back to the CSC, its owner is
told that it is ABSENT, and STATION_STATE is posted where the state changed before the reply (the order of these
hand-overs: log 106; of notice and reply: log 111; the room code: log 93; the serial number of a ticket: log 42). -/
def Obligations.StationsTakeItemsAndResets : Prop :=
  (∀ (s : State) (g a : Nat) (i : PageItem) (l : List SbcItem) (x : Station),
    s.book.mail.ppuToSbc = .page g a i :: l → s.sbc.station g a = some x → x.segment = g → x.address = a →
    ∃ t, Runs .pageItem s t ∧ t.book.mail.ppuToSbc = l ∧
      (x.state = .online → ∃ i', t.sbc.station g a = some { x with pageSlot := some i' } ∧ i'.version = i.version ∧
        i'.content = i.content ∧ (i.kind = .display → i'.kind = .display) ∧
        (x.pageSlot = none → i' = i) ∧
        (∀ o, x.pageSlot = some o → o.kind = .display → i'.kind = .display) ∧
        (∀ o, x.pageSlot = some o → o.kind ≠ .display → i'.kind = i.kind) ∧ t.book.mail.sbcToPpu = s.book.mail.sbcToPpu) ∧
      (x.state ≠ .online →
        t.sbc = s.sbc ∧ t.book.mail.sbcToPpu = s.book.mail.sbcToPpu ++ [(g, .refused a)])) ∧
  (∀ (s : State) (g a : Nat) (n : BitVec 8) (i : ResultItem) (l : List SbcItem) (x : Station),
    s.book.mail.ppuToSbc = .result g a n i :: l → s.sbc.station g a = some x → x.segment = g → x.address = a →
    ∃ t, Runs .resultItem s t ∧ t.book.mail.ppuToSbc = l ∧
      (x.state = .online → x.session = n → 0 < x.resultsAwaited →
        t.sbc.station g a =
          some { x with results := x.results ++ [i], resultsAwaited := x.resultsAwaited - 1 }) ∧
      (x.state ≠ .online ∨ x.session ≠ n ∨ x.resultsAwaited = 0 →
        t.sbc = s.sbc ∧ t.book.mail.sbcToPpu = s.book.mail.sbcToPpu ++ [(g, .unsent a)])) ∧
  (∀ (s : State) (groups : List Nat) (l : List SbcItem), s.book.mail.ppuToSbc = .latch groups :: l →
    ∃ t, Runs .latchHanded s t ∧ t.book.mail.ppuToSbc = l ∧ t.sbc.stations = s.sbc.stations ∧
      ∀ n g, s.sbc.seg n = some g → ∃ g', t.sbc.seg n = some g' ∧ g'.inFlight = g.inFlight ∧
        ∀ k, k ≤ 31 → (k ∈ g'.mask ↔ k ∈ g.mask ∨ k ∈ groups)) ∧
  (∀ (s : State) (k : Nat) (kit : Kitchen) (id : Nat) (l : List Nat) (o : Order) (x : Station),
    k ∈ s.book.mail.ticketOffers → s.book.csc.kitchen k = some kit → kit.tickets = id :: l →
    s.book.csc.orders.find id = some o → o.id = id → s.sbc.terminalOf k = some x →
    s.sbc.station x.segment x.address = some x →
    ∃ t, Runs (.ticketOffer k) s t ∧ t.book.mail.ticketOffers = s.book.mail.ticketOffers.erase k ∧
      (x.state = .online → x.ticketSlot = none →
        t.book.csc.orders.find id = some { o with ticket := .offered } ∧
          (∃ i, t.sbc.station x.segment x.address = some { x with ticketSlot := some i } ∧ i.order = id ∧
            i.serial = o.serial ∧ i.covers = o.covers ∧ i.lines = o.lines ∧ i.minute = 360 + 15 * o.slot) ∧
          ∃ kit', t.book.csc.kitchen k = some kit' ∧ id ∉ kit'.tickets) ∧
      (x.state ≠ .online ∨ x.ticketSlot ≠ none → t.sbc = s.sbc ∧ t.book.csc = s.book.csc)) ∧
  (∀ (s : State) (k : Nat) (kit : Kitchen) (c : Call) (l : List Call) (x : Station),
    k ∈ s.book.mail.callOffers → s.book.csc.kitchen k = some kit → kit.calls = c :: l →
    s.sbc.terminalOf k = some x → s.sbc.station x.segment x.address = some x →
    ∃ t, Runs (.callOffer k) s t ∧ t.book.mail.callOffers = s.book.mail.callOffers.erase k ∧
      (x.state = .online → x.callSlot = none →
        t.sbc.station x.segment x.address = some { x with callSlot := some c } ∧
          t.book.csc.kitchen k = some { kit with calls := l, callOut := some c }) ∧
      (x.state ≠ .online ∨ x.callSlot ≠ none → t.sbc = s.sbc ∧ t.book.csc = s.book.csc)) ∧
  (∀ (s : State) (c : Ctx) (g a : Nat) (x : Station) (rest : List Handed),
    takeFirst (resetReady s.sbc) s.book.mail.requests = some ({ ctx := c, request := .resetStation g a }, rest) →
    g ≤ 3 → 1 ≤ a → a ≤ 48 → s.sbc.station g a = some x → x.segment = g → x.address = a →
    ∃ t, Runs .resetStation s t ∧ t.book.mail.requests = rest ∧ t.sbc.segments = s.sbc.segments ∧
      t.sbc.station g a =
        some
          { bare x with
            state := .absent, cause := some .reset, failures := 0, delivered := (0, none), shown := 0
            clearMark := true } ∧
      (∀ k, k ≠ stationKey g a → t.sbc.stations.find k = s.sbc.stations.find k) ∧ OwnerTold s t x none .absent ∧
      (x.state = .absent → Replied s t c (Answer.ok (.stationReset g a .absent))) ∧
      (x.state ≠ .absent →
        ∃ more,
          t.book.hmp.out =
            (s.book.hmp.post
                (.stationState g a x.type x.binding (s.book.stationCode x) x.state (some .absent) .reset x.faults none
                  none)).out ++
              .reply c (Answer.ok (.stationReset g a x.state)) :: more ∧
            (c.mark ≠ .last → more = [])))


/-! ## The site configuration (12) -/

/-- R193, R195: the checks of a CONFIG_PUT in their order; a put that passes joins the tail of the staged set and is
answered OK with its index; one marked LAST validates the staged set, and the first failure discards it while success
begins the commit cycle. R87: no set begins it whose puts name a room that it removes or reshapes while that room has a draft
record or a marked record, in whatever state or condition. The set merged with is the one that is loaded (log 41), and a put's fields are well formed
where its `ok` says so (log 35): both are the model's reading. That of the puts only a STATION put takes part in
REFUSED/STATIONS is its choice (log 81). -/
def Obligations.ConfigPutStagesOrCommits : Prop :=
  ∀ (s : State) (c : Ctx) (p : PutBody) (rest : List Handed), Asks s c (.configPut p) rest →
    let put := s.book.cfs.filled p
    let staged := s.book.cfs.staged ++ [put]
    let merged := s.book.cfs.loadSet.merge staged
    let check (b : Book) : Check := { old := s.book.cfs.loadSet, new := merged, book := b }
    ∃ t, Runs .configPut s t ∧ t.book.mail.requests = rest ∧ t.book.cfs.committed = s.book.cfs.committed ∧
      (s.book.cfs.commit ≠ none → SameSite s t ∧ Replied s t c (Answer.because .busy .commit)) ∧
      (s.book.cfs.commit = none → c.mark = .last → ∀ x n y d id,
        (∃ q ∈ staged, q.key = .room x ∨ q.key = .combined x) → roomReshaped s.book.cfs.loadSet merged x = true →
        s.book.slot n = some y → y.place = some (x, d) → y.id = some id →
        id ∈ s.book.bke.draft.records ∨ id ∈ s.book.bke.draft.marked → t.book.cfs.commit = none) ∧
      (s.book.cfs.commit = none → c.mark = .sole → SameSite s t ∧ Replied s t c (Answer.because .badRequest .batch)) ∧
      (s.book.cfs.commit = none → c.mark ≠ .sole → p.ok = false →
        SameSite s t ∧ Replied s t c (Answer.because .badRequest .field)) ∧
      (s.book.cfs.commit = none → c.mark ≠ .sole → p.ok = true → (∃ q ∈ s.book.cfs.staged, q.key = p.key) →
        SameSite s t ∧ Replied s t c (Answer.because .refused .key)) ∧
      (s.book.cfs.commit = none → c.mark ≠ .sole → p.ok = true → (∀ q ∈ s.book.cfs.staged, q.key ≠ p.key) →
        (512 ≤ s.book.cfs.staged.length → SameSite s t ∧ Replied s t c (Answer.because .full .staged)) ∧
        (s.book.cfs.staged.length < 512 →
          (c.mark ≠ .last →
            t.book.cfs = { s.book.cfs with staged := staged } ∧
              Replied s t c (Answer.ok (.putIndex (s.book.cfs.staged.length + 1)))) ∧
          (c.mark = .last → ∀ a, (check s.book).firstFailure 1 staged = some a →
            SameSite s t ∧ Replied s t c a ∧ (s.book.hmp.batch = .opened → a.status ≠ .ok → t.book.cfs.staged = [])) ∧
          (c.mark = .last → (check s.book).firstFailure 1 staged = none →
            ∃ k, t.book.cfs.commit = some k ∧ k.ctx = c ∧ k.merged = merged ∧ k.puts = staged.length ∧
              k.written = false ∧ t.book.hmp = s.book.hmp ∧ t.book.bke.guard = guardedRooms s.book.cfs.loadSet merged ∧
              t.book.csc.guard = guardedKitchens s.book.cfs.loadSet merged)))

/-- R196, R197: the commit cycle: the merged set is written and the commit number raised; each block takes its new
tables whole, in any order; with every block's tables taken the guards are lifted, CONFIG_APPLIED is posted and the
LAST answered OK, with no data in it: the model's choice (log 38). R17, R87: with the new directory the rows of
removed rooms are dropped and fresh ones made for added rooms, and the RESERVED buffers and the draft rows of removed
and of reshaped rooms end; that a PART which stays a PART keeps its own is the model's reading (log 57). A changed
poll period applies to every station (R109). R109: a removed station, and one whose type or binding changed, loses its
transaction, its items, its credits and its lists; its tickets and calls go back to the CSC, its old and new owners
are told, and STATION_STATE is posted. The model's choices: the stations go by rising segment and address (log 90), a
changed station's notice has the new type and binding (log 96) and its clear mark goes (log 72), and each one's
hand-overs go in one order (log 106); the room code (log 93). -/
def Obligations.CommitCycleHandsTheTables : Prop :=
  (∀ (s : State) (k : Commit), s.book.cfs.commit = some k → k.written = false →
    ∃ t, Runs .commitWrite s t ∧ t.book.hmp = s.book.hmp ∧ t.book.bke = s.book.bke ∧
      t.book.cfs =
        { s.book.cfs with
          committed := k.merged, complete := true, commitNumber := s.book.cfs.commitNumber + 1
          commit := some { k with written := true, waiting := [.bke, .sbc, .ppu, .csc, .squ] } }) ∧
  (∀ (s : State) (k : Commit), s.book.cfs.commit = some k →
    let taken (t : State) (o : TableOwner) : Prop :=
      t.book.cfs.commit = some { k with waiting := k.waiting.erase o } ∧ t.book.cfs.committed = s.book.cfs.committed
    (.bke ∈ k.waiting → ∃ t, Runs .bkeConfigTables s t ∧ taken t .bke ∧ t.book.bke.rooms = k.merged.roomTable ∧
      t.book.bke.holdMinutes = k.merged.settings.holdMinutes ∧ t.book.bke.horizon = s.book.bke.horizon ∧
      (DirectoryReady s k.merged.roomTable → DirectoryTaken s t k.merged.roomTable)) ∧
    (.sbc ∈ k.waiting → ∃ t, Runs .sbcConfigTables s t ∧ taken t .sbc ∧
      t.sbc.pollPeriod = k.merged.settings.pollPeriod ∧
      (s.sbc.stations.wf = true → k.merged.stations.wf = true →
        (∀ n x, s.sbc.stations.find n = some x → stationKey x.segment x.address = n) →
        StationsTaken s t k.merged.stations ∧
        ∀ n, (k.merged.stations.find n = none → t.sbc.stations.find n = none) ∧
          ∀ i, k.merged.stations.find n = some i →
            (∀ x, s.sbc.stations.find n = some x → i.type = x.type → i.binding = x.binding →
              t.sbc.stations.find n =
                some (if s.sbc.pollPeriod = k.merged.settings.pollPeriod then x
                  else x.underPeriod s.ctu k.merged.settings.pollPeriod)) ∧
            (s.sbc.stations.find n = none →
              ∃ x, t.sbc.stations.find n = some x ∧ x.type = i.type ∧ x.binding = i.binding ∧ x.state = .absent ∧
                x.session = 0 ∧ x.advertised = 0 ∧ x.credits = 0 ∧ x.faults = 0 ∧ x.clearMark = false))) ∧
    (.ppu ∈ k.waiting → ∃ t, Runs .ppuConfigTables s t ∧ taken t .ppu ∧ t.ppu.rooms = k.merged.roomTable ∧
      t.ppu.groups = k.merged.groups ∧ ∀ x, t.ppu.pages.find x = none ↔ k.merged.rooms.find x = none) ∧
    (.csc ∈ k.waiting → ∃ t, Runs .cscConfigTables s t ∧ taken t .csc ∧
      (k.merged.kitchens.wf = true →
        ∀ n, (k.merged.kitchens.find n = none → t.book.csc.kitchen n = none) ∧
          ∀ i, k.merged.kitchens.find n = some i →
            ∃ kit, t.book.csc.kitchen n = some kit ∧ kit.profile = i.capacity.windows ∧ kit.cutOff = i.cutOff)) ∧
    (.squ ∈ k.waiting → ∃ t, Runs .squConfigTables s t ∧ taken t .squ ∧
      t.book.squ = { s.book.squ with templates := k.merged.templates })) ∧
  (∀ (s : State) (k : Commit), s.book.cfs.commit = some k → k.written = true → k.waiting = [] →
    ∃ t more, Runs .commitEnd s t ∧ t.book.bke = { s.book.bke with guard := [] } ∧
      t.book.csc = { s.book.csc with guard := [] } ∧
      t.book.cfs = { s.book.cfs with valid := true, staged := [], commit := none } ∧
      t.book.hmp.out =
        (s.book.hmp.post (.configApplied true s.book.cfs.commitNumber k.puts k.tallies)).out ++
          .reply k.ctx (Answer.of .ok) :: more)

/-! ## Notices (R186) -/

/-- R186: a notice takes a free place with the count of those dropped before it, or is dropped and counted: said of
DAY_OPENED, which the CTU posts when the midnight events have been taken. -/
def Obligations.NoticesTakeAPlaceOrAreCounted : Prop :=
  ∀ (s : State) (c : Clock),
    s.ctu.clock = some c → s.ctu.opening = true → s.book.mail.eventLeft EventKind.isMidnight = false →
    s.book.hmp.helloPosted = true → s.book.hmp.restart = .none →
    ∃ t, Runs .dayOpened s t ∧
      (s.book.hmp.noticesHeld < 64 →
        t.book.hmp.out =
            s.book.hmp.out ++ [.notice s.book.hmp.dropped (.dayOpened c.date c.weekday (c.date.after 13))] ∧
          t.book.hmp.dropped = 0) ∧
      (64 ≤ s.book.hmp.noticesHeld →
        t.book.hmp.out = s.book.hmp.out ∧ t.book.hmp.dropped = bump 65535 s.book.hmp.dropped)
end

