-- ==== Sys2Proof/Laws/Catering.lean ====
section
/-! SUPPORT. The tests of the catering scheduler, said once: which order is found for a booking (8.7), and when covers fit a
window and a cut-off has passed (R130, R131). -/

namespace Sys2Proof.Machine

/-- The order found for a booking is of that booking, and stands in the table. -/
theorem orderOf_some {c : Csc} {booking : Nat} {o : Order} (h : c.orderOf booking = some o) :
    o.booking = booking ∧ o ∈ c.orders.values :=
  ⟨by simpa using List.find?_some (p := fun x : Order => x.booking == booking) h, List.mem_of_find?_eq_some h⟩

/-- A booking for which none is found has no order. -/
theorem orderOf_none {c : Csc} {booking : Nat} (h : c.orderOf booking = none) {o : Order} (ho : o ∈ c.orders.values) :
    o.booking ≠ booking := by
  simpa using List.find?_eq_none.mp h o ho

theorem windowClosed_iff {c : Csc} {k : Nat} {d : Date} {w : Nat} :
    c.windowClosed k d w = true ↔ WindowShut c k d w := by
  unfold Csc.windowClosed WindowShut
  cases c.entry k d w <;> simp

/-- What the CSC tests before it commits covers is that they fit. -/
theorem fits_iff {c : Csc} {k : Nat} {d : Date} {w n : Nat} : c.fits k d w n = true ↔ CoversFit c k d w n := by
  unfold Csc.fits CoversFit
  rw [← windowClosed_iff]
  simp

/-- What the CSC tests before a placement, a change or a move to a slot is that its cut-off has passed. -/
theorem cutOffPassed_iff {c : Csc} {k : Nat} {d : Date} {slot : Nat} :
    c.cutOffPassed k d slot = true ↔ CutOffPassed c k d slot := by
  unfold Csc.cutOffPassed CutOffPassed
  rw [← windowClosed_iff]
  simp

end Sys2Proof.Machine
end

