-- ==== Sys2Proof/Laws/State.lean ====
section
/-! SUPPORT. Beside State: one lemma for each field under each update of the book, true by rfl, so that no proof
unfolds a record update. -/

namespace Sys2Proof.Machine

@[simp] theorem Book.withBke_hmp (b : Book) (k : Bke) : (b.withBke k).hmp = b.hmp := rfl
@[simp] theorem Book.withBke_mail (b : Book) (k : Bke) : (b.withBke k).mail = b.mail := rfl
@[simp] theorem Book.withBke_cfs (b : Book) (k : Bke) : (b.withBke k).cfs = b.cfs := rfl
@[simp] theorem Book.withBke_bke (b : Book) (k : Bke) : (b.withBke k).bke = k := rfl
@[simp] theorem Book.withBke_bss (b : Book) (k : Bke) : (b.withBke k).bss = b.bss := rfl
@[simp] theorem Book.withBke_squ (b : Book) (k : Bke) : (b.withBke k).squ = b.squ := rfl
@[simp] theorem Book.withBke_csc (b : Book) (k : Bke) : (b.withBke k).csc = b.csc := rfl

@[simp] theorem Book.withBss_hmp (b : Book) (k : Bss) : (b.withBss k).hmp = b.hmp := rfl
@[simp] theorem Book.withBss_mail (b : Book) (k : Bss) : (b.withBss k).mail = b.mail := rfl
@[simp] theorem Book.withBss_cfs (b : Book) (k : Bss) : (b.withBss k).cfs = b.cfs := rfl
@[simp] theorem Book.withBss_bke (b : Book) (k : Bss) : (b.withBss k).bke = b.bke := rfl
@[simp] theorem Book.withBss_bss (b : Book) (k : Bss) : (b.withBss k).bss = k := rfl
@[simp] theorem Book.withBss_squ (b : Book) (k : Bss) : (b.withBss k).squ = b.squ := rfl
@[simp] theorem Book.withBss_csc (b : Book) (k : Bss) : (b.withBss k).csc = b.csc := rfl

@[simp] theorem Book.withSqu_hmp (b : Book) (k : Squ) : (b.withSqu k).hmp = b.hmp := rfl
@[simp] theorem Book.withSqu_mail (b : Book) (k : Squ) : (b.withSqu k).mail = b.mail := rfl
@[simp] theorem Book.withSqu_cfs (b : Book) (k : Squ) : (b.withSqu k).cfs = b.cfs := rfl
@[simp] theorem Book.withSqu_bke (b : Book) (k : Squ) : (b.withSqu k).bke = b.bke := rfl
@[simp] theorem Book.withSqu_bss (b : Book) (k : Squ) : (b.withSqu k).bss = b.bss := rfl
@[simp] theorem Book.withSqu_squ (b : Book) (k : Squ) : (b.withSqu k).squ = k := rfl
@[simp] theorem Book.withSqu_csc (b : Book) (k : Squ) : (b.withSqu k).csc = b.csc := rfl

@[simp] theorem Book.inClaim_hmp (b : Book) (f : Squ → Squ) : (b.inClaim f).hmp = b.hmp := rfl
@[simp] theorem Book.inClaim_mail (b : Book) (f : Squ → Squ) :
    (b.inClaim f).mail = { b.mail with bkeToSqu := [] } := rfl
@[simp] theorem Book.inClaim_cfs (b : Book) (f : Squ → Squ) : (b.inClaim f).cfs = b.cfs := rfl
@[simp] theorem Book.inClaim_bke (b : Book) (f : Squ → Squ) : (b.inClaim f).bke = b.bke := rfl
@[simp] theorem Book.inClaim_bss (b : Book) (f : Squ → Squ) : (b.inClaim f).bss = b.bss := rfl
@[simp] theorem Book.inClaim_squ (b : Book) (f : Squ → Squ) : (b.inClaim f).squ = f b.squTaken := rfl
@[simp] theorem Book.inClaim_csc (b : Book) (f : Squ → Squ) : (b.inClaim f).csc = b.csc := rfl

@[simp] theorem Book.withCsc_hmp (b : Book) (k : Csc) : (b.withCsc k).hmp = b.hmp := rfl
@[simp] theorem Book.withCsc_mail (b : Book) (k : Csc) : (b.withCsc k).mail = b.mail := rfl
@[simp] theorem Book.withCsc_cfs (b : Book) (k : Csc) : (b.withCsc k).cfs = b.cfs := rfl
@[simp] theorem Book.withCsc_bke (b : Book) (k : Csc) : (b.withCsc k).bke = b.bke := rfl
@[simp] theorem Book.withCsc_bss (b : Book) (k : Csc) : (b.withCsc k).bss = b.bss := rfl
@[simp] theorem Book.withCsc_squ (b : Book) (k : Csc) : (b.withCsc k).squ = b.squ := rfl
@[simp] theorem Book.withCsc_csc (b : Book) (k : Csc) : (b.withCsc k).csc = k := rfl

@[simp] theorem Book.withCfs_hmp (b : Book) (k : Cfs) : (b.withCfs k).hmp = b.hmp := rfl
@[simp] theorem Book.withCfs_mail (b : Book) (k : Cfs) : (b.withCfs k).mail = b.mail := rfl
@[simp] theorem Book.withCfs_cfs (b : Book) (k : Cfs) : (b.withCfs k).cfs = k := rfl
@[simp] theorem Book.withCfs_bke (b : Book) (k : Cfs) : (b.withCfs k).bke = b.bke := rfl
@[simp] theorem Book.withCfs_bss (b : Book) (k : Cfs) : (b.withCfs k).bss = b.bss := rfl
@[simp] theorem Book.withCfs_squ (b : Book) (k : Cfs) : (b.withCfs k).squ = b.squ := rfl
@[simp] theorem Book.withCfs_csc (b : Book) (k : Cfs) : (b.withCfs k).csc = b.csc := rfl

@[simp] theorem Book.withMail_hmp (b : Book) (k : Mail) : (b.withMail k).hmp = b.hmp := rfl
@[simp] theorem Book.withMail_mail (b : Book) (k : Mail) : (b.withMail k).mail = k := rfl
@[simp] theorem Book.withMail_cfs (b : Book) (k : Mail) : (b.withMail k).cfs = b.cfs := rfl
@[simp] theorem Book.withMail_bke (b : Book) (k : Mail) : (b.withMail k).bke = b.bke := rfl
@[simp] theorem Book.withMail_bss (b : Book) (k : Mail) : (b.withMail k).bss = b.bss := rfl
@[simp] theorem Book.withMail_squ (b : Book) (k : Mail) : (b.withMail k).squ = b.squ := rfl
@[simp] theorem Book.withMail_csc (b : Book) (k : Mail) : (b.withMail k).csc = b.csc := rfl

@[simp] theorem Book.withHmp_hmp (b : Book) (k : Hmp) : (b.withHmp k).hmp = k := rfl
@[simp] theorem Book.withHmp_mail (b : Book) (k : Hmp) : (b.withHmp k).mail = b.mail := rfl
@[simp] theorem Book.withHmp_cfs (b : Book) (k : Hmp) : (b.withHmp k).cfs = b.cfs := rfl
@[simp] theorem Book.withHmp_bke (b : Book) (k : Hmp) : (b.withHmp k).bke = b.bke := rfl
@[simp] theorem Book.withHmp_bss (b : Book) (k : Hmp) : (b.withHmp k).bss = b.bss := rfl
@[simp] theorem Book.withHmp_squ (b : Book) (k : Hmp) : (b.withHmp k).squ = b.squ := rfl
@[simp] theorem Book.withHmp_csc (b : Book) (k : Hmp) : (b.withHmp k).csc = b.csc := rfl

@[simp] theorem Book.tellPpu_hmp (b : Book) (n : PpuNews) : (b.tellPpu n).hmp = b.hmp := rfl
@[simp] theorem Book.tellPpu_cfs (b : Book) (n : PpuNews) : (b.tellPpu n).cfs = b.cfs := rfl
@[simp] theorem Book.tellPpu_bke (b : Book) (n : PpuNews) : (b.tellPpu n).bke = b.bke := rfl
@[simp] theorem Book.tellPpu_bss (b : Book) (n : PpuNews) : (b.tellPpu n).bss = b.bss := rfl
@[simp] theorem Book.tellPpu_squ (b : Book) (n : PpuNews) : (b.tellPpu n).squ = b.squ := rfl
@[simp] theorem Book.tellPpu_csc (b : Book) (n : PpuNews) : (b.tellPpu n).csc = b.csc := rfl

@[simp] theorem Book.tellCsc_hmp (b : Book) (i : Nat) (c : CscChange) : (b.tellCsc i c).hmp = b.hmp := rfl
@[simp] theorem Book.tellCsc_cfs (b : Book) (i : Nat) (c : CscChange) : (b.tellCsc i c).cfs = b.cfs := rfl
@[simp] theorem Book.tellCsc_bke (b : Book) (i : Nat) (c : CscChange) : (b.tellCsc i c).bke = b.bke := rfl
@[simp] theorem Book.tellCsc_bss (b : Book) (i : Nat) (c : CscChange) : (b.tellCsc i c).bss = b.bss := rfl
@[simp] theorem Book.tellCsc_squ (b : Book) (i : Nat) (c : CscChange) : (b.tellCsc i c).squ = b.squ := rfl
@[simp] theorem Book.tellCsc_csc (b : Book) (i : Nat) (c : CscChange) : (b.tellCsc i c).csc = b.csc := rfl

@[simp] theorem Book.tellSqu_hmp (b : Book) (r : Record) (m : Nat) : (b.tellSqu r m).hmp = b.hmp := rfl
@[simp] theorem Book.tellSqu_cfs (b : Book) (r : Record) (m : Nat) : (b.tellSqu r m).cfs = b.cfs := rfl
@[simp] theorem Book.tellSqu_bke (b : Book) (r : Record) (m : Nat) : (b.tellSqu r m).bke = b.bke := rfl
@[simp] theorem Book.tellSqu_bss (b : Book) (r : Record) (m : Nat) : (b.tellSqu r m).bss = b.bss := rfl
@[simp] theorem Book.tellSqu_squ (b : Book) (r : Record) (m : Nat) : (b.tellSqu r m).squ = b.squ := rfl
@[simp] theorem Book.tellSqu_csc (b : Book) (r : Record) (m : Nat) : (b.tellSqu r m).csc = b.csc := rfl

@[simp] theorem Book.post_mail (b : Book) (n : Notice) : (b.post n).mail = b.mail := rfl
@[simp] theorem Book.post_cfs (b : Book) (n : Notice) : (b.post n).cfs = b.cfs := rfl
@[simp] theorem Book.post_bke (b : Book) (n : Notice) : (b.post n).bke = b.bke := rfl
@[simp] theorem Book.post_bss (b : Book) (n : Notice) : (b.post n).bss = b.bss := rfl
@[simp] theorem Book.post_squ (b : Book) (n : Notice) : (b.post n).squ = b.squ := rfl
@[simp] theorem Book.post_csc (b : Book) (n : Notice) : (b.post n).csc = b.csc := rfl
@[simp] theorem Book.post_hmp (b : Book) (n : Notice) : (b.post n).hmp = b.hmp.post n := rfl

@[simp] theorem Book.withRequests_hmp (b : Book) (l : List Handed) : (b.withRequests l).hmp = b.hmp := rfl
@[simp] theorem Book.withRequests_cfs (b : Book) (l : List Handed) : (b.withRequests l).cfs = b.cfs := rfl
@[simp] theorem Book.withRequests_bke (b : Book) (l : List Handed) : (b.withRequests l).bke = b.bke := rfl
@[simp] theorem Book.withRequests_bss (b : Book) (l : List Handed) : (b.withRequests l).bss = b.bss := rfl
@[simp] theorem Book.withRequests_squ (b : Book) (l : List Handed) : (b.withRequests l).squ = b.squ := rfl
@[simp] theorem Book.withRequests_csc (b : Book) (l : List Handed) : (b.withRequests l).csc = b.csc := rfl
@[simp] theorem Book.withRequests_requests (b : Book) (l : List Handed) : (b.withRequests l).mail.requests = l := rfl

@[simp] theorem Book.discardStaged_hmp (b : Book) : b.discardStaged.hmp = b.hmp := rfl
@[simp] theorem Book.discardStaged_mail (b : Book) : b.discardStaged.mail = b.mail := rfl
@[simp] theorem Book.discardStaged_bke (b : Book) : b.discardStaged.bke = b.bke := rfl
@[simp] theorem Book.discardStaged_bss (b : Book) : b.discardStaged.bss = b.bss := rfl
@[simp] theorem Book.discardStaged_squ (b : Book) : b.discardStaged.squ = b.squ := rfl
@[simp] theorem Book.discardStaged_csc (b : Book) : b.discardStaged.csc = b.csc := rfl
@[simp] theorem Book.discardStaged_cfs (b : Book) : b.discardStaged.cfs = { b.cfs with staged := [] } := rfl

@[simp] theorem Book.withDraft_hmp (b : Book) (d : Draft) : (b.withDraft d).hmp = b.hmp := rfl
@[simp] theorem Book.withDraft_mail (b : Book) (d : Draft) : (b.withDraft d).mail = b.mail := rfl
@[simp] theorem Book.withDraft_cfs (b : Book) (d : Draft) : (b.withDraft d).cfs = b.cfs := rfl
@[simp] theorem Book.withDraft_bss (b : Book) (d : Draft) : (b.withDraft d).bss = b.bss := rfl
@[simp] theorem Book.withDraft_squ (b : Book) (d : Draft) : (b.withDraft d).squ = b.squ := rfl
@[simp] theorem Book.withDraft_csc (b : Book) (d : Draft) : (b.withDraft d).csc = b.csc := rfl
@[simp] theorem Book.withDraft_bke (b : Book) (d : Draft) : (b.withDraft d).bke = { b.bke with draft := d } := rfl

@[simp] theorem Book.unmark_hmp (b : Book) (id : Nat) : (b.unmark id).hmp = b.hmp := rfl
@[simp] theorem Book.unmark_mail (b : Book) (id : Nat) : (b.unmark id).mail = b.mail := rfl
@[simp] theorem Book.unmark_cfs (b : Book) (id : Nat) : (b.unmark id).cfs = b.cfs := rfl
@[simp] theorem Book.unmark_bss (b : Book) (id : Nat) : (b.unmark id).bss = b.bss := rfl
@[simp] theorem Book.unmark_squ (b : Book) (id : Nat) : (b.unmark id).squ = b.squ := rfl
@[simp] theorem Book.unmark_csc (b : Book) (id : Nat) : (b.unmark id).csc = b.csc := rfl
@[simp] theorem Book.unmark_bke (b : Book) (id : Nat) :
    (b.unmark id).bke = { b.bke with draft := b.bke.draft.unmark id } := rfl

/-- R11: a backward trim moves the SQU's minute and nothing else of the book. -/
theorem Book.squMinuteBack_eq (b : Book) (d : Date) (m : Nat) : ∃ q, b.squMinuteBack d m = b.withSqu q := by
  unfold Book.squMinuteBack
  split
  · exact ⟨_, rfl⟩
  · exact ⟨b.squ, rfl⟩

end Sys2Proof.Machine
end

