-- ==== Sys2Proof/Laws/Outbound.lean ====
section
/-! SUPPORT. What posting a notice and posting a reply can do, said once (R179, R182, R185 to R187, R198). -/

namespace Sys2Proof.Machine

/-! ## A notice -/

theorem Hmp.post_out (h : Hmp) (n : Notice) : ∃ l, (h.post n).out = h.out ++ l := by
  unfold Hmp.post
  split
  · exact ⟨[], by simp⟩
  · split
    · exact ⟨[.notice h.dropped n], rfl⟩
    · exact ⟨[], by simp⟩

/-- R186: with a notice place free and no RESTART answered, the notice is queued with the dropped count. -/
theorem Hmp.post_queued (h : Hmp) (n : Notice) (hr : h.restart ≠ .answered) (hp : h.noticesHeld < h.noticeRoom) :
    h.post n = { h with out := h.out ++ [.notice h.dropped n], dropped := 0 } := by
  unfold Hmp.post
  split
  · contradiction
  · simp [hp]

@[simp] theorem Hmp.post_held (h : Hmp) (n : Notice) : (h.post n).held = h.held := by
  unfold Hmp.post; repeat (first | rfl | split)

@[simp] theorem Hmp.post_tags (h : Hmp) (n : Notice) : (h.post n).tags = h.tags := by
  unfold Hmp.post; repeat (first | rfl | split)

@[simp] theorem Hmp.post_batch (h : Hmp) (n : Notice) : (h.post n).batch = h.batch := by
  unfold Hmp.post; repeat (first | rfl | split)

@[simp] theorem Hmp.post_restart (h : Hmp) (n : Notice) : (h.post n).restart = h.restart := by
  unfold Hmp.post; repeat (first | rfl | split)

@[simp] theorem Hmp.post_helloPosted (h : Hmp) (n : Notice) : (h.post n).helloPosted = h.helloPosted := by
  unfold Hmp.post; repeat (first | rfl | split)

/-- R182: OVERRUN in either form joins the tail of the queue, or is dropped. -/
theorem Hmp.overrun_out (h : Hmp) (m : Mark) (d : Detail) (tag code length occupied : Nat) :
    ∃ l, (h.overrun m d tag code length occupied).out = h.out ++ l := by
  unfold Hmp.overrun
  dsimp only
  split
  · exact ⟨_, rfl⟩
  · exact Hmp.post_out _ _

/-- R179: the end of a write select takes nothing from the queue and returns no credit. -/
theorem Link.endWrite_out (l : Link) (b : Book) (a : Arriving) (bytes : List Byte) (reading : Option Request) :
    ∃ x, (l.endWrite b a bytes reading).2.hmp.out = b.hmp.out ++ x ∧
      l.awaitingReturn ≤ (l.endWrite b a bytes reading).1.awaitingReturn := by
  unfold Link.endWrite
  dsimp only
  split
  · obtain ⟨x, hx⟩ := Hmp.post_out { b.hmp with rejected := bump 65535 b.hmp.rejected }
      (.frameRejected (blocksReceived bytes.length) a.blocks ‹_›)
    exact ⟨x, hx, by simp [Link.discardArriving, Link.free]⟩
  · exact ⟨[], by simp, by simp [Link.discardArriving, Link.free]⟩
  · split
    · obtain ⟨x, hx⟩ := Hmp.overrun_out b.hmp ‹_› .buffer (linkHeader bytes).tag (linkHeader bytes).code
        (linkHeader bytes).length l.occupied
      exact ⟨x, hx, by simp [Link.discardArriving, Link.free]⟩
    · split
      · obtain ⟨x, hx⟩ := Hmp.post_out { b.hmp with clashes := bump 65535 b.hmp.clashes }
          (.tagClash (linkHeader bytes).tag (linkHeader bytes).code)
        exact ⟨x, hx, by simp [Link.discardArriving, Link.free]⟩
      · split
        · obtain ⟨x, hx⟩ := Hmp.overrun_out b.hmp ‹_› .tags (linkHeader bytes).tag (linkHeader bytes).code
            (linkHeader bytes).length l.occupied
          exact ⟨x, hx, by simp [Link.discardArriving, Link.free]⟩
        · exact ⟨[], by simp, by simp⟩

/-! ## A batch member answered -/

/-- R187, R198: answering a member changes the batch state and the staged set, and may queue one notice. -/
structure AfterReply (b b' : Book) (c : Ctx) : Prop where
  mail : b'.mail = b.mail
  bke : b'.bke = b.bke
  bss : b'.bss = b.bss
  squ : b'.squ = b.squ
  csc : b'.csc = b.csc
  committed : b'.cfs.committed = b.cfs.committed
  complete : b'.cfs.complete = b.cfs.complete
  number : b'.cfs.commitNumber = b.cfs.commitNumber
  valid : b'.cfs.valid = b.cfs.valid
  commit : b'.cfs.commit = b.cfs.commit
  out : ∃ l, b'.hmp.out = b.hmp.out ++ l ∧ (c.mark ≠ .last → l = [])
  held : b'.hmp.held = b.hmp.held
  tags : b'.hmp.tags = b.hmp.tags
  restart : b'.hmp.restart = b.hmp.restart

theorem AfterReply.refl (b : Book) (c : Ctx) : AfterReply b b c :=
  ⟨rfl, rfl, rfl, rfl, rfl, rfl, rfl, rfl, rfl, rfl, ⟨[], by simp, fun _ => rfl⟩, rfl, rfl, rfl⟩

theorem Book.closeGood_after (b : Book) (c : Ctx) (hc : c.mark = .last) : AfterReply b (b.closeGood c) c := by
  unfold Book.closeGood
  split
  · exact .refl b c
  · obtain ⟨l, hl⟩ := Hmp.post_out b.hmp (.configApplied false b.cfs.commitNumber b.cfs.staged.length [])
    exact ⟨rfl, rfl, rfl, rfl, rfl, rfl, rfl, rfl, rfl, rfl, ⟨l, hl, fun h => absurd hc h⟩, by simp, by simp, by simp⟩

theorem Book.afterReply_after (b : Book) (c : Ctx) (st : Status) : AfterReply b (b.afterReply c st) c := by
  unfold Book.afterReply
  split
  · exact .refl b c
  · rename_i hm _
    dsimp only
    split
    · have h := Book.closeGood_after { b with hmp := { b.hmp with batch := .none } } c hm
      exact ⟨h.mail, h.bke, h.bss, h.squ, h.csc, h.committed, h.complete, h.number, h.valid, h.commit, h.out, h.held,
        h.tags, h.restart⟩
    · exact ⟨rfl, rfl, rfl, rfl, rfl, rfl, rfl, rfl, rfl, rfl, ⟨[], by simp, fun _ => rfl⟩, rfl, rfl, rfl⟩
  · split
    · exact .refl b c
    · exact ⟨rfl, rfl, rfl, rfl, rfl, rfl, rfl, rfl, rfl, rfl, ⟨[], by simp, fun _ => rfl⟩, rfl, rfl, rfl⟩
  · exact .refl b c

/-- R185: a reply is queued, its place released, and nothing else of the book changes but the batch and the staged
set. -/
theorem Book.reply_after (b : Book) (c : Ctx) (a : Answer) :
    AfterReply { b with hmp := b.hmp.postReply c a } (b.reply c a) c :=
  Book.afterReply_after _ c a.status

@[simp] theorem Book.reply_mail (b : Book) (c : Ctx) (a : Answer) : (b.reply c a).mail = b.mail := (b.reply_after c a).mail
@[simp] theorem Book.reply_bke (b : Book) (c : Ctx) (a : Answer) : (b.reply c a).bke = b.bke := (b.reply_after c a).bke
@[simp] theorem Book.reply_bss (b : Book) (c : Ctx) (a : Answer) : (b.reply c a).bss = b.bss := (b.reply_after c a).bss
@[simp] theorem Book.reply_squ (b : Book) (c : Ctx) (a : Answer) : (b.reply c a).squ = b.squ := (b.reply_after c a).squ
@[simp] theorem Book.reply_csc (b : Book) (c : Ctx) (a : Answer) : (b.reply c a).csc = b.csc := (b.reply_after c a).csc
@[simp] theorem Book.reply_commit (b : Book) (c : Ctx) (a : Answer) : (b.reply c a).cfs.commit = b.cfs.commit :=
  (b.reply_after c a).commit
@[simp] theorem Book.reply_committed (b : Book) (c : Ctx) (a : Answer) :
    (b.reply c a).cfs.committed = b.cfs.committed := (b.reply_after c a).committed
@[simp] theorem Book.reply_complete (b : Book) (c : Ctx) (a : Answer) :
    (b.reply c a).cfs.complete = b.cfs.complete := (b.reply_after c a).complete
@[simp] theorem Book.reply_number (b : Book) (c : Ctx) (a : Answer) :
    (b.reply c a).cfs.commitNumber = b.cfs.commitNumber := (b.reply_after c a).number
@[simp] theorem Book.reply_valid (b : Book) (c : Ctx) (a : Answer) : (b.reply c a).cfs.valid = b.cfs.valid :=
  (b.reply_after c a).valid
@[simp] theorem Book.reply_held (b : Book) (c : Ctx) (a : Answer) : (b.reply c a).hmp.held = b.hmp.held.erase c :=
  (b.reply_after c a).held
@[simp] theorem Book.reply_restart (b : Book) (c : Ctx) (a : Answer) :
    (b.reply c a).hmp.restart = b.hmp.restart := (b.reply_after c a).restart

/-- A reply posted on a book whose outbound queue is that of `s`. -/
theorem Book.reply_replied (s t : State) (b : Book) (c : Ctx) (a : Answer) (ht : t.book = b.reply c a)
    (ho : b.hmp.out = s.book.hmp.out) : Replied s t c a := by
  obtain ⟨l, hl, hm⟩ := (b.reply_after c a).out
  refine ⟨l, ?_, hm⟩
  rw [ht, hl, ← ho]
  simp [Hmp.postReply]

/-! ## Requests -/

theorem Asks.next {s : State} {c : Ctx} {q : Request} {rest : List Handed} (h : Asks s c q rest) :
    s.book.nextRequest q.owner = some ({ ctx := c, request := q }, s.book.withRequests rest) := by
  unfold Asks at h
  simp [Book.nextRequest, h]

/-- A request served by an operation that answers it. -/
theorem Asks.serve {s : State} {c : Ctx} {q : Request} {rest : List Handed} (h : Asks s c q rest)
    {f : Request → Ctx → Book → Option Book} {b : Book} (hf : f q c (s.book.withRequests rest) = some b) :
    s.book.serve q.owner f = b := by
  simp [Book.serve, h.next, hf]

/-- A request that is answered at once from what is there only reads. -/
theorem OnlyReads.of_reply (s t : State) (rest : List Handed) (c : Ctx) (a : Answer)
    (ht : t = { s with book := (s.book.withRequests rest).reply c a }) : OnlyReads s t rest ∧ Replied s t c a := by
  subst ht
  refine ⟨⟨rfl, rfl, rfl, rfl, by simp, by simp, by simp, by simp, ?_, ?_⟩, ?_⟩
  · simp [Book.withRequests]
  · exact ⟨by simp, by simp, by simp, by simp, by simp⟩
  · exact Book.reply_replied s _ _ c a rfl rfl

end Sys2Proof.Machine
end

