-- ==== Sys2Proof/Laws/Table.lean ====
section
/-! SUPPORT. What the keyed tables and the cells of a row do, said once. -/

namespace Sys2Proof

variable {α : Type}

theorem findKey_putKey (k j : Nat) (a : α) (l : List (Nat × α)) :
    findKey j (putKey k a l) = if j = k then some a else findKey j l := by
  induction l with
  | nil => simp only [putKey, findKey]; split <;> split <;> first | rfl | omega
  | cons e l ih =>
    obtain ⟨i, x⟩ := e
    simp only [putKey]
    split
    · simp only [findKey]; split <;> split <;> first | rfl | omega | (split <;> first | rfl | omega)
    · split
      · subst i; simp only [findKey]; split <;> split <;> first | rfl | omega
      · simp only [findKey, ih]; split <;> split <;> first | rfl | omega

theorem findKey_dropKey (k j : Nat) (l : List (Nat × α)) :
    findKey j (dropKey k l) = if j = k then none else findKey j l := by
  induction l with
  | nil => simp [dropKey, findKey]
  | cons e l ih =>
    obtain ⟨i, x⟩ := e
    simp only [dropKey]
    split
    · subst i; simp only [findKey, ih]; split <;> first | rfl | (split <;> first | rfl | omega)
    · simp only [findKey, ih]; split <;> split <;> first | rfl | omega

theorem findKey_map (j : Nat) {β : Type} (f : Nat → α → β) (l : List (Nat × α)) :
    findKey j (l.map fun e => (e.1, f e.1 e.2)) = (findKey j l).map (f j) := by
  induction l with
  | nil => rfl
  | cons e l ih =>
    obtain ⟨i, x⟩ := e
    simp only [List.map_cons, findKey]
    split
    · subst i; rfl
    · exact ih

/-! ## Tables -/

theorem Table.find_put (t : Table α) (k j : Nat) (a : α) :
    (t.put k a).find j = if j = k then some a else t.find j := findKey_putKey k j a t.entries

@[simp] theorem Table.find_put_self (t : Table α) (k : Nat) (a : α) : (t.put k a).find k = some a := by
  simp [Table.find_put]

theorem Table.find_put_ne (t : Table α) (k j : Nat) (a : α) (h : j ≠ k) : (t.put k a).find j = t.find j := by
  simp [Table.find_put, h]

theorem Table.find_drop (t : Table α) (k j : Nat) :
    (t.drop k).find j = if j = k then none else t.find j := findKey_dropKey k j t.entries

@[simp] theorem Table.find_drop_self (t : Table α) (k : Nat) : (t.drop k).find k = none := by
  simp [Table.find_drop]

theorem Table.find_drop_ne (t : Table α) (k j : Nat) (h : j ≠ k) : (t.drop k).find j = t.find j := by
  simp [Table.find_drop, h]

@[simp] theorem Table.find_mapValues {β : Type} (t : Table α) (f : Nat → α → β) (j : Nat) :
    (t.mapValues f).find j = (t.find j).map (f j) := findKey_map j f t.entries

theorem Table.find_modify (t : Table α) (k j : Nat) (f : α → α) :
    (t.modify k f).find j = if j = k then (t.find k).map f else t.find j := by
  unfold Table.modify
  cases h : t.find k with
  | none => simp only [Option.map_none]; split <;> simp_all
  | some a => simp only [Table.find_put, Option.map_some]

@[simp] theorem Table.find_empty (k : Nat) : (⟨[]⟩ : Table α).find k = none := rfl

/-! ## The canonical form -/

theorem putKey_rising (k : Nat) (a : α) (l : List (Nat × α)) (low : Nat) (hk : low ≤ k) (h : risingFrom low l = true) :
    risingFrom low (putKey k a l) = true := by
  induction l generalizing low with
  | nil => simp [putKey, risingFrom, hk]
  | cons e l ih =>
    obtain ⟨i, x⟩ := e
    simp only [risingFrom, Bool.and_eq_true, decide_eq_true_eq] at h
    simp only [putKey]
    split
    · simp only [risingFrom, Bool.and_eq_true, decide_eq_true_eq]; exact ⟨hk, by omega, h.2⟩
    · split
      · subst i; simp only [risingFrom, Bool.and_eq_true, decide_eq_true_eq]; exact ⟨hk, h.2⟩
      · simp only [risingFrom, Bool.and_eq_true, decide_eq_true_eq]; exact ⟨h.1, ih _ (by omega) h.2⟩

theorem risingFrom_mono (l : List (Nat × α)) (a b : Nat) (hab : a ≤ b) (h : risingFrom b l = true) :
    risingFrom a l = true := by
  cases l with
  | nil => rfl
  | cons e l =>
    simp only [risingFrom, Bool.and_eq_true, decide_eq_true_eq] at h ⊢
    exact ⟨by omega, h.2⟩

theorem dropKey_rising (k : Nat) (l : List (Nat × α)) (low : Nat) (h : risingFrom low l = true) :
    risingFrom low (dropKey k l) = true := by
  induction l generalizing low with
  | nil => rfl
  | cons e l ih =>
    obtain ⟨i, x⟩ := e
    simp only [risingFrom, Bool.and_eq_true, decide_eq_true_eq] at h
    simp only [dropKey]
    split
    · exact risingFrom_mono _ _ _ (by omega) (ih _ h.2)
    · simp only [risingFrom, Bool.and_eq_true, decide_eq_true_eq]; exact ⟨h.1, ih _ h.2⟩

/-- Writing an entry keeps the canonical form. -/
theorem Table.wf_put (t : Table α) (k : Nat) (a : α) (h : t.wf = true) : (t.put k a).wf = true :=
  putKey_rising k a t.entries 0 (Nat.zero_le _) h

/-- Dropping an entry keeps the canonical form. -/
theorem Table.wf_drop (t : Table α) (k : Nat) (h : t.wf = true) : (t.drop k).wf = true :=
  dropKey_rising k t.entries 0 h

end Sys2Proof

namespace Sys2Proof.Machine

/-! ## Taking and inserting -/

theorem mem_insertBy {α : Type} (rank : α → Nat) (a x : α) (l : List α) : x ∈ insertBy rank a l ↔ x = a ∨ x ∈ l := by
  induction l with
  | nil => simp [insertBy]
  | cons y l ih =>
    simp only [insertBy]
    split
    · simp only [List.mem_cons]
    · simp only [List.mem_cons, ih]; tauto

/-! ## Cells -/

@[simp] theorem paintFrom_length (c : Cell) (start stop i : Nat) (l : List Cell) :
    (paintFrom c start stop i l).length = l.length := by
  induction l generalizing i with
  | nil => rfl
  | cons x l ih => simp [paintFrom, ih]

@[simp] theorem paint_length (c : Cell) (start count : Nat) (l : List Cell) : (paint c start count l).length = l.length :=
  paintFrom_length ..

theorem paintFrom_getElem? (c : Cell) (start stop i k : Nat) (l : List Cell) (hk : k < l.length) :
    (paintFrom c start stop i l)[k]? = some (if start ≤ i + k ∧ i + k < stop then c else l[k]) := by
  induction l generalizing i k with
  | nil => simp at hk
  | cons x l ih =>
    cases k with
    | zero => simp [paintFrom]
    | succ k =>
      simp only [paintFrom, List.getElem?_cons_succ, List.getElem_cons_succ]
      rw [ih (i + 1) k (by simpa using hk)]
      simp [Nat.add_assoc, Nat.add_comm 1 k]

/-- A painted row, cell by cell. -/
theorem cellAt_paint (c : Cell) (start count k : Nat) (l : List Cell) (hk : k < l.length) :
    cellAt (paint c start count l) k = if start ≤ k ∧ k < start + count then c else cellAt l k := by
  unfold cellAt paint
  rw [paintFrom_getElem? _ _ _ _ _ _ hk, List.getElem?_eq_getElem hk]
  simp

end Sys2Proof.Machine
end

