-- ==== Sys2Proof/Laws/Sound.lean ====
section
/-! SUPPORT. The live book over a store without errors (R168): every demand read leaves the book as it is, so that a
claim's writing of cells is a change of the rows alone; and what the writing of a family's rows does. -/

namespace Sys2Proof.Machine

/-! ## Reads of a sound store -/

theorem Bss.fresh_sound (x : Bss) (h : x.errors = []) (i : StoreItem) : x.fresh i = x := by
  cases x; simp_all [Bss.fresh]

theorem Book.fresh_sound {b : Book} (h : StoreSound b) (i : StoreItem) : b.fresh i = b := by
  unfold Book.fresh; rw [Bss.fresh_sound _ h]; rfl

theorem Book.readItem_sound {b : Book} (h : StoreSound b) (i : StoreItem) : b.readItem i = (b, false) := by
  have : b.bss.errorOf i = none := by unfold Bss.errorOf; rw [show b.bss.errors = [] from h]; rfl
  simp [Book.readItem, this]

theorem Book.readLive_sound {b : Book} (h : StoreSound b) (p : ReadPath) (x : Nat) (d : Date) : b.readLive p x d = b := by
  simp [Book.readLive, Book.readItem_sound h]

theorem Book.readDraft_sound {b : Book} (h : StoreSound b) (p : ReadPath) (x : Nat) (d : Date) :
    b.readDraft p x d = b := by
  unfold Book.readDraft
  split
  · rfl
  · split
    · rfl
    · simp [Book.readItem_sound h]

theorem Book.readSlot_sound {b : Book} (h : StoreSound b) (p : ReadPath) (n : Nat) : b.readSlot p n = b := by
  unfold Book.readSlot
  split
  · simp [Book.readItem_sound h]
  · rfl

theorem Book.readView_sound {b : Book} (h : StoreSound b) (e : Edition) (d : Date) (x : Nat) : b.readView e d x = b := by
  unfold Book.readView
  split
  · exact Book.readDraft_sound h ..
  · exact Book.readLive_sound h ..

theorem Book.readFamily_sound {b : Book} (h : StoreSound b) (e : Edition) (x : Nat) (d : Date) :
    b.readFamily e x d = b := by
  unfold Book.readFamily
  induction rowFamily b.bke.rooms x with
  | nil => rfl
  | cons y l ih => simp only [List.foldl_cons]; rw [Book.readView_sound h]; exact ih

theorem Book.fetch_sound {b : Book} (h : StoreSound b) (id : Nat) :
    b.fetch id =
      (b, match b.slotOf id with
        | none => .nothing
        | some n => (b.foundAt n).named id (b.isDraftId (some id))) := by
  unfold Book.fetch
  split <;> simp [*, Book.readSlot_sound h]

theorem Book.readSlots_sound {b : Book} (h : StoreSound b) (l : List Nat) : b.readSlots l = b := by
  unfold Book.readSlots
  induction l with
  | nil => rfl
  | cons n l ih => simp only [List.foldl_cons]; rw [Book.readSlot_sound h]; exact ih

/-- R168: over a sound store the records that stand are read without loss. -/
theorem Book.tryRecords_sound {b : Book} (h : StoreSound b) (l : List Nat) (hl : ∀ n ∈ l, (b.soundAt n).isSome) :
    b.tryRecords l = .ok b := by
  unfold Book.tryRecords
  simp only [Book.readSlots_sound h]
  rw [if_pos (List.all_eq_true.mpr hl)]

theorem Book.readIndex_sound {b : Book} (h : StoreSound b) (n : Nat) : b.readIndex n = b := by
  unfold Book.readIndex
  split
  · simp [Book.readItem_sound h]
  · rfl

/-- R168: over a sound store the live rows are read without loss. -/
theorem Book.tryReadLive_sound {b : Book} (h : StoreSound b) (l : List (Nat × Date)) : b.tryReadLive l = .ok b := by
  have hr : l.foldl (fun b p => b.readLive .demand p.1 p.2) b = b := by
    induction l with
    | nil => rfl
    | cons p l ih => simp only [List.foldl_cons]; rw [Book.readLive_sound h]; exact ih
  have hf : (l.find? fun p => b.bss.isLost (.liveRow p.1 p.2)) = none := by
    rw [List.find?_eq_none]
    intro p _
    simp [Bss.isLost, Bss.errorOf, show b.bss.errors = [] from h]
  unfold Book.tryReadLive
  simp only [hr, hf]

/-- R57: a live record is found by its id. -/
theorem HoldsLive.fetch {b : Book} {n : Nat} {r : Record} (h : HoldsLive b n r) (hs : StoreSound b) :
    b.fetch r.id = (b, .live n r) := by
  rw [Book.fetch_sound hs, h.1]
  simp [Book.foundAt, h.2.1, h.2.2, Found.named]

theorem HoldsLive.tryLive {b : Book} {n : Nat} {r : Record} (h : HoldsLive b n r) (hs : StoreSound b) :
    b.tryLive r.id = .ok (b, n, r) := by
  simp [Book.tryLive, h.fetch hs]

/-! ## Writing the rows of a family -/

/-- The rows after one is written. -/
def paintTable (t : Table Row) (x : Nat) (d : Date) (f : List Cell → List Cell) : Table Row :=
  match t.find (rowKey x d) with
  | some r => if r.state = .good then t.put (rowKey r.room r.date) { r with cells := f r.cells } else t
  | none => t

/-- The rows after those of a list of rooms are written. -/
def paintRows (t : Table Row) (l : List Nat) (d : Date) (f : Nat → List Cell → List Cell) : Table Row :=
  l.foldl (fun t x => paintTable t x d (f x)) t

def Book.withRows (b : Book) (t : Table Row) : Book := b.withBke { b.bke with rows := t }

@[simp] theorem Book.withRows_hmp (b : Book) (t : Table Row) : (b.withRows t).hmp = b.hmp := rfl
@[simp] theorem Book.withRows_mail (b : Book) (t : Table Row) : (b.withRows t).mail = b.mail := rfl
@[simp] theorem Book.withRows_cfs (b : Book) (t : Table Row) : (b.withRows t).cfs = b.cfs := rfl
@[simp] theorem Book.withRows_bss (b : Book) (t : Table Row) : (b.withRows t).bss = b.bss := rfl
@[simp] theorem Book.withRows_squ (b : Book) (t : Table Row) : (b.withRows t).squ = b.squ := rfl
@[simp] theorem Book.withRows_csc (b : Book) (t : Table Row) : (b.withRows t).csc = b.csc := rfl
@[simp] theorem Book.withRows_bke (b : Book) (t : Table Row) : (b.withRows t).bke = { b.bke with rows := t } := rfl

theorem Book.paintLive_sound {b : Book} (h : StoreSound b) (x : Nat) (d : Date) (f : List Cell → List Cell) :
    b.paintLive x d f = b.withRows (paintTable b.bke.rows x d f) := by
  unfold Book.paintLive paintTable
  rw [Book.readLive_sound h]
  cases hr : b.bke.rows.find (rowKey x d) with
  | none => simp only [Book.row, hr]; rfl
  | some r =>
    simp only [Book.row, hr]
    split
    · rw [Book.fresh_sound (by exact h)]; rfl
    · rfl

theorem Book.paintFamily_sound {b : Book} (h : StoreSound b) (l : List Nat) (d : Date) (f : Nat → List Cell → List Cell) :
    l.foldl (fun b x => b.paintRow .live x d (f x)) b = b.withRows (paintRows b.bke.rows l d f) := by
  induction l generalizing b with
  | nil => rfl
  | cons x l ih =>
    simp only [List.foldl_cons]
    rw [show b.paintRow .live x d (f x) = b.paintLive x d (f x) from rfl, Book.paintLive_sound h, ih (by exact h)]
    rfl

theorem Book.cover_sound {b : Book} (h : StoreSound b) (r : Record) :
    b.cover .live r =
      b.withRows (paintRows b.bke.rows (rowFamily b.bke.rooms r.room) r.date fun x => applyPatches (r.patches x)) :=
  Book.paintFamily_sound h ..

theorem Book.uncover_sound {b : Book} (h : StoreSound b) (r : Record) :
    b.uncover .live r =
      b.withRows (paintRows b.bke.rows (rowFamily b.bke.rooms r.room) r.date fun x => freePatches (r.patches x)) :=
  Book.paintFamily_sound h ..

theorem Book.uncoverBuffer_sound {b : Book} (h : StoreSound b) (r : Record) :
    b.uncoverBuffer r =
      b.withRows (paintRows b.bke.rows (rowFamily b.bke.rooms r.room) r.date fun _ => freePatches r.bufferPatch) :=
  Book.paintFamily_sound h ..

/-- A row of a table stands GOOD under its own key, with 64 cells. -/
def Stands (t : Table Row) (x : Nat) (d : Date) (r : Row) : Prop :=
  t.find (rowKey x d) = some r ∧ r.room = x ∧ r.date = d ∧ r.state = .good ∧ r.cells.length = 64

theorem rowKey_left {x y : Nat} {d : Date} (h : rowKey x d = rowKey y d) : x = y := by
  unfold rowKey at h; omega

theorem paintTable_stands {t : Table Row} {x : Nat} {d : Date} {r : Row} (h : Stands t x d r)
    (f : List Cell → List Cell) (hf : (f r.cells).length = 64) :
    Stands (paintTable t x d f) x d { r with cells := f r.cells } := by
  obtain ⟨h1, h2, h3, h4, h5⟩ := h
  refine ⟨?_, h2, h3, h4, hf⟩
  simp [paintTable, h1, h4, h2, h3]

theorem paintTable_other (t : Table Row) (x : Nat) (d : Date) (f : List Cell → List Cell) (k : Nat)
    (hx : ∀ r, t.find (rowKey x d) = some r → r.state = .good → rowKey r.room r.date ≠ k) :
    (paintTable t x d f).find k = t.find k := by
  unfold paintTable
  split
  · rename_i r hr
    split
    · rename_i hg
      exact Table.find_put_ne _ _ _ _ (Ne.symm (hx r hr hg))
    · rfl
  · rfl

/-- R20: what writing a family does: its rows are written cell by cell, every other row stands as it was. -/
theorem paintRows_spec {l : List Nat} {d : Date} {f : Nat → List Cell → List Cell} {g : Nat → Nat → Cell → Cell}
    (hlen : ∀ x c, (f x c).length = c.length)
    (hcell : ∀ x c k, c.length = 64 → k < 64 → cellAt (f x c) k = g x k (cellAt c k))
    (hid : ∀ x k c, g x k (g x k c) = g x k c) (t : Table Row) (ht : ∀ x ∈ l, ∃ r, Stands t x d r) :
    (∀ x r, Stands t x d r →
      ∃ r', Stands (paintRows t l d f) x d r' ∧ r'.version = r.version ∧
        (x ∉ l → r' = r) ∧ (x ∈ l → ∀ k, k < 64 → cellAt r'.cells k = g x k (cellAt r.cells k))) ∧
    (∀ k, (∀ y ∈ l, rowKey y d ≠ k) → (paintRows t l d f).find k = t.find k) := by
  induction l generalizing t with
  | nil => exact ⟨fun x r h => ⟨r, h, rfl, fun _ => rfl, by simp⟩, fun k _ => rfl⟩
  | cons y l ih =>
    obtain ⟨ry, hy⟩ := ht y (by simp)
    have hpy := paintTable_stands hy (f y) (by rw [hlen]; exact hy.2.2.2.2)
    have hother : ∀ k, rowKey y d ≠ k → (paintTable t y d (f y)).find k = t.find k := by
      intro k hk
      apply paintTable_other
      intro r hr _
      rw [hy.1] at hr; cases hr
      rw [hy.2.1, hy.2.2.1]; exact hk
    have hmove : ∀ x r, x ≠ y → Stands t x d r → Stands (paintTable t y d (f y)) x d r := by
      intro x r hne h
      exact ⟨by rw [hother _ (fun e => hne (rowKey_left e).symm)]; exact h.1, h.2⟩
    have ht' : ∀ x ∈ l, ∃ r, Stands (paintTable t y d (f y)) x d r := by
      intro x hx
      by_cases hxy : x = y
      · subst hxy; exact ⟨_, hpy⟩
      · obtain ⟨r, hr⟩ := ht x (by simp [hx]); exact ⟨r, hmove x r hxy hr⟩
    obtain ⟨i1, i2⟩ := ih (paintTable t y d (f y)) ht'
    refine ⟨?_, ?_⟩
    · intro x r h
      by_cases hxy : x = y
      · subst hxy
        have : r = ry := by have := h.1; rw [hy.1] at this; cases this; rfl
        subst this
        obtain ⟨r', a, b, c, e⟩ := i1 x _ hpy
        refine ⟨r', a, b, by simp, fun _ k hk => ?_⟩
        by_cases hm : x ∈ l
        · rw [e hm k hk, hcell _ _ _ hy.2.2.2.2 hk, hid]
        · rw [c hm]; exact hcell _ _ _ hy.2.2.2.2 hk
      · obtain ⟨r', a, b, c, e⟩ := i1 x r (hmove x r hxy h)
        refine ⟨r', a, b, ?_, ?_⟩
        · intro hn; exact c (by simp at hn; exact hn.2)
        · intro hn k hk; exact e (by simp [hxy] at hn; exact hn) k hk
    · intro k hk
      have := i2 k (fun z hz => hk z (by simp [hz]))
      show (paintRows (paintTable t y d (f y)) l d f).find k = _
      rw [this]; exact hother k (hk y (by simp))

/-! ## Versions (R21) -/

theorem Book.bumpRows_find (b : Book) (before : Table Row) (k : Nat) :
    (b.bumpRows before).bke.rows.find k =
      (b.bke.rows.find k).map fun r =>
        match before.find k with
        | some o => if o.cells = r.cells then r else { r with version := r.version + 1 }
        | none => r := by
  exact Table.find_mapValues ..

end Sys2Proof.Machine
end

