-- ==== Sys2Proof/Laws/Claims.lean ====
section
/-! SUPPORT. The checks of a live claim when they pass, and the cells a record's cover writes (R20, R23 to R25, R37). -/

namespace Sys2Proof.Machine

/-! ## Checks that pass -/

theorem SpanPasses.check {t : Ctu} {b : Book} {d : Date} {start count : Nat} (h : SpanPasses t b d start count) :
    b.spanCheck t d start count false = none := by
  obtain ⟨h1, h2, h3, h4⟩ := h
  have h1' : b.bke.horizon.isNone = false := by cases hh : b.bke.horizon <;> simp_all
  have h2' : (b.offset d).isNone = false := by cases hh : b.offset d <;> simp_all
  unfold Book.spanCheck Book.spanCheckWith
  rw [h1', h2', h3]
  cases ht : b.isToday d <;> simp [firstFail]
  simp [h4 ht, firstFail]

theorem RoomTakes.bookable {b : Book} {x n : Nat} {rm : Room} (h : RoomTakes b x n rm) : b.tryBookable x n = .ok rm := by
  obtain ⟨h1, h2, h3, h4⟩ := h
  have hr : b.tryRoom x = .ok rm := by
    unfold Book.tryRoom Book.room
    simp only [h1, h2]
    rfl
  unfold Book.tryBookable
  rw [hr]
  simp [refuseIf, firstFail, h3, Nat.not_lt.mpr h4, bind, Except.bind, pure, Except.pure]

/-! ## The conflict test on open rows -/

theorem takenFrom_open (c : List Cell) (start n : Nat) (h : ∀ k, start ≤ k → k < start + n → cellAt c k = .free) :
    takenFrom c start n = none := by
  induction n generalizing start with
  | zero => rfl
  | succ n ih =>
    unfold takenFrom
    rw [if_neg (by simp [h start (Nat.le_refl _) (by omega)])]
    exact ih _ fun k h1 h2 => h k (by omega) (by omega)

/-- What the conflict test sees of a family whose rows are open. -/
def ViewOpen (start n : Nat) (v : RowView) : Prop :=
  v.state = .good ∧ ∀ k, start ≤ k → k < start + n → cellAt v.cells k = .free

theorem testOutcome_open (b : Book) (ed : Edition) (d : Date) (start count buf : Nat) (vs : List RowView)
    (h : ∀ v ∈ vs, ViewOpen start (count + buf) v) : b.testOutcome ed d start count buf vs = none := by
  have h1 : vs.find? RowView.lost = none := by
    rw [List.find?_eq_none]; intro v hv; simp [RowView.lost, (h v hv).1]
  have h2 : (vs.find? fun v => v.state == .rebuilding) = none := by
    rw [List.find?_eq_none]; intro v hv; simp [(h v hv).1]
  have h3 : firstTaken start (count + buf) vs = none := by
    clear h1 h2
    induction vs with
    | nil => rfl
    | cons v l ih =>
      unfold firstTaken
      rw [takenFrom_open _ _ _ (h v (by simp)).2]
      exact ih fun w hw => h w (by simp [hw])
  simp [Book.testOutcome, h1, h2, h3]

theorem RowsOpen.views {b : Book} {room : Nat} {d : Date} {start n : Nat} (h : RowsOpen b room d start n) :
    ∀ v ∈ b.testViews .live room d none, ViewOpen start n v := by
  intro v hv
  unfold Book.testViews at hv
  simp only [List.mem_map, List.mem_filterMap] at hv
  obtain ⟨w, ⟨x, hx, hw⟩, rfl⟩ := hv
  obtain ⟨r, h1, _, _, h4, _, h6⟩ := h x hx
  simp [Book.view, Book.draftView, h1] at hw
  subst hw
  exact ⟨by simp [RowView.without, h4, RowState.view], h6⟩

/-- R24, R25: a claim with no excluded record passes the test on open rows. -/
theorem RowsOpen.conflict {b : Book} {room : Nat} {d : Date} {start count buf : Nat}
    (h : RowsOpen b room d start (count + buf)) (hs : StoreSound b) :
    b.tryConflict .live room d start count buf none = .ok b := by
  unfold Book.tryConflict
  rw [Book.readFamily_sound hs]
  simp only [Book.conflict, testOutcome_open _ _ _ _ _ _ _ h.views]

theorem RowsOpen.stands {b : Book} {room : Nat} {d : Date} {start n : Nat} (h : RowsOpen b room d start n) :
    ∀ x ∈ rowFamily b.bke.rooms room, ∃ r, Stands b.bke.rows x d r := by
  intro x hx
  obtain ⟨r, h1, h2, h3, h4, h5, _⟩ := h x hx
  exact ⟨r, h1, h2, h3, h4, h5⟩

/-! ## The cells a record covers -/

@[simp] theorem applyPatches_length (l : List Patch) (c : List Cell) : (applyPatches l c).length = c.length := by
  induction l generalizing c with
  | nil => rfl
  | cons p l ih => simp only [applyPatches, List.foldl_cons] at ih ⊢; rw [ih]; simp

@[simp] theorem freePatches_length (l : List Patch) (c : List Cell) : (freePatches l c).length = c.length := by
  induction l generalizing c with
  | nil => rfl
  | cons p l ih => simp only [freePatches, List.foldl_cons] at ih ⊢; rw [ih]; simp

/-- R20: cell `k` of row `x` after the cover of `r` is written. -/
def Record.written (r : Record) (x k : Nat) (old : Cell) : Cell :=
  if r.bufState = .reserved ∧ r.start + r.count ≤ k ∧ k < r.start + r.count + r.bufSlots then .buffer
  else if r.state.active = true ∧ r.start ≤ k ∧ k < r.start + r.count then r.spanCell x
  else old

/-- R20: cell `k` after the cover of `r` is freed. -/
def Record.cleared (r : Record) (k : Nat) (old : Cell) : Cell :=
  if r.bufState = .reserved ∧ r.start + r.count ≤ k ∧ k < r.start + r.count + r.bufSlots then .free
  else if r.state.active = true ∧ r.start ≤ k ∧ k < r.start + r.count then .free
  else old

theorem cellAt_cover (r : Record) (x k : Nat) (c : List Cell) (hk : k < c.length) :
    cellAt (applyPatches (r.patches x) c) k = r.written x k (cellAt c k) := by
  by_cases h1 : r.state.active = true <;> by_cases h2 : r.bufState = .reserved <;>
    simp [Record.patches, Record.spanPatch, Record.bufferPatch, applyPatches, Record.written, cellAt_paint, h1, h2, hk]

theorem cellAt_uncover (r : Record) (x k : Nat) (c : List Cell) (hk : k < c.length) :
    cellAt (freePatches (r.patches x) c) k = r.cleared k (cellAt c k) := by
  by_cases h1 : r.state.active = true <;> by_cases h2 : r.bufState = .reserved <;>
    simp [Record.patches, Record.spanPatch, Record.bufferPatch, freePatches, Record.cleared, cellAt_paint, h1, h2, hk]

/-- R20: the rows of the family after the cover of `r` is written on rows that stand. -/
theorem Record.cover_rows (r : Record) (l : List Nat) (t : Table Row) (ht : ∀ x ∈ l, ∃ y, Stands t x r.date y) :
    (∀ x y, Stands t x r.date y →
      ∃ y', Stands (paintRows t l r.date fun x => applyPatches (r.patches x)) x r.date y' ∧ y'.version = y.version ∧
        (x ∉ l → y' = y) ∧ (x ∈ l → ∀ k, k < 64 → cellAt y'.cells k = r.written x k (cellAt y.cells k))) ∧
    (∀ k, (∀ y ∈ l, rowKey y r.date ≠ k) →
      (paintRows t l r.date fun x => applyPatches (r.patches x)).find k = t.find k) := by
  apply paintRows_spec (g := r.written)
  · intro x c; simp
  · intro x c k hc hk; exact cellAt_cover r x k c (by omega)
  · intro x k c; unfold Record.written; split <;> first | rfl | (split <;> rfl)
  · exact ht

/-- R20: the rows of the family after the cover of `r` is freed on rows that stand. -/
theorem Record.uncover_rows (r : Record) (l : List Nat) (t : Table Row) (ht : ∀ x ∈ l, ∃ y, Stands t x r.date y) :
    (∀ x y, Stands t x r.date y →
      ∃ y', Stands (paintRows t l r.date fun x => freePatches (r.patches x)) x r.date y' ∧ y'.version = y.version ∧
        (x ∉ l → y' = y) ∧ (x ∈ l → ∀ k, k < 64 → cellAt y'.cells k = r.cleared k (cellAt y.cells k))) ∧
    (∀ k, (∀ y ∈ l, rowKey y r.date ≠ k) →
      (paintRows t l r.date fun x => freePatches (r.patches x)).find k = t.find k) := by
  apply paintRows_spec (g := fun _ => r.cleared)
  · intro x c; simp
  · intro x c k hc hk; exact cellAt_uncover r x k c (by omega)
  · intro x k c; simp only [Record.cleared]; split <;> first | rfl | (split <;> rfl)
  · exact ht

end Sys2Proof.Machine
end

