-- ==== Sys2Proof/Laws/Conflicts.lean ====
section
/-! SUPPORT. The conflict test (R24, R25): when it passes, what it answers when it refuses, and that a claim it refuses
changes nothing. -/

namespace Sys2Proof.Machine

/-! ## The records of the table -/

theorem findKey_mem {α : Type} {k : Nat} {a : α} {l : List (Nat × α)} (h : findKey k l = some a) : (k, a) ∈ l := by
  induction l with
  | nil => simp [findKey] at h
  | cons p l ih =>
    obtain ⟨i, x⟩ := p
    unfold findKey at h
    split at h
    · simp_all
    · exact List.mem_cons_of_mem _ (ih h)

theorem risingFrom_low {α : Type} {l : List (Nat × α)} {low k : Nat} {a : α} (h : risingFrom low l = true)
    (hm : (k, a) ∈ l) : low ≤ k := by
  induction l generalizing low with
  | nil => simp at hm
  | cons p l ih =>
    obtain ⟨i, x⟩ := p
    simp only [risingFrom, Bool.and_eq_true, decide_eq_true_eq] at h
    rcases List.mem_cons.mp hm with e | e
    · cases e; exact h.1
    · have := ih h.2 e; omega

theorem findKey_of_mem {α : Type} {l : List (Nat × α)} {low k : Nat} {a : α} (h : risingFrom low l = true)
    (hm : (k, a) ∈ l) : findKey k l = some a := by
  induction l generalizing low with
  | nil => simp at hm
  | cons p l ih =>
    obtain ⟨i, x⟩ := p
    simp only [risingFrom, Bool.and_eq_true, decide_eq_true_eq] at h
    rcases List.mem_cons.mp hm with e | e
    · cases e; simp [findKey]
    · have hk := risingFrom_low h.2 e
      have hne : i ≠ k := by omega
      simp [findKey, hne, ih h.2 e]

/-- A canonical table lists what it finds. -/
theorem Table.mem_entries {α : Type} {t : Table α} (h : t.wf = true) (k : Nat) (a : α) :
    (k, a) ∈ t.entries ↔ t.find k = some a :=
  ⟨findKey_of_mem h, findKey_mem⟩

/-- R32: the SOUND records of a canonical table, with their slots. -/
theorem mem_sound {b : Book} (h : b.bke.records.wf = true) (m : Nat) (q : Record) :
    (m, q) ∈ b.sound ↔ b.slot m = some (.sound q) := by
  unfold Book.sound Book.slot
  rw [← Table.mem_entries h]
  simp only [List.mem_filterMap]
  constructor
  · rintro ⟨⟨k, x⟩, hm, hx⟩
    cases x <;> simp_all
  · intro hm
    exact ⟨_, hm, rfl⟩

theorem risingFrom_pairwise {α : Type} {l : List (Nat × α)} {low : Nat} (h : risingFrom low l = true) :
    l.Pairwise fun x y => x.1 < y.1 := by
  induction l generalizing low with
  | nil => exact .nil
  | cons p l ih =>
    obtain ⟨i, x⟩ := p
    simp only [risingFrom, Bool.and_eq_true, decide_eq_true_eq] at h
    exact .cons (fun y hy => risingFrom_low (k := y.1) (a := y.2) h.2 hy) (ih h.2)

/-- The SOUND records of a canonical table come by rising record slot. -/
theorem sound_rising {b : Book} (h : b.bke.records.wf = true) : b.sound.Pairwise fun x y => x.1 < y.1 := by
  unfold Book.sound
  refine List.Pairwise.filterMap _ (fun x y hxy u hu v hv => ?_) (risingFrom_pairwise h)
  obtain ⟨i, x⟩ := x
  obtain ⟨j, y⟩ := y
  cases x <;> cases y <;> simp_all
  rw [← hu, ← hv]
  exact hxy

/-- What is found in a list by rising number has the lowest number of all that pass. -/
theorem find_lowest {α : Type} {l : List (Nat × α)} {p : Nat × α → Bool} {x y : Nat × α}
    (hl : l.Pairwise fun x y => x.1 < y.1) (hf : l.find? p = some x) (hy : y ∈ l) (hp : p y = true) : x.1 ≤ y.1 := by
  obtain ⟨_, before, behind, rfl, hb⟩ := List.find?_eq_some_iff_append.mp hf
  rcases List.mem_append.mp hy with h | h
  · simp at hb
    exact absurd hp (by simpa using hb _ _ h)
  · rcases List.mem_cons.mp h with rfl | h
    · exact Nat.le_refl _
    · exact Nat.le_of_lt ((List.pairwise_cons.mp (List.pairwise_append.mp hl).2.1).1 y h)

/-! ## What the test sees -/

/-- R76: the row as the test sees it. -/
def testView (b : Book) (ed : Edition) (d : Date) (excl : Option Record) (x : Nat) : Option RowView :=
  (rowTested b ed x d).map fun p => RowView.without b.bke.rooms d excl { room := x, state := p.1.view, cells := p.2 }

theorem view_tested {b : Book} {ed : Edition} {room x : Nat} {d : Date} (h : DraftsWhole b ed room d)
    (hx : x ∈ rowFamily b.bke.rooms room) :
    b.view ed d x = (rowTested b ed x d).map fun p => { room := x, state := p.1.view, cells := p.2 } := by
  unfold Book.view Book.draftView rowTested
  cases ed
  · simp only [reduceCtorEq, if_false]
    cases b.row x d <;> rfl
  · simp only [if_true]
    cases hz : b.draftRow x d with
    | none => simp only [Option.map_map]; rfl
    | some z => simp [h rfl x hx z hz, RowState.view]

theorem testViews_tested {b : Book} {ed : Edition} {room : Nat} {d : Date} (h : DraftsWhole b ed room d)
    (excl : Option Record) :
    b.testViews ed room d excl = (rowFamily b.bke.rooms room).filterMap (testView b ed d excl) := by
  unfold Book.testViews testView
  rw [List.map_filterMap]
  refine List.filterMap_congr fun x hx => ?_
  rw [view_tested h hx, Option.map_map]
  rfl

@[simp] theorem without_room (t : Table Room) (d : Date) (e : Option Record) (v : RowView) :
    (v.without t d e).room = v.room := by
  unfold RowView.without
  split
  · rfl
  · split <;> rfl

@[simp] theorem without_state (t : Table Room) (d : Date) (e : Option Record) (v : RowView) :
    (v.without t d e).state = v.state := by
  unfold RowView.without
  split
  · rfl
  · split <;> rfl

theorem cellAt_beyond {c : List Cell} {k : Nat} (h : c.length ≤ k) : cellAt c k = .free := by
  simp [cellAt, List.getElem?_eq_none h]

/-- R24: the cells the test sees: those of the excluded record count as FREE. -/
theorem without_cell (b : Book) (d : Date) (e : Option Record) (v : RowView) (k : Nat) :
    (cellAt (v.without b.bke.rooms d e).cells k ≠ .free ↔ CellTaken b e v.room d v.cells k) ∧
      (CellTaken b e v.room d v.cells k → cellAt (v.without b.bke.rooms d e).cells k = cellAt v.cells k) := by
  unfold RowView.without CellTaken
  cases e with
  | none => simp
  | some r =>
    dsimp only
    by_cases hd : r.date = d
    · by_cases hf : v.room ∈ rowFamily b.bke.rooms r.room
      · rw [if_pos (by simp [hd, hf])]
        by_cases hk : k < v.cells.length
        · simp only [cellAt_uncover r v.room k v.cells hk, Record.cleared, Option.some.injEq, forall_eq', hd, hf,
            forall_const, CoversAt]
          by_cases h1 : r.bufState = .reserved ∧ r.start + r.count ≤ k ∧ k < r.start + r.count + r.bufSlots
          · simp [h1]
          · by_cases h2 : r.state.active = true ∧ r.start ≤ k ∧ k < r.start + r.count
            · simp [h1, h2]
            · simp [h1, h2]
        · have hl : (freePatches (r.patches v.room) v.cells).length ≤ k := by simp; omega
          simp [cellAt_beyond (Nat.le_of_not_lt hk), cellAt_beyond hl]
      · rw [if_neg (by simp [hf])]
        simp [hf]
    · rw [if_neg (by simp [hd])]
      simp [hd]

/-! ## Lists of rows -/

theorem filterMap_find {α β : Type} {f : α → Option β} {p : β → Bool} {l l' : List α} {x : α} {v : β} (hx : f x = some v)
    (hp : p v = true) (hl : ∀ y ∈ l, ∀ w, f y = some w → p w = false) :
    ((l ++ x :: l').filterMap f).find? p = some v := by
  induction l with
  | nil => simp [hx, hp]
  | cons y l ih =>
    have ih := ih fun z hz => hl z (by simp [hz])
    simp only [List.cons_append, List.filterMap_cons]
    cases hy : f y with
    | none => exact ih
    | some w => simp only [List.find?_cons, hl y (by simp) w hy]; exact ih

theorem takenFrom_some {c : List Cell} {s n k : Nat} (h1 : s ≤ k) (h2 : k < s + n) (h3 : cellAt c k ≠ .free)
    (h4 : ∀ j, s ≤ j → j < k → cellAt c j = .free) : takenFrom c s n = some k := by
  induction n generalizing s with
  | zero => omega
  | succ n ih =>
    unfold takenFrom
    by_cases hs : s = k
    · subst hs; simp [h3]
    · rw [if_neg (by simp [h4 s (Nat.le_refl _) (by omega)])]
      exact ih (by omega) (by omega) fun j a b => h4 j (by omega) b

theorem takenFrom_none {c : List Cell} {s n : Nat} :
    takenFrom c s n = none ↔ ∀ k, s ≤ k → k < s + n → cellAt c k = .free := by
  refine ⟨?_, takenFrom_open c s n⟩
  induction n generalizing s with
  | zero => intro _ k a b; omega
  | succ n ih =>
    unfold takenFrom
    split
    · simp
    · rename_i hf
      intro h k a b
      by_cases hk : k = s
      · subst hk; simpa using hf
      · exact ih h k (by omega) (by omega)

theorem firstTaken_none {s n : Nat} {l : List RowView} :
    firstTaken s n l = none ↔ ∀ v ∈ l, takenFrom v.cells s n = none := by
  induction l with
  | nil => simp [firstTaken]
  | cons v l ih =>
    unfold firstTaken
    split
    · simp [*]
    · simp [*]

theorem firstTaken_some {α : Type} {f : α → Option RowView} {l l' : List α} {x : α} {v : RowView} {s n k : Nat}
    (hx : f x = some v) (hk : takenFrom v.cells s n = some k)
    (hl : ∀ y ∈ l, ∀ w, f y = some w → takenFrom w.cells s n = none) :
    firstTaken s n ((l ++ x :: l').filterMap f) = some (v, k) := by
  induction l with
  | nil => simp [hx, firstTaken, hk]
  | cons y l ih =>
    have ih := ih fun z hz => hl z (by simp [hz])
    simp only [List.cons_append, List.filterMap_cons]
    cases hy : f y with
    | none => exact ih
    | some w => simp only [firstTaken, hl y (by simp) w hy]; exact ih

/-- The row a test sees is the row of the edition. -/
theorem testView_some {b : Book} {ed : Edition} {d : Date} {e : Option Record} {x : Nat} {v : RowView}
    (h : testView b ed d e x = some v) :
    ∃ st cells, rowTested b ed x d = some (st, cells) ∧ v.state = st.view ∧ v.room = x ∧
      ∀ k, (cellAt v.cells k ≠ .free ↔ CellTaken b e x d cells k) ∧
        (CellTaken b e x d cells k → cellAt v.cells k = cellAt cells k) := by
  unfold testView at h
  cases hr : rowTested b ed x d with
  | none => simp [hr] at h
  | some p =>
    simp only [hr, Option.map_some, Option.some.injEq] at h
    subst h
    exact ⟨p.1, p.2, rfl, by simp, by simp, fun k => without_cell b d e _ k⟩

theorem testView_of {b : Book} {ed : Edition} {d : Date} {x : Nat} {st : RowState} {cells : List Cell}
    (e : Option Record) (h : rowTested b ed x d = some (st, cells)) :
    ∃ v, testView b ed d e x = some v ∧ v.state = st.view ∧ v.room = x ∧
      ∀ k, (cellAt v.cells k ≠ .free ↔ CellTaken b e x d cells k) ∧
        (CellTaken b e x d cells k → cellAt v.cells k = cellAt cells k) :=
  ⟨_, by unfold testView; rw [h]; rfl, by simp, by simp, fun k => without_cell b d e _ k⟩

theorem takenFrom_rowTaken {b : Book} {e : Option Record} {d : Date} {x : Nat} {cells : List Cell} {v : RowView}
    (hv : ∀ k, (cellAt v.cells k ≠ .free ↔ CellTaken b e x d cells k)) (s n : Nat) :
    takenFrom v.cells s n = none ↔ ¬RowTaken b e d s n x cells := by
  rw [takenFrom_none]
  unfold RowTaken
  constructor
  · rintro h ⟨k, h1, h2, h3⟩
    exact (hv k).mpr h3 (h k h1 h2)
  · intro h k h1 h2
    by_contra hc
    exact h ⟨k, h1, h2, (hv k).mp hc⟩

/-- R25: no row seen has a taken cell just where none of the rows has. -/
theorem firstTaken_all {b : Book} {ed : Edition} {d : Date} {e : Option Record} (room s n : Nat) :
    firstTaken s n ((rowFamily b.bke.rooms room).filterMap (testView b ed d e)) = none ↔
      AllTested b ed room d fun y _ cs => ¬RowTaken b e d s n y cs := by
  rw [firstTaken_none]
  unfold AllTested
  constructor
  · intro h x hx st cells hr
    obtain ⟨v, hv, _, _, hc⟩ := testView_of e hr
    exact (takenFrom_rowTaken (fun k => (hc k).1) s n).mp (h v (List.mem_filterMap.mpr ⟨x, hx, hv⟩))
  · intro h v hm
    obtain ⟨x, hx, hv⟩ := List.mem_filterMap.mp hm
    obtain ⟨st, cells, hr, _, _, hc⟩ := testView_some hv
    exact (takenFrom_rowTaken (fun k => (hc k).1) s n).mpr (h x hx st cells hr)

/-! ## The outcome -/

theorem view_lost {v : RowView} {st : RowState} (h : v.state = st.view) : v.lost = decide (st = .quarantined) := by
  unfold RowView.lost
  rw [h]
  cases st <;> decide

theorem view_rebuilding {v : RowView} {st : RowState} (h : v.state = st.view) :
    (v.state == .rebuilding) = decide (st = .rebuilding) := by
  rw [h]
  cases st <;> decide

theorem find_all {b : Book} {ed : Edition} {d : Date} {e : Option Record} {room : Nat} {p : RowView → Bool}
    {s : RowState} (hp : ∀ v st, v.state = RowState.view st → p v = decide (st = s)) :
    ((rowFamily b.bke.rooms room).filterMap (testView b ed d e)).find? p = none ↔
      AllTested b ed room d fun _ st _ => st ≠ s := by
  rw [List.find?_eq_none]
  unfold AllTested
  constructor
  · intro h x hx st cells hr
    obtain ⟨v, hv, hs, _, _⟩ := testView_of e hr
    have := h v (List.mem_filterMap.mpr ⟨x, hx, hv⟩)
    simpa [hp v st hs] using this
  · intro h v hm
    obtain ⟨x, hx, hv⟩ := List.mem_filterMap.mp hm
    obtain ⟨st, cells, hr, hs, _, _⟩ := testView_some hv
    simpa [hp v st hs] using h x hx st cells hr

theorem find_first {b : Book} {ed : Edition} {d : Date} {e : Option Record} {room x : Nat} {cells : List Cell}
    {p : RowView → Bool} {s : RowState} (hp : ∀ v st, v.state = RowState.view st → p v = decide (st = s))
    (h : FirstTested b ed room d (fun _ st _ => st = s) x cells) :
    ∃ v, ((rowFamily b.bke.rooms room).filterMap (testView b ed d e)).find? p = some v ∧ v.room = x ∧
      v.state = s.view := by
  obtain ⟨l, l', st, hf, hr, rfl, hl⟩ := h
  obtain ⟨v, hv, hs, hx, _⟩ := testView_of e hr
  refine ⟨v, ?_, hx, hs⟩
  rw [hf]
  refine filterMap_find hv (by simp [hp v st hs]) ?_
  intro y hy w hw
  obtain ⟨st', cs, hr', hs', _, _⟩ := testView_some hw
  simpa [hp w st' hs'] using hl y hy st' cs hr'

theorem good_of_states {b : Book} {ed : Edition} {room : Nat} {d : Date} :
    AllTested b ed room d (fun _ st _ => st = .good) ↔
      AllTested b ed room d (fun _ st _ => st ≠ .quarantined) ∧
        AllTested b ed room d (fun _ st _ => st ≠ .rebuilding) := by
  unfold AllTested
  constructor
  · intro h
    exact ⟨fun x hx st c hr => by simp [h x hx st c hr], fun x hx st c hr => by simp [h x hx st c hr]⟩
  · rintro ⟨h1, h2⟩ x hx st c hr
    have := h1 x hx st c hr
    have := h2 x hx st c hr
    cases st <;> simp_all

/-- R24, R25: the test passes just where every row is GOOD and no tested cell is taken. -/
theorem conflict_passes {b : Book} {ed : Edition} {room : Nat} {d : Date} (h : DraftsWhole b ed room d)
    (start count buf : Nat) (excl : Option Record) :
    b.conflict ed room d start count buf excl = none ↔ TestPasses b ed room d start (count + buf) excl := by
  have hl := find_all (b := b) (ed := ed) (d := d) (e := excl) (room := room) (p := RowView.lost)
    fun v st hv => view_lost hv
  have hr := find_all (b := b) (ed := ed) (d := d) (e := excl) (room := room) (p := fun v => v.state == .rebuilding)
    fun v st hv => view_rebuilding hv
  have hf := firstTaken_all (b := b) (ed := ed) (d := d) (e := excl) room start (count + buf)
  have hp : TestPasses b ed room d start (count + buf) excl ↔
      (AllTested b ed room d (fun _ st _ => st ≠ .quarantined) ∧
        AllTested b ed room d (fun _ st _ => st ≠ .rebuilding)) ∧
      AllTested b ed room d (fun y _ cs => ¬RowTaken b excl d start (count + buf) y cs) := by
    rw [← good_of_states]
    unfold TestPasses AllTested
    exact ⟨fun h => ⟨fun x hx st c hr => (h x hx st c hr).1, fun x hx st c hr => (h x hx st c hr).2⟩,
      fun h x hx st c hr => ⟨h.1 x hx st c hr, h.2 x hx st c hr⟩⟩
  rw [hp, ← hl, ← hr, ← hf]
  unfold Book.conflict Book.testOutcome
  rw [testViews_tested h]
  split
  · simp [*]
  · split
    · simp [*]
    · split <;> simp [*]

/-- R24: what `CoversAt` says is what a record covers. -/
theorem coversCell_iff (q : Record) (x k : Nat) : q.coversCell x k = true ↔ CoversAt q k := by
  unfold Record.coversCell Record.patches Record.spanPatch Record.bufferPatch CoversAt Patch.has
  by_cases h1 : q.state.active = true <;> by_cases h2 : q.bufState = .reserved <;> simp [h1, h2]

/-- R25: the id that a CONFLICT names is settled for every cell. -/
theorem coveredBy_exists (b : Book) (ed : Edition) (x : Nat) (d : Date) (k : Nat) : ∃ id, CoveredBy b ed x d k id := by
  classical
  by_cases h : ∃ m q, b.slot m = some (.sound q) ∧ inView ed q = true ∧ q.date = d ∧
      x ∈ rowFamily b.bke.rooms q.room ∧ CoversAt q k
  · obtain ⟨q, hq⟩ := Nat.find_spec h
    refine ⟨some q.id, fun m p hp hlow => ?_, fun hn => absurd hq (hn _ q)⟩
    have hm : m = Nat.find h := Nat.le_antisymm (hlow _ q hq) (Nat.find_min' h ⟨p, hp⟩)
    subst hm
    rw [hq.1] at hp
    cases hp.1
    rfl
  · exact ⟨none, fun m q hq _ => absurd ⟨m, q, hq⟩ h, fun _ => rfl⟩

/-- R25: the covering id that the answer names. -/
theorem CoveredBy.cover {b : Book} {ed : Edition} {x k : Nat} {d : Date} {id : Option Nat}
    (hw : b.bke.records.wf = true) (h : CoveredBy b ed x d k id) : b.coverOf ed d x k = id := by
  have hm : ∀ m q, (m, q) ∈ b.writersOf ed d x ∧ q.coversCell x k = true ↔
      b.slot m = some (.sound q) ∧ inView ed q = true ∧ q.date = d ∧ x ∈ rowFamily b.bke.rooms q.room ∧
        CoversAt q k := by
    intro m q
    unfold Book.writersOf
    rw [List.mem_filter, mem_sound hw, coversCell_iff]
    simp [and_assoc]
  unfold Book.coverOf
  cases hf : (b.writersOf ed d x).find? fun p => p.2.coversCell x k with
  | none =>
    refine (h.2 fun m q hq => ?_).symm
    obtain ⟨h1, h2⟩ := (hm m q).mpr hq
    exact absurd h2 (by simpa using List.find?_eq_none.mp hf _ h1)
  | some p =>
    have h1 := List.mem_of_find?_eq_some hf
    have h2 := List.find?_some hf
    have hlow : ∀ y ∈ b.writersOf ed d x, y.2.coversCell x k = true → p.1 ≤ y.1 := fun y hy hc =>
      find_lowest ((sound_rising hw).filter _) hf hy hc
    refine (h.1 p.1 p.2 ((hm p.1 p.2).mp ⟨h1, h2⟩) fun m q hq => ?_).symm
    obtain ⟨h3, h4⟩ := (hm m q).mpr hq
    exact hlow (m, q) h3 h4

/-- R25: what the test answers when it refuses. -/
theorem TestRefuses.answer {b : Book} {ed : Edition} {room : Nat} {d : Date} {start count buf : Nat}
    {excl : Option Record} {a : Answer} (hw : b.bke.records.wf = true)
    (hd : DraftsWhole b ed room d)
    (h : TestRefuses b ed room d start count buf excl a) : b.conflict ed room d start count buf excl = some a := by
  have hl := find_all (b := b) (ed := ed) (d := d) (e := excl) (room := room) (p := RowView.lost)
    fun v st hv => view_lost hv
  have hr := find_all (b := b) (ed := ed) (d := d) (e := excl) (room := room) (p := fun v => v.state == .rebuilding)
    fun v st hv => view_rebuilding hv
  unfold Book.conflict Book.testOutcome
  rw [testViews_tested hd]
  cases h with
  | quarantined x cells hx =>
    obtain ⟨v, hv, hx, hs⟩ := find_first (e := excl) (p := RowView.lost) (fun v st hv => view_lost hv) hx
    rw [hv]
    simp [Book.lostAnswer, Book.refuseRoom, hx, hs, RowState.view]
  | rebuilding x cells hq hx =>
    obtain ⟨v, hv, hx, hs⟩ := find_first (e := excl) (p := fun v => v.state == .rebuilding)
      (fun v st hv => view_rebuilding hv) hx
    rw [hl.mpr hq, hv]
    simp [Book.refuseRoom, hx]
  | conflict x k cells id detail hg hx hsk hk hlow hc hbuf hspan =>
    obtain ⟨hq, hb⟩ := good_of_states.mp hg
    have hcover := hc.cover hw
    have hall := firstTaken_all (b := b) (ed := ed) (d := d) (e := excl) room start count
    obtain ⟨l, l', st, hf, hx, ht, hfirst⟩ := hx
    obtain ⟨v, hv, _, hvx, hcell⟩ := testView_of excl hx
    obtain ⟨k', h1, h2, h3⟩ := ht
    have hle : k ≤ k' := by
      by_contra hn
      exact hlow k' h1 (by omega) h3
    have htk : takenFrom v.cells start (count + buf) = some k := by
      refine takenFrom_some hsk (by omega) ((hcell k).1.mpr hk) fun j a c => ?_
      by_contra hn
      exact hlow j a c ((hcell j).1.mp hn)
    have hft : firstTaken start (count + buf) ((rowFamily b.bke.rooms room).filterMap (testView b ed d excl)) =
        some (v, k) := by
      rw [hf]
      refine firstTaken_some hv htk fun y hy w hw => ?_
      obtain ⟨st', cs, hr', _, _, hc'⟩ := testView_some hw
      exact (takenFrom_rowTaken (fun j => (hc' j).1) _ _).mpr (hfirst y hy st' cs hr')
    rw [hl.mpr hq, hr.mpr hb]
    simp only [hft, hvx, hcover, (hcell k).2 hk]
    congr 3
    split
    · rename_i hs
      refine (hspan fun hn => ?_).symm
      rw [← hall] at hn
      simp [hn] at hs
    · rename_i hs
      refine (hbuf ?_).symm
      rw [← hall]
      simpa using hs

/-- R25: a claim that the test refuses ends with the answer, and leaves the book as it is. -/
theorem TestRefuses.refused {b : Book} {ed : Edition} {room : Nat} {d : Date} {start count buf : Nat}
    {excl : Option Record} {a : Answer} (hb : TestReady b ed room d)
    (h : TestRefuses b ed room d start count buf excl a) :
    b.tryConflict ed room d start count buf excl = .error (b, a) := by
  have ha := h.answer hb.wf hb.drafts
  unfold Book.tryConflict
  simp only [Book.readFamily_sound hb.sound, ha]
  unfold Book.refuseConflict
  split
  · rename_i c _
    have hr : b.tryRecords (b.coverReads ed d c.room c.slot) = .ok b := by
      refine Book.tryRecords_sound hb.sound _ fun n hn => ?_
      unfold Book.coverReads at hn
      obtain ⟨p, hp, rfl⟩ := List.mem_map.mp hn
      have hp := (List.mem_filter.mp (List.mem_of_mem_take hp)).1
      simp [Book.soundAt, (mem_sound hb.wf p.1 p.2).mp hp]
    rw [hr]
    rfl
  · rfl

/-- A request that is taken leaves what the test sees. -/
theorem TestRefuses.taken {b : Book} {ed : Edition} {room : Nat} {d : Date} {start count buf : Nat}
    {excl : Option Record} {a : Answer} (h : TestRefuses b ed room d start count buf excl a) (m : Mail) :
    TestRefuses (b.withMail m) ed room d start count buf excl a := by
  cases h with
  | quarantined x cells h => exact .quarantined x cells h
  | rebuilding x cells h h' => exact .rebuilding x cells h h'
  | conflict x k cells id detail a b c d e f g h => exact .conflict x k cells id detail a b c d e f g h

theorem TestReady.taken {b : Book} {ed : Edition} {room : Nat} {d : Date} (h : TestReady b ed room d) (m : Mail) :
    TestReady (b.withMail m) ed room d := ⟨h.sound, h.wf, h.draft, h.drafts⟩

/-- R25: a request whose claim ends with an answer on the book as it was is refused. -/
theorem ClaimRefused.of_claim {s t : State} {c : Ctx} {rest : List Handed} {a : Answer}
    {op : Book → Attempt (Book × Answer)} (ho : op (s.book.withRequests rest) = .error (s.book.withRequests rest, a))
    (ht : t = { s with book := (s.book.withRequests rest).answerClaim c op }) : ClaimRefused s t c rest a := by
  subst ht
  have hrow : ∀ k, (((s.book.withRequests rest).bumpRows s.book.bke.rows).bke.rows.find k) = s.book.bke.rows.find k := by
    intro k
    rw [Book.bumpRows_find]
    show (s.book.bke.rows.find k).map _ = _
    cases s.book.bke.rows.find k <;> simp
  have hb : (s.book.withRequests rest).answerClaim c op =
      ((s.book.withRequests rest).bumpRows s.book.bke.rows).reply c a := by
    unfold Book.answerClaim
    rw [ho]
    rfl
  refine ⟨⟨rfl, rfl, rfl, rfl, ?_, ?_, ?_, ⟨?_, ?_⟩, ?_⟩, ?_, ?_⟩
  · show Book.bss _ = _; rw [hb]; simp; rfl
  · show Book.squ _ = _; rw [hb]; simp; rfl
  · show Book.csc _ = _; rw [hb]; simp; rfl
  · show Book.bke _ = _; rw [hb]; simp; rfl
  · intro x d; show Book.row _ x d = _; rw [hb]; unfold Book.row; rw [Book.reply_bke]; exact hrow _
  · rw [hb]; exact ⟨by simp; rfl, by simp; rfl, by simp; rfl, by simp; rfl, by simp; rfl⟩
  · show Book.mail _ = _; rw [hb]; simp; rfl
  · exact Book.reply_replied s _ _ c a hb rfl

/-- R25, R125: a panel claim that ends with a refusal on the book as it was is refused. -/
theorem PanelRefused.of_claim {s t : State} {c : PanelClaim} {rest : List PanelClaim} {a : Answer} {id : Option Nat}
    {f : PanelClaim → Book → Option (Book × PanelResult)} (hm : s.book.mail.ppuToBke = c :: rest)
    (hf : f c (s.book.withMail { s.book.mail with ppuToBke := rest }) =
      some (s.book.withMail { s.book.mail with ppuToBke := rest }, .refused a id))
    (ha : a.toPanel = a) (ht : t = { s with book := s.book.panelClaim f }) : PanelRefused s t c rest a id := by
  subst ht
  have hrow : ∀ k, ((s.book.bumpRows s.book.bke.rows).bke.rows.find k) = s.book.bke.rows.find k := by
    intro k
    rw [Book.bumpRows_find]
    cases s.book.bke.rows.find k <;> simp
  unfold Book.panelClaim
  simp only [hm, hf, PanelResult.refused, ha]
  exact ⟨⟨rfl, rfl, rfl, rfl, rfl, rfl, rfl, ⟨rfl, fun x d => hrow _⟩, ⟨rfl, rfl, rfl, rfl, rfl⟩⟩, rfl, rfl⟩

end Sys2Proof.Machine
end

