-- ==== Sys2Proof/Laws/Frames.lean ====
section
/-! SUPPORT. The lengths of what the part sends: multi-byte values, station frames (R92) and host frames
(R180); and what a select clocks out (R179). -/

namespace Sys2Proof.Machine

@[simp] theorem natBytes_length (n k : Nat) : (natBytes n k).length = k := by
  induction k generalizing n with
  | zero => rfl
  | succ k ih => simp [natBytes, ih]

/-- R92: a frame has 6 bytes beside its body. -/
theorem stationFrame_length (address kind : Nat) (sequence : Bool) (body : List Byte) :
    (stationFrame address kind sequence body).length = body.length + 6 := by
  simp only [stationFrame, List.length_append, natBytes_length]
  omega

/-- R180: a frame whose body fits its body region is as long as its length says. -/
theorem linkFrame_length (kind code tag length credit : Nat) (mark : Mark) (body : List Byte)
    (h : body.length + 12 ≤ 16 * length) :
    (linkFrame kind code tag length credit mark body).length = 16 * length := by
  simp only [linkFrame, List.length_append, List.length_replicate, natBytes_length]
  omega

@[simp] theorem creditFrame_length (n : Nat) : (creditFrame n).length = 16 :=
  linkFrame_length 3 65 0 1 n .sole [] (by decide)

theorem bodyBytes_length (l : List Byte) : (bodyBytes l).length ≤ 116 := List.length_take_le _ _

/-- R180: the body of a queued frame fits the largest body region. -/
theorem OutFrame.body_length (f : OutFrame) : f.body.length ≤ 116 := by
  cases f <;> exact bodyBytes_length _

/-- R180: a queued frame takes 1 to 8 blocks. -/
theorem OutFrame.blocks (f : OutFrame) : blocksFor f.body.length ≤ 8 := by
  have h := f.body_length
  simp only [blocksFor]
  omega

/-- R180: the bytes of a queued frame fill its blocks. -/
theorem OutFrame.bytes_length (f : OutFrame) (credit : Nat) :
    (f.bytes credit).length = 16 * blocksFor f.body.length := by
  apply linkFrame_length
  simp only [blocksFor]
  omega

/-! ## What a select clocks out -/

@[simp] theorem ReadSelect.clocked_length (r : ReadSelect) (n : Nat) : (r.clocked n).length = n := by
  simp [ReadSelect.clocked]

/-- R179: the frame's bytes in their places, and 0 after its last. -/
theorem ReadSelect.clocked_getElem? (r : ReadSelect) (n i : Nat) (h : i < n) :
    (r.clocked n)[i]? = some ((r.bytes[i]?).getD 0) := by
  simp only [ReadSelect.clocked, List.getElem?_take, h, if_true]
  by_cases hi : i < r.bytes.length
  · rw [List.getElem?_append_left hi, List.getElem?_eq_getElem hi]; rfl
  · have hi := Nat.le_of_not_lt hi
    rw [List.getElem?_append_right hi, List.getElem?_replicate, if_pos (by omega), List.getElem?_eq_none hi]; rfl

/-- R179: with nothing to yield, zero bytes. -/
theorem ReadSelect.clocked_nothing (c n : Nat) :
    ({ yield := .nothing, credit := c } : ReadSelect).clocked n = List.replicate n 0 := by
  simp only [ReadSelect.clocked, ReadSelect.bytes, List.replicate_append_replicate, List.take_replicate]
  congr 1; omega

end Sys2Proof.Machine
end

