-- ==== Sys2Proof/Laws/Meetings.lean ====
section
/-! SUPPORT. What the operations on one record do (R42, R43, R47): nothing but its slot, the runs and the hand-overs
to other blocks. -/

namespace Sys2Proof.Machine

/-- Only the record in slot `n`, the sequence unit and what is handed on have changed. -/
structure RecordOnly (b b' : Book) (n : Nat) : Prop where
  hmp : b'.hmp = b.hmp
  cfs : b'.cfs = b.cfs
  csc : b'.csc = b.csc
  bss : b'.bss = b.bss
  bke : b'.bke = { b.bke with records := b'.bke.records }
  slots : ∀ k, k ≠ n → b'.slot k = b.slot k
  requests : b'.mail.requests = b.mail.requests

theorem RecordOnly.refl (b : Book) (n : Nat) : RecordOnly b b n := ⟨rfl, rfl, rfl, rfl, rfl, fun _ _ => rfl, rfl⟩

theorem RecordOnly.trans {a b c : Book} {n : Nat} (h : RecordOnly a b n) (k : RecordOnly b c n) : RecordOnly a c n where
  hmp := k.hmp.trans h.hmp
  cfs := k.cfs.trans h.cfs
  csc := k.csc.trans h.csc
  bss := k.bss.trans h.bss
  bke := by rw [k.bke, h.bke]
  slots := fun m hm => (k.slots m hm).trans (h.slots m hm)
  requests := k.requests.trans h.requests

theorem RecordOnly.sound {b b' : Book} {n : Nat} (h : RecordOnly b b' n) (hs : StoreSound b) : StoreSound b' := by
  unfold StoreSound; rw [h.bss]; exact hs

theorem RecordOnly.rows {b b' : Book} {n : Nat} (h : RecordOnly b b' n) : b'.bke.rows = b.bke.rows := by rw [h.bke]

theorem RecordOnly.rooms {b b' : Book} {n : Nat} (h : RecordOnly b b' n) : b'.bke.rooms = b.bke.rooms := by rw [h.bke]

theorem RecordOnly.room {b b' : Book} {n : Nat} (h : RecordOnly b b' n) (x : Nat) : b'.room x = b.room x := by
  unfold Book.room; rw [h.rooms]

theorem RecordOnly.code {b b' : Book} {n : Nat} (h : RecordOnly b b' n) (x : Nat) : b'.code x = b.code x := by
  unfold Book.code; rw [h.rooms]

theorem RecordOnly.begun {b b' : Book} {n : Nat} (h : RecordOnly b b' n) (t : Ctu) (d : Date) (x : Nat) :
    b'.begun t d x = b.begun t d x := by
  unfold Book.begun Book.isToday; rw [h.bke]

/-! ## Reports taken ahead of a change inside a claim (R43, R159) -/

/-- What a check-in report leaves as it was: which runs there are, and all that is not a run. -/
structure SameRuns (q q' : Squ) : Prop where
  keys : q'.runs.keys = q.runs.keys
  templates : q'.templates = q.templates
  lastRun : q'.lastRun = q.lastRun
  horizon : q'.horizon = q.horizon
  minute : q'.minute = q.minute

theorem SameRuns.refl (q : Squ) : SameRuns q q := ⟨rfl, rfl, rfl, rfl, rfl⟩

theorem SameRuns.trans {a b c : Squ} (h : SameRuns a b) (k : SameRuns b c) : SameRuns a c :=
  ⟨k.keys.trans h.keys, k.templates.trans h.templates, k.lastRun.trans h.lastRun, k.horizon.trans h.horizon,
    k.minute.trans h.minute⟩

theorem SameRuns.size {a b : Squ} (h : SameRuns a b) : b.runs.size = a.runs.size := by
  have hk := congrArg List.length h.keys
  simpa [Table.keys, Table.size] using hk

theorem rewriteRun_same (q : Squ) (r : Run) : SameRuns q (q.rewriteRun r) := by
  unfold Squ.rewriteRun Squ.oweFor
  split <;> exact ⟨by simp [Table.keys, Table.mapValues], rfl, rfl, rfl, rfl⟩

theorem checkinReport_same (q : Squ) (c : CheckinReport) : SameRuns q (q.checkinReport c) := by
  unfold Squ.checkinReport
  split
  · exact .refl q
  · split
    · exact .refl q
    · exact rewriteRun_same q _

theorem squTaken_same (b : Book) : SameRuns b.squ b.squTaken := by
  unfold Book.squTaken
  generalize b.squ = q
  induction b.mail.bkeToSqu generalizing q with
  | nil => exact .refl q
  | cons c l ih => exact (checkinReport_same q c).trans (ih _)

/-! ## The operations -/

/-- The run found for a change of a booking is of that booking, and is the one its record names. -/
theorem runFor_some {q : Squ} {booking : Nat} {run : Option Nat} {x : Run} (h : q.runFor booking run = some x) :
    x.booking = booking ∧ run = some x.id := by
  simpa using List.find?_some h

/-- A forget ends the record's own run and no other. -/
theorem abortLost_find {q : Squ} {y : Damaged} {x : Run} (h : q.runFor y.own y.run = some x) (k : Nat) :
    (q.abortLost y).runs.find k = if k = x.id then none else q.runs.find k := by
  unfold Squ.abortLost Squ.dropFound Squ.dropRun
  simp only [h]
  split
  · subst_vars; exact Table.find_drop_self ..
  · exact Table.find_drop_ne _ _ _ ‹_›

/-- Without a run of its own a forget leaves the SQU as it is. -/
theorem abortLost_none {q : Squ} {y : Damaged} (h : q.runFor y.own y.run = none) : q.abortLost y = q := by
  unfold Squ.abortLost Squ.dropFound
  simp only [h]

/-- The order found for a change of a booking is of that booking, and is the one its record names. -/
theorem orderFor_some {c : Csc} {booking : Nat} {order : Option Nat} {o : Order} (h : c.orderFor booking order = some o) :
    o.booking = booking ∧ ∃ id, order = some id ∧ c.orders.find id = some o := by
  unfold Csc.orderFor at h
  cases order <;> simp_all

/-- A record found lost among the slots given is DAMAGED in one of them. -/
theorem lostAmong_some {b : Book} {l : List Nat} {d : Damaged} (h : b.lostAmong l = some d) :
    ∃ n ∈ l, b.slot n = some (.damaged d) := by
  obtain ⟨n, hn, h⟩ := List.exists_of_findSome?_eq_some h
  refine ⟨n, hn, ?_⟩
  cases hs : b.slot n with
  | none => simp [hs] at h
  | some x => cases x <;> simp_all

@[simp] theorem Book.putSlot_self (b : Book) (n : Nat) (x : RecSlot) : (b.putSlot n x).slot n = some x :=
  Table.find_put_self ..

theorem Book.putRecord_sound {b : Book} (hs : StoreSound b) (n : Nat) (r : Record) :
    b.putRecord n r = b.putSlot n (.sound r) := Book.fresh_sound (by exact hs) _

theorem Book.putIndexed_sound {b : Book} (hs : StoreSound b) (n : Nat) (r : Record) :
    b.putIndexed n r = b.putSlot n (.sound r) := by
  unfold Book.putIndexed
  rw [Book.putRecord_sound hs]
  exact Book.fresh_sound (by exact hs) _

theorem putSlot_only (b : Book) (n : Nat) (x : RecSlot) : RecordOnly b (b.putSlot n x) n :=
  ⟨rfl, rfl, rfl, rfl, rfl, fun _ hm => Table.find_put_ne _ _ _ _ hm, rfl⟩

theorem putRecord_only {b : Book} (hs : StoreSound b) (n : Nat) (r : Record) : RecordOnly b (b.putRecord n r) n := by
  rw [Book.putRecord_sound hs]; exact putSlot_only ..

theorem putRecord_slot {b : Book} (hs : StoreSound b) (n : Nat) (r : Record) :
    (b.putRecord n r).slot n = some (.sound r) := by
  rw [Book.putRecord_sound hs]; simp

theorem news_only (b : Book) (n : Nat) (k : ChangeKind) (r : Record) (p : Option Nat) : RecordOnly b (b.news k r p) n :=
  ⟨rfl, rfl, rfl, rfl, rfl, fun _ _ => rfl, rfl⟩

theorem tellCsc_only (b : Book) (n i : Nat) (c : CscChange) : RecordOnly b (b.tellCsc i c) n :=
  ⟨rfl, rfl, rfl, rfl, rfl, fun _ _ => rfl, rfl⟩

theorem tellSqu_only (b : Book) (n : Nat) (r : Record) (m : Nat) : RecordOnly b (b.tellSqu r m) n :=
  ⟨rfl, rfl, rfl, rfl, rfl, fun _ _ => rfl, rfl⟩

theorem anchorEarly_only (b : Book) (n : Nat) (r : Record) (m : Nat) : RecordOnly b (b.anchorEarly r m) n := by
  unfold Book.anchorEarly
  split
  · exact tellSqu_only b n r m
  · exact .refl b n

@[simp] theorem anchorEarly_slot (b : Book) (r : Record) (m n : Nat) : (b.anchorEarly r m).slot n = b.slot n := by
  unfold Book.anchorEarly
  split <;> rfl

theorem withSqu_only (b : Book) (n : Nat) (q : Squ) : RecordOnly b (b.withSqu q) n :=
  ⟨rfl, rfl, rfl, rfl, rfl, fun _ _ => rfl, rfl⟩

theorem inClaim_only (b : Book) (n : Nat) (f : Squ → Squ) : RecordOnly b (b.inClaim f) n :=
  ⟨rfl, rfl, rfl, rfl, rfl, fun _ _ => rfl, rfl⟩

/-- R42, R155: the run of a record, when its room has a template. -/
theorem makeRun_spec {b : Book} {n : Nat} {r : Record} (hs : StoreSound b) (hr : b.slot n = some (.sound r))
    (m : Option Nat) :
    RecordOnly b (b.makeRun n m) n ∧
      ∃ run, (b.makeRun n m).slot n = some (.sound { r with run := run }) ∧
        ∀ rm, b.room r.room = some rm →
          run = if (b.squ.templateOf rm).isSome then some b.squ.newRunId else r.run := by
  unfold Book.makeRun
  simp only [Book.soundAt, hr]
  cases h : b.room r.room with
  | none => exact ⟨.refl b n, r.run, hr, by simp⟩
  | some rm =>
    dsimp only
    split
    · rename_i ht
      refine ⟨(inClaim_only b n _).trans (putRecord_only (by exact hs) n _), some b.squ.newRunId,
        putRecord_slot (by exact hs) n _, ?_⟩
      rintro _ ⟨⟩
      simp [ht]
    · rename_i ht
      refine ⟨.refl b n, r.run, hr, ?_⟩
      rintro _ ⟨⟩
      simp [ht]

/-- R47: the start of a meeting. -/
theorem startMeeting_spec {b : Book} {n : Nat} {r : Record} (hs : StoreSound b) (hr : b.slot n = some (.sound r)) (m : Nat) :
    RecordOnly b (b.startMeeting n m) n ∧
      (b.startMeeting n m).slot n =
        some (.sound (r.started ((b.room r.room).any (·.checkin)) (((b.room r.room).map (·.grace)).getD 0) m)) := by
  unfold Book.startMeeting
  simp only [Book.soundAt, hr]
  refine ⟨(((putRecord_only hs n _).trans (news_only _ n _ _ _)).trans (tellCsc_only _ n _ _)).trans
    (anchorEarly_only _ n r m), ?_⟩
  rw [anchorEarly_slot]
  exact putRecord_slot hs n _

/-- R39, R40: the start at once of a meeting whose start slot has begun. -/
theorem startIfBegun_spec {b : Book} {n : Nat} {r : Record} (hs : StoreSound b) (hr : b.slot n = some (.sound r))
    (t : Ctu) :
    RecordOnly b (b.startIfBegun t n) n ∧
      (b.startIfBegun t n).slot n =
        some (.sound
          (if r.state = .confirmed ∧ b.begun t r.date r.start then
            r.started ((b.room r.room).any (·.checkin)) (((b.room r.room).map (·.grace)).getD 0) (t.startNow r.start)
          else r)) := by
  unfold Book.startIfBegun
  simp only [Book.soundAt, hr]
  split
  · exact startMeeting_spec hs hr _
  · exact ⟨.refl b n, hr⟩

/-- R42, R43: a meeting that has reached CONFIRMED. -/
theorem confirmed_spec {b : Book} {n : Nat} {r : Record} (hs : StoreSound b) (hr : b.slot n = some (.sound r)) (t : Ctu) :
    RecordOnly b (b.confirmed t n) n ∧
      ∃ run,
        (b.confirmed t n).slot n =
          some (.sound
            (if r.state = .confirmed ∧ b.begun t r.date r.start then
              Record.started { r with run := run } ((b.room r.room).any fun rm => rm.checkin)
                (((b.room r.room).map fun rm => rm.grace).getD 0) (t.startNow r.start)
            else { r with run := run })) ∧
        ∀ rm, b.room r.room = some rm →
          run = if (b.squ.templateOf rm).isSome then some b.squ.newRunId else r.run := by
  unfold Book.confirmed
  simp only [Book.soundAt, hr]
  obtain ⟨h1, run, h2, h3⟩ := makeRun_spec hs hr r.earlyMinute
  have h4 := h1.trans (news_only (b.makeRun n r.earlyMinute) n .confirmed r none)
  obtain ⟨h5, h6⟩ := startIfBegun_spec (r := { r with run := run }) (h4.sound hs) h2 t
  refine ⟨h4.trans h5, run, ?_, h3⟩
  rw [h6]
  simp only [h4.begun, h4.room]

end Sys2Proof.Machine
end

