-- ==== Sys2Proof/Laws/Runs.lean ====
section
/-! SUPPORT. What the operations on a run do (R155, R156, R160 to R163): placing a step, a retime, an abort and a new run. -/

namespace Sys2Proof.Machine

theorem pairs_map {α β : Type} {P : α → β → Prop} {f : α → β} (l : List α) (h : ∀ x ∈ l, P x (f x)) :
    Pairs P l (l.map f) := by
  refine ⟨by simp, fun i x y hx hy => ?_⟩
  rw [List.getElem?_map, hx] at hy
  cases hy
  exact h x (List.mem_of_getElem? hx)

theorem late_iff (q : Squ) (d : Date) (m : Nat) : q.late d m = true ↔ LateAt q d m := by
  unfold Squ.late LateAt
  cases q.horizon <;> cases q.minute <;> simp

theorem place_spec (q : Squ) (d : Date) (a : Nat) (x : RunStep) : StepPlaced q d a x (q.place d a x) := by
  refine ⟨rfl, rfl, rfl, ?_⟩
  simp only [Squ.place, Squ.placedMark, ← late_iff, Bool.and_eq_true, decide_eq_true_eq]
  constructor
  · rintro (h | h)
    · rw [if_pos h]
    · split
      · rfl
      · simp
  · intro h
    rw [if_neg (fun h' => h (.inl h')), if_neg]
    simpa using fun h' h'' => h (.inr ⟨h', h''⟩)

theorem ownRun_iff {q : Squ} (h : RunsKeyed q) (b : Record) (r : Run) : q.ownRun b = some r ↔ IsOwnRun q b r := by
  have hm : ∀ x, x ∈ q.runs.values ↔ q.runs.find x.id = some x := by
    intro x
    unfold Table.values
    rw [List.mem_map]
    constructor
    · rintro ⟨⟨k, y⟩, hy, rfl⟩
      have hf := (Table.mem_entries h.1 k y).mp hy
      rwa [h.2 k y hf]
    · intro hx
      exact ⟨_, (Table.mem_entries h.1 x.id x).mpr hx, rfl⟩
  unfold Squ.ownRun Squ.runFor IsOwnRun
  constructor
  · intro hf
    have h1 := List.mem_of_find?_eq_some hf
    have h2 := List.find?_some hf
    simp only [Bool.and_eq_true, beq_iff_eq] at h2
    exact ⟨h2.2, (hm r).mp h1, h2.1⟩
  · rintro ⟨h1, h2, h3⟩
    cases hf : q.runs.values.find? fun x => x.booking == b.id && b.run == some x.id with
    | none =>
      have := List.find?_eq_none.mp hf r ((hm r).mpr h2)
      simp [h1, h3] at this
    | some x =>
      have hx := List.mem_of_find?_eq_some hf
      have hp := List.find?_some hf
      simp only [Bool.and_eq_true, beq_iff_eq] at hp
      have : x.id = r.id := by rw [h1] at hp; simpa using hp.2.symm
      have hx := (hm x).mp hx
      rw [this, h2] at hx
      exact hx.symm

theorem owes_iff (q : Squ) (r : Run) :
    q.owes r = true ↔ ∃ x ∈ r.steps, x.mark = .due ∧ ∃ m, x.due = some m ∧ LateAt q r.date m := by
  unfold Squ.owes
  simp only [List.any_eq_true, Bool.and_eq_true, beq_iff_eq, Option.any_eq_true, late_iff]

theorem oweFor_spec (q : Squ) (r : Run) :
    (q.oweFor r).runs = q.runs ∧ (q.oweFor r).templates = q.templates ∧ (q.oweFor r).horizon = q.horizon ∧
      (q.oweFor r).minute = q.minute ∧ (q.oweFor r).lastRun = q.lastRun ∧
      (∀ k, k ≠ r.id → (k ∈ (q.oweFor r).catchUps ↔ k ∈ q.catchUps)) ∧
      (q.owes r = true → r.id ∈ (q.oweFor r).catchUps) := by
  unfold Squ.oweFor
  split
  · refine ⟨rfl, rfl, rfl, rfl, rfl, fun k hk => by simp [hk], fun _ => by simp⟩
  · rename_i h
    refine ⟨rfl, rfl, rfl, rfl, rfl, fun k _ => Iff.rfl, fun ho => ?_⟩
    simp [ho] at h
    exact h

/-- R156: a run written anew in its place. -/
theorem rewriteRun_spec {q : Squ} {r x : Run} (h : q.runs.find r.id = some x) :
    RunBecomes q (q.rewriteRun r) r.id r ∧ (q.rewriteRun r).lastRun = q.lastRun := by
  obtain ⟨h1, h2, h3, h4, h5, h6, h7⟩ :=
    oweFor_spec { q with runs := q.runs.mapValues fun k y => if k = r.id then r else y } r
  refine ⟨⟨?_, ?_, ?_, h6, h2, h3, h4⟩, h5⟩
  · show (Squ.runs (Squ.oweFor _ _)).find _ = _
    rw [h1, Table.find_mapValues, h]
    simp
  · intro k hk
    show (Squ.runs (Squ.oweFor _ _)).find _ = _
    rw [h1, Table.find_mapValues]
    simp [hk]
  · intro ho
    exact h7 ((owes_iff _ r).mpr ho)

/-- R161: a retime. -/
theorem retime_spec {q : Squ} (h : RunsKeyed q) (b : Record) (start count : Nat) :
    ((∀ r, ¬IsOwnRun q b r) → q.retime b start count = q) ∧
      ∀ r, IsOwnRun q b r →
        (r.state = .done → q.retime b start count = q) ∧
          (r.state ≠ .done → RunRetimed q (q.retime b start count) r (360 + 15 * (start + count))) := by
  constructor
  · intro hn
    unfold Squ.retime
    cases ho : q.ownRun b with
    | none => rfl
    | some r => exact absurd ((ownRun_iff h b r).mp ho) (hn r)
  · intro r hr
    unfold Squ.retime
    rw [(ownRun_iff h b r).mpr hr]
    refine ⟨fun hd => by simp [hd], fun hd => ?_⟩
    simp only [if_neg hd]
    obtain ⟨h1, h2⟩ := rewriteRun_spec (q := q) (x := r)
      (r := { r with
        endMinute := endMinuteOf start count
        steps := q.placeWhere r.date (endMinuteOf start count) (fun s => s.step.anchor == .finish && s.mark == .due)
          r.steps }) hr.2.1
    refine ⟨_, h1, h2, ?_⟩
    unfold Squ.placeWhere
    refine pairs_map _ fun x _ => ?_
    refine ⟨fun ha hm => ?_, fun hn => ?_⟩
    · simp only [ha, hm, beq_self_eq_true, Bool.and_self, if_true]
      exact place_spec ..
    · rw [if_neg]
      simp only [Bool.and_eq_true, beq_iff_eq]
      rintro ⟨h1, h2⟩
      rcases hn with hn | hn
      · exact hn h1
      · exact hn h2

/-- R163: an abort. -/
theorem abort_spec {q : Squ} (h : RunsKeyed q) (b : Record) :
    ((∀ r, ¬IsOwnRun q b r) → q.abort b = q) ∧ ∀ r, IsOwnRun q b r → RunGone q (q.abort b) r.id := by
  constructor
  · intro hn
    unfold Squ.abort
    cases ho : q.ownRun b with
    | none => rfl
    | some r => exact absurd ((ownRun_iff h b r).mp ho) (hn r)
  · intro r hr
    unfold Squ.abort
    rw [(ownRun_iff h b r).mpr hr]
    exact ⟨Table.find_drop_self .., fun k hk => Table.find_drop_ne _ _ _ hk, fun k => by simp [Squ.dropFound, Squ.dropRun],
      rfl, rfl, rfl, rfl⟩

/-- R155: the steps of a new run. -/
theorem create_spec {q : Squ} {rm : Room} {k : Nat} {x : Template} (ht : q.templateOf rm = some (k, x))
    (id booking room : Nat) (d : Date) (start count : Nat) (checkin : Option Nat) :
    ∃ z, RunBecomes q (q.create id booking room rm d start count checkin) id z ∧
      RunFresh q id booking room rm d start count checkin k x z ∧
      (q.create id booking room rm d start count checkin).lastRun = q.lastRun := by
  unfold Squ.create Squ.putRun
  simp only [ht]
  generalize hz : Run.mk id booking k d room (startMinuteOf start) (endMinuteOf start count) rm.checkin checkin
    (q.freshSteps d (startMinuteOf start) (endMinuteOf start count) rm.checkin checkin x.steps) .armed = z
  have hid : z.id = id := by rw [← hz]
  obtain ⟨h1, h2, h3, h4, h5, h6, h7⟩ := oweFor_spec { q with runs := q.runs.put z.id z } z
  rw [hid] at h1 h2 h3 h4 h5 h6 h7
  refine ⟨z, ⟨?_, ?_, ?_, h6, h2, h3, h4⟩, ?_, h5⟩
  · rw [h1]; exact Table.find_put_self ..
  · intro j hj; rw [h1]; exact Table.find_put_ne _ _ _ _ hj
  · intro ho; exact h7 ((owes_iff _ z).mpr ho)
  · subst hz
    refine ⟨⟨rfl, rfl, rfl⟩, ⟨rfl, rfl, rfl, rfl⟩, ⟨rfl, rfl, rfl⟩, ?_⟩
    unfold Squ.freshSteps
    refine pairs_map _ fun e _ => ?_
    refine ⟨?_, ?_, ?_, ?_, ?_⟩
    · intro ha; simp only [ha]; exact place_spec ..
    · intro ha; simp only [ha]; exact place_spec ..
    · intro ha hc; simp only [ha, hc, Bool.not_false, if_true]; exact place_spec ..
    · intro ha hc m hm; simp only [ha, hc, hm, Bool.not_true, Bool.false_eq_true, if_false]; exact place_spec ..
    · intro ha hc hm; simp [ha, hc, hm]

/-- R162: the retime of a MOVE. -/
theorem moveRetime_spec {q : Squ} {y : Run} (hy : q.runs.find y.id = some y) (room : Nat) (rm : Room) (d : Date)
    (start count : Nat) :
    let sm := 360 + 15 * start
    let em := 360 + 15 * (start + count)
    ∃ l, (q.moveRetime y room rm d start count).lastRun = q.lastRun ∧
      RunBecomes q (q.moveRetime y room rm d start count) y.id
        { y with
          date := d, room := room, startMinute := sm, endMinute := em, fromCheckin := rm.checkin
          checkinMinute := if rm.checkin = true ∧ y.checkinMinute ≠ .none then some sm else .none
          steps := l } ∧
      Pairs
        (fun x z =>
          let due := x.mark = .due
          let basis := x.step.anchor = .checkIn
          (x.step.anchor = .start → due → StepPlaced q d sm x z) ∧
            (x.step.anchor = .finish → due → StepPlaced q d em x z) ∧
            (basis → rm.checkin = false → due ∨ x.mark = .waiting → StepPlaced q d sm x z) ∧
            (basis → rm.checkin = true → due → y.checkinMinute ≠ .none → StepPlaced q d sm x z) ∧
            (basis → rm.checkin = true → due → y.checkinMinute = .none →
              z = { x with due := .none, mark := .waiting }) ∧
            (¬due → ¬(basis ∧ rm.checkin = false ∧ x.mark = .waiting) → z = x))
        y.steps l := by
  intro sm em
  have e : (if (rm.checkin && y.checkinMinute.isSome) = true then some (startMinuteOf start) else none) =
      if rm.checkin = true ∧ y.checkinMinute ≠ .none then some sm else .none := by
    cases rm.checkin <;> cases y.checkinMinute <;> simp [startMinuteOf, boundaryMinute, sm]
  unfold Squ.moveRetime
  simp only [e]
  generalize hr : Run.mk _ _ _ _ _ _ _ _ _ _ _ = r
  have hid : y.id = r.id := by rw [← hr]
  have h := rewriteRun_spec (q := q) (r := r) (x := y) (hid ▸ hy)
  refine ⟨r.steps, h.2, ?_, ?_⟩
  · have h := h.1
    rw [← hid] at h
    rw [← hr] at h ⊢
    exact h
  rw [← hr]
  unfold Squ.moveCheckins Squ.placeWhere
  rw [List.map_map, List.map_map]
  refine pairs_map _ fun x _ => ?_
  have hp := fun a => place_spec q d a x
  simp only [Function.comp]
  rcases x with ⟨⟨anchor, offset, action⟩, due, mark, fired⟩
  generalize y.checkinMinute = held
  generalize rm.checkin = basis
  cases anchor <;> cases mark <;> cases basis <;> cases held <;> simp [Squ.place] <;> exact hp _

end Sys2Proof.Machine
end

