-- ==== Sys2Proof/WellFormed.lean ====
section
/-! DEFINITION. The commands whose operands name something the part has: a segment, a station address, a kitchen, a
row, an item of the store, the header of a write select. An ill-formed command names nothing, and changes nothing
(log 17); the fields of a request are checked by its owner, whose reply says what is out of range. -/

namespace Sys2Proof

/-- R89: the segments are 0-3. -/
def segmentOk (n : Nat) : Bool := decide (n ≤ 3)

/-- R90: the addresses on a segment are 1-48. -/
def addressOk (n : Nat) : Bool := decide (1 ≤ n) && decide (n ≤ 48)

/-- R129: the kitchen ids are 0-5. -/
def kitchenOk (n : Nat) : Bool := decide (n ≤ 5)

/-- R15: the room indices are 0-383. -/
def roomOk (n : Nat) : Bool := decide (n ≤ 383)

/-- R32: the record slots are 0-4095. -/
def slotOk (n : Nat) : Bool := decide (n ≤ 4095)

/-- R167: the item is one of the store. -/
def StoreItem.wf : StoreItem → Bool
  | .liveRow room _ => roomOk room
  | .draftRow room _ => roomOk room
  | .record slot => slotOk slot
  | .index slot => slotOk slot

/-- R179, R181: the first 8 bytes of a write select; a first byte of 0 makes a read select. -/
def headerOk (header : List Byte) : Bool := header.length == 8 && header.head? != some 0

/-- The command's operands name something the part has. -/
def Instr.wf : Instr → Bool
  | .frameHeaderReceived header => headerOk header
  | .terminalLinkChange segment => segmentOk segment
  | .ticketDelivered segment => segmentOk segment
  | .ticketNotDelivered segment => segmentOk segment
  | .callDelivered segment => segmentOk segment
  | .callNotDelivered segment => segmentOk segment
  | .slotFree segment => segmentOk segment
  | .terminalEvent segment => segmentOk segment
  | .panelLinkChange segment => segmentOk segment
  | .pageDelivered segment => segmentOk segment
  | .pageItemRefused segment => segmentOk segment
  | .latchBroadcastRecord segment => segmentOk segment
  | .shownVersionReport segment => segmentOk segment
  | .panelEvent segment => segmentOk segment
  | .resultNotSent segment => segmentOk segment
  | .patrolItem upsets => upsets.all fun u => u.item.wf
  | .rebuildCompletion room _ => roomOk room
  | .arbiterChoose segment => segmentOk segment
  | .stationAnswer segment _ _ => segmentOk segment
  | .replyWaitExpiry segment => segmentOk segment
  | .pollDue segment address => segmentOk segment && addressOk address
  | .probeIntervalExpiry segment => segmentOk segment
  | .ticketOffer kitchen => kitchenOk kitchen
  | .callOffer kitchen => kitchenOk kitchen
  | .frameSent segment => segmentOk segment
  | _ => true

end Sys2Proof
end

