-- ==== Sys2Proof/Tests/Slice0.lean ====
section
/-! SUPPORT. Tests: ill-formed commands, a few steps on small states, and for every statement of
Certificates/Slice0/Obligations.lean a state and operands that meet its hypotheses. -/

open Sys2Proof Sys2Proof.Machine

namespace Sys2Proof.Tests

/- One test after another, so that a compile of the whole package stays small in memory. -/
set_option Elab.async false

/-! ## Ill-formed commands -/

theorem test_wf_segment : (Instr.frameSent 3).wf = true ∧ (Instr.frameSent 4).wf = false := by decide

theorem test_wf_address :
    (Instr.pollDue 0 1).wf = true ∧ (Instr.pollDue 0 48).wf = true ∧ (Instr.pollDue 0 0).wf = false ∧
      (Instr.pollDue 0 49).wf = false := by decide

theorem test_wf_kitchen : (Instr.ticketOffer 5).wf = true ∧ (Instr.ticketOffer 6).wf = false := by decide

theorem test_wf_room :
    (Instr.rebuildCompletion 383 ⟨0, 1, 1⟩).wf = true ∧ (Instr.rebuildCompletion 384 ⟨0, 1, 1⟩).wf = false := by decide

theorem test_wf_item :
    (Instr.patrolItem [⟨.record 4095, 1, false, false⟩]).wf = true ∧
      (Instr.patrolItem [⟨.record 4096, 1, false, false⟩]).wf = false ∧
      (Instr.patrolItem [⟨.index 4096, 1, false, false⟩]).wf = false ∧
      (Instr.patrolItem [⟨.liveRow 384 ⟨0, 1, 1⟩, 1, false, false⟩]).wf = false ∧
      (Instr.patrolItem [⟨.draftRow 384 ⟨0, 1, 1⟩, 1, false, false⟩]).wf = false := by decide

theorem test_wf_header :
    (Instr.frameHeaderReceived [1, 9, 0, 1, 1, 1, 0, 0]).wf = true ∧
      (Instr.frameHeaderReceived [1, 9, 0, 1, 1, 1, 0]).wf = false ∧
      (Instr.frameHeaderReceived [0, 9, 0, 1, 1, 1, 0, 0]).wf = false := by decide

/-! ## Words and frames -/

theorem test_noWordSpells (nbits w : Nat) : decodeTableWord nbits w = none := rfl

theorem test_withFetchWord (s : State) (nbits w : Nat) : s.withFetchWord nbits w = s := rfl

/-- The check of the nine characters 1 to 9 under the generator, preset and complement of R180. -/
theorem test_linkCheck : linkCheck [0x31, 0x32, 0x33, 0x34, 0x35, 0x36, 0x37, 0x38, 0x39] = 0xFC891918#32 := by
  decide +kernel

/-- The same under the generator and preset of R92. -/
theorem test_stationCheck : stationCheck [0x31, 0x32, 0x33, 0x34, 0x35, 0x36, 0x37, 0x38, 0x39] = 0x29B1#16 := by
  decide +kernel

/-- R180, R182: a frame built with its check passes receipt. -/
theorem test_frameReceived : receiptFault (linkFrame 1 3 7 1 0 .sole []) = none := by decide +kernel

/-- R183: a CREDIT frame has 16 bytes. -/
theorem test_creditFrame : (creditFrame 5).length = 16 ∧ linkCheckGood (creditFrame 5) = true := by decide +kernel

/-- R92: a station frame has 6 bytes beside its body. -/
theorem test_stationFrame :
    (stationFrame 7 2 true []).length = 6 ∧ stationCheckGood (stationFrame 7 2 true [1, 2]) = true := by decide +kernel

/-- R93: an empty room's page of version 258 in latch group 3, labelled "AB". -/
def page258 : PageItem :=
  { kind := .display, version := 258
    content :=
      { display := .free, walkup := true, checkinOpen := false, overlay := 0, group := 3, code := 0x010203, endMinute := none
        nextMinute := some 600, freeUntil := some 600, label := none, nextLabel := some [0x41, 0x42] } }

/-- R93: the bytes of a page body in their places. -/
theorem test_pageBody :
    page258.content.body page258.version =
      [1, 2, 2, 1, 0, 0, 3, 1, 2, 3, 255, 255, 2, 88, 2, 88, 0] ++ List.replicate 24 0 ++ [2, 0x41, 0x42] ++
        List.replicate 22 0 := by decide

/-- R92, R105: a LATCH of group 31 is addressed to 0, with 32 group entries. -/
theorem test_latchFrame :
    let l := (Transaction.mk 0 (.latch [31]) 1 false).bytes
    (l.take 4, (l.drop 35).take 1, l.length) = ([0, 5, 32, 0], [1], 38) := by decide +kernel

/-! ## The step -/

theorem test_idle (s : State) (h : s.pending = []) : step s = .next s := by unfold step; rw [h]

theorem test_resetIdles : step State.reset = .next State.reset := rfl

/-! ## A small part -/

def monday : Date := { year := 24, month := 3, day := 4 }

def tuesday : Date := { year := 24, month := 3, day := 5 }

theorem test_weekday : monday.weekday = .monday ∧ monday.next = tuesday := by decide

/-- 09:00, slot 12 having begun. -/
def nine : Clock := { date := monday, weekday := .monday, minute := 540, reach := 540, lastBoundary := some 12 }

def hours : Horizon := { today := monday, weekday := .monday }

def roomA : Room :=
  { code := 1, building := 0, floor := 0, seats := 10, bookable := true, walkup := true, checkin := true, grace := 10,
    kitchen := some 0, template := some 0, group := 0, kind := .single, parts := [], combined := none }

def overlayStep : StepDef := { anchor := .start, offset := 0, action := .showOverlay 3 }

def turnover : Template := { buffer := 1, steps := [overlayStep] }

def kitchenA : Kitchen :=
  { profile := List.replicate 32 20, cutOff := 60, terminal := some (0, 2), online := true, session := 1,
    unreachable := false, ignored := 0, waitlist := [], tickets := [], calls := [], callOut := none, known := some .online }

def windowA : CapEntry := { kitchen := 0, date := monday, window := 10, capacity := 20, committed := 0, closed := false }

def panelA : Station :=
  { Station.reset 0 1 { type := .panel, binding := 0 } with
    state := .online, session := 1, advertised := 4, credits := 4, resultsAwaited := 1 }

def terminalA : Station :=
  { Station.reset 0 2 { type := .terminal, binding := 0 } with
    state := .online, session := 1, advertised := 4, credits := 4 }

def viewA : PanelView :=
  { segment := 0, address := 1, room := 0, session := 1, online := true, lastHanded := none, awaiting := false,
    staged := none, shown := 0 }

def pageA : Page := Page.reset roomA

def emptyBook : Book :=
  { State.reset.book with
    hmp := { Hmp.reset .powerOn with helloPosted := true }
    bke :=
      { Bke.reset ⟨[(0, roomA)]⟩ 10 with
        horizon := some hours
        rows := ⟨[(rowKey 0 monday, Row.new 0 monday), (rowKey 0 tuesday, Row.new 0 tuesday)]⟩ }
    squ := { Squ.reset ⟨[(0, turnover)]⟩ with horizon := some hours, minute := some 540 }
    csc :=
      { Csc.reset ⟨[(0, kitchenA)]⟩ with
        horizon := some hours, minute := some 540, capacity := ⟨[(capKey 0 monday 10, windowA)]⟩ } }

/-- One room with two free rows, a kitchen, a panel and a terminal, at nine. -/
def office : State :=
  { State.reset with
    ctu := { Ctu.reset with clock := some nine }
    book := emptyBook
    ppu := { Ppu.reset ⟨[(0, roomA)]⟩ ⟨[(0, { latched := true, dark := true })]⟩ ⟨[(0, pageA)]⟩
        ⟨[(stationKey 0 1, viewA)]⟩ with horizon := some hours }
    sbc := Sbc.reset ⟨[(stationKey 0 1, panelA), (stationKey 0 2, terminalA)]⟩ 2 }

/-- A meeting of today in the room, slots 16 and 17. -/
def meeting (st : BState) : Record :=
  { id := 5, kind := .meeting, edition := .live, room := 0, date := monday, start := 16, count := 2, organiser := 7,
    attendees := 4, label := none, origin := .host, series := none, state := st, holdExpiry := none, graceExpiry := none,
    check := .none, bufSlots := 1, bufState := .reserved, order := none, run := none, cancelMark := false }

def ctx : Ctx := { tag := 1, code := 9, mark := .sole }

/-- The request is the only one handed. -/
def asked (q : Request) (s : State) : State := { s with book := s.book.withRequests [{ ctx := ctx, request := q }] }

def askedWith (m : Mark) (q : Request) (s : State) : State :=
  { s with book := s.book.withRequests [{ ctx := { ctx with mark := m }, request := q }] }

def onMail (f : Mail → Mail) (s : State) : State := { s with book := s.book.withMail (f s.book.mail) }

def onBke (f : Bke → Bke) (s : State) : State := { s with book := s.book.withBke (f s.book.bke) }

def onCsc (f : Csc → Csc) (s : State) : State := { s with book := s.book.withCsc (f s.book.csc) }

def onSqu (f : Squ → Squ) (s : State) : State := { s with book := s.book.withSqu (f s.book.squ) }

def onCfs (f : Cfs → Cfs) (s : State) : State := { s with book := s.book.withCfs (f s.book.cfs) }

def onHmp (f : Hmp → Hmp) (s : State) : State := { s with book := s.book.withHmp (f s.book.hmp) }

/-- The record is the only one of the table. -/
def booked (r : Record) : State := onBke (fun b => { b with records := ⟨[(0, .sound r)]⟩ }) office

/-- The order is the only one of the table. -/
def ordered (o : Order) : State := onCsc (fun c => { c with orders := ⟨[(o.id, o)]⟩ }) office

/-- The run is the only one of the table. -/
def running (r : Run) : State := onSqu (fun q => { q with runs := ⟨[(r.id, r)]⟩ }) office

/-- The state after the command. -/
def after (i : Instr) (s : State) : State :=
  match exec i s with
  | .next t => t
  | _ => s

theorem asks (q : Request) (s : State) : Asks (asked q s) ctx q [] := by
  simp [Asks, asked, Book.withRequests, takeFirst]

theorem holdsLive (r : Record) (h : r.edition = .live) : HoldsLive (booked r).book 0 r := by
  refine ⟨?_, rfl, h⟩
  simp [Book.slotOf, booked, onBke, office, Book.withBke, RecSlot.id]

/-- A check of RowsOpen that Lean evaluates. -/
def openB (b : Book) (room : Nat) (d : Date) (start n : Nat) : Bool :=
  (rowFamily b.bke.rooms room).all fun x =>
    match b.row x d with
    | none => false
    | some r =>
      r.room == x && r.date == d && r.state == .good && r.cells.length == 64 &&
        (List.range n).all fun k => cellAt r.cells (start + k) == .free

theorem rowsOpen {b : Book} {room : Nat} {d : Date} {start n : Nat} (h : openB b room d start n = true) :
    RowsOpen b room d start n := by
  intro x hx
  have := List.all_eq_true.mp h x hx
  cases hr : b.row x d with
  | none => simp [hr] at this
  | some r =>
    simp only [hr, Bool.and_eq_true, beq_iff_eq, List.all_eq_true, List.mem_range] at this
    obtain ⟨⟨⟨⟨h1, h2⟩, h3⟩, h4⟩, h5⟩ := this
    refine ⟨r, rfl, h1, h2, h3, h4, fun k hk hn => ?_⟩
    have := h5 (k - start) (by omega)
    rwa [show start + (k - start) = k by omega] at this

/-- A check of RowsStand that Lean evaluates. -/
def standB (b : Book) (room : Nat) (d : Date) : Bool :=
  (rowFamily b.bke.rooms room).all fun x => (b.row x d).any fun r => r.room == x && r.date == d && r.cells.length == 64

theorem rowsStand {b : Book} {room : Nat} {d : Date} (h : standB b room d = true) : RowsStand b room d := by
  intro x hx
  have := List.all_eq_true.mp h x hx
  cases hr : b.row x d with
  | none => simp [hr] at this
  | some r =>
    simp only [hr, Option.any_some, Bool.and_eq_true, beq_iff_eq] at this
    exact ⟨r, rfl, this.1.1, this.1.2, this.2⟩

/-- A check of DraftReady that Lean evaluates. -/
def readyB (b : Book) (l : List (Nat × Date)) : Bool :=
  !b.bke.draft.damaged && decide (b.bke.draft.rows.size + l.length ≤ 256) &&
    l.all fun p =>
      match b.draftRow p.1 p.2, b.row p.1 p.2 with
      | some z, _ => z.room == p.1 && z.date == p.2 && !z.damaged && z.cells.length == 64
      | none, some y => y.room == p.1 && y.date == p.2 && y.state == .good && y.cells.length == 64
      | none, none => false

theorem draftReady {b : Book} {l : List (Nat × Date)} (h : readyB b l = true) : DraftReady b l := by
  simp only [readyB, Bool.and_eq_true, Bool.not_eq_true', decide_eq_true_eq, List.all_eq_true] at h
  refine ⟨h.1.1, h.1.2, fun p hp => ?_⟩
  have := h.2 p hp
  cases hz : b.draftRow p.1 p.2 with
  | some z =>
    simp only [hz, Bool.and_eq_true, beq_iff_eq, Bool.not_eq_true'] at this
    exact .inl ⟨z, rfl, this.1.1.1, this.1.1.2, this.1.2, this.2⟩
  | none =>
    cases hy : b.row p.1 p.2 with
    | none => simp [hz, hy] at this
    | some y =>
      simp only [hz, hy, Bool.and_eq_true, beq_iff_eq] at this
      exact .inr ⟨rfl, y, rfl, this.1.1.1, this.1.1.2, this.1.2, this.2⟩

/-- The write edition is DRAFT, with these records and marks in a draft that has no row yet. -/
def drafting (records marked : List Nat) (s : State) : State :=
  onBke (fun b => { b with writeEdition := .draft, draft := { b.draft with records := records, marked := marked } }) s

/-- The horizon is open. -/
theorem hasHorizon {s : State} (h : s.book.bke.horizon = some hours) : s.book.bke.horizon ≠ none := by
  rw [h]; exact Option.some_ne_none _

/-- The room takes up to 10 attendees. -/
theorem takesRoom {b : Book} {n : Nat} (h : n ≤ 10) (hr : b.bke.rooms = ⟨[(0, roomA)]⟩) (hg : b.bke.guard = []) :
    RoomTakes b 0 n roomA := by
  refine ⟨?_, ?_, rfl, h⟩
  · rw [hr]; rfl
  · rw [hg]; rfl

/-- What holds of the value found holds of every value found. -/
theorem ofFound {α : Type} {o : Option α} {a : α} {p : α → Prop} (h : o = some a) (ha : p a) : ∀ x, o = some x → p x := by
  intro x hx; rw [h] at hx; cases hx; exact ha

/-- What holds of the entries of a table holds of what is found in it. -/
theorem ofEntries {α : Type} {t : Table α} {p : Nat → α → Prop} (h : ∀ e ∈ t.entries, p e.1 e.2) :
    ∀ k a, t.find k = some a → p k a := by
  obtain ⟨l⟩ := t
  intro k a
  induction l with
  | nil => intro hk; simp [Table.find, findKey] at hk
  | cons e l ih =>
    intro hk
    simp only [Table.find, findKey] at hk ih
    split at hk
    · rename_i he; cases hk; rw [← he]; exact h e (by simp)
    · exact ih (fun x hx => h x (by simp [hx])) hk

/-! ## What the hypotheses of the statements on the link admit -/

def linked (l : Link) : State := { office with link := l }

/-- An 8-byte header of a frame of `n` blocks. -/
def headerOf (n : Byte) : List Byte := [1, 3, 0, 7, n, n, 0, 0]

theorem witness_HeaderPlacesTheFrame :
    (linked { Link.reset with occupied := 88, hostCredit := 8 }).link.arriving = none ∧ (headerOf 8).length = 8 ∧
      byteAt (headerOf 8) 0 ≠ 0 ∧
      (byteAt (headerOf 8) 0 = 1 ∧ byteAt (headerOf 8) 4 = byteAt (headerOf 8) 5 ∧ 1 ≤ byteAt (headerOf 8) 4 ∧
        byteAt (headerOf 8) 4 ≤ 8 ∧
        (linked { Link.reset with occupied := 88, hostCredit := 8 }).link.occupied + byteAt (headerOf 8) 4 ≤ 96) ∧
      ¬(linked { Link.reset with occupied := 89, hostCredit := 7 }).link.occupied + byteAt (headerOf 8) 4 ≤ 96 := by
  decide

def frameIn : List Byte := linkFrame 1 3 7 1 0 .sole []

def arriving (credited : Bool) : State :=
  linked { Link.reset with arriving := some { header := frameIn.take 8, credited := credited }, occupied := 1 }

theorem witness_WriteSelectEndAcceptsOrRejects :
    let a : Arriving := { header := frameIn.take 8, credited := true }
    (arriving true).link.arriving = some a ∧ a.credited = true ∧ receiptFault (a.header ++ frameIn.drop 8) = none ∧
      Mark.ofNat? (linkHeader (a.header ++ frameIn.drop 8)).mark = some .sole ∧
      (linkHeader (a.header ++ frameIn.drop 8)).tag ≠ 0 ∧
      (linkHeader (a.header ++ frameIn.drop 8)).tag ∉ (arriving true).book.hmp.tags ∧
      (onHmp (fun h => { h with tags := (List.range 95).map (· + 100) }) (arriving true)).book.hmp.tags.length < 96 ∧
      receiptFault (a.header ++ [0]) = some .size ∧
      (arriving false).link.arriving = some { a with credited := false } ∧
      (linkHeader (a.header ++ frameIn.drop 8)).tag ∈
        (onHmp (fun h => { h with tags := [7] }) (arriving true)).book.hmp.tags := by
  decide +kernel

/-- 96 tags outstanding, none of them the frame's, with a reply place free and with none. -/
theorem witness_TagOverrun :
    ∀ held ∈ [95, 96],
      let s :=
        onHmp (fun h => { h with tags := (List.range 96).map (· + 100), held := List.replicate held ctx }) (arriving true)
      s.link.arriving = some { header := frameIn.take 8, credited := true } ∧ s.book.hmp.tags.length = 96 ∧
        (linkHeader frameIn).tag ∉ s.book.hmp.tags ∧ s.book.hmp.repliesHeld = held := by
  decide +kernel

/-- R179: a CREDIT frame on data out in a select of either kind, and bytes of 0 after it; data out after a reset. -/
theorem test_dataOut :
    (linked { Link.reset with awaitingReturn := 2 }).dataOut 20 = creditFrame 2 ++ [0, 0, 0, 0] ∧
      (linked { Link.reset with awaitingReturn := 2 }).dataOut 3 = [3, 65, 0] ∧
      State.reset.dataOut 18 = List.replicate 18 0 ∧
      ({ yield := .credit, credit := 2 } : ReadSelect).complete 16 = true ∧
      ({ yield := .credit, credit := 2 } : ReadSelect).complete 15 = false := by
  decide +kernel

theorem witness_ReadSelectsYieldFramesAndCredits :
    office.link.arriving = none ∧ office.book.hmp.out = [] ∧ office.link.awaitingReturn = 0 ∧
      0 < (linked { Link.reset with awaitingReturn := 1 }).link.awaitingReturn ∧
      (linked { Link.reset with reading := some { yield := .nothing, credit := 0 } }).link.reading =
        some { yield := .nothing, credit := 0 } ∧
      office.book.hmp.restartRead .nothing = false ∧
      (onHmp (fun h => { h with out := [.reply ctx (Answer.of .ok)], tags := [1] }) office).book.hmp.out =
        [.reply ctx (Answer.of .ok)] := by
  decide

def inFrame (m : Mark) (q : Request) : InFrame := { tag := 7, code := q.code, mark := m, length := 1, reading := some q }

def waiting (m : Mark) (q : Request) : State := linked { Link.reset with inbound := [inFrame m q], occupied := 1 }

theorem witness_TakingHandsARequestToItsOwner :
    (waiting .sole .readClock).link.inbound = [inFrame .sole .readClock] ∧ (inFrame .sole .readClock).mark = .sole ∧
      (inFrame .sole .readClock).reading = some .readClock ∧
      Request.readClock.code = (inFrame .sole .readClock).code ∧ (waiting .sole .readClock).book.hmp.helloPosted = true ∧
      (onHmp (fun h => { h with held := List.replicate 95 ctx }) (waiting .sole .readClock)).book.hmp.repliesHeld < 96 ∧
      (waiting .sole .readClock).book.hmp.restart = .none ∧
      (∀ h ∈ (waiting .sole .readClock).book.mail.requests, h.request.owner ≠ .hmp) := by
  decide

/-- A request in each place of a batch, with a body read, a code that names no request, and a body that was not read. -/
theorem witness_TakingMarkedRequests :
    ∀ x ∈ [(Mark.sole, BatchState.opened), (.first, .none), (.middle, .opened), (.last, .opened)],
      ∀ f ∈ [inFrame x.1 .publish, { inFrame x.1 .publish with code := 0 }, { inFrame x.1 .publish with code := 42 },
          { inFrame x.1 .publish with reading := none }],
        let s := onHmp (fun h => { h with batch := x.2 }) (linked { Link.reset with inbound := [f], occupied := 1 })
        s.link.inbound = [f] ∧ s.book.readyFor f.mark = true := by
  decide

/-- A marked request in each state of the batch. -/
theorem witness_BatchOrderIsKept :
    ∀ m ∈ [Mark.first, .middle, .last], ∀ st ∈ [BatchState.none, .opened, .failed],
      (onHmp (fun h => { h with batch := st }) (waiting m .publish)).link.inbound = [inFrame m .publish] ∧
        (onHmp (fun h => { h with batch := st }) (waiting m .publish)).book.readyFor (inFrame m .publish).mark = true := by
  decide

theorem witness_HelloAndRestart :
    State.reset.book.hmp.helloPosted = false ∧ Asks (asked .restart office) ctx .restart [] ∧ ctx.mark = .sole ∧
      (asked .restart office).book.cfs.commit = none ∧
      (onHmp (fun h => { h with restart := .pending ctx, held := [ctx] }) office).book.hmp.restart = .pending ctx ∧
      (onHmp (fun h => { h with restart := .pending ctx, held := [ctx] }) office).book.hmp.held = [ctx] ∧
      (onHmp (fun h => { h with restart := .answered }) office).book.hmp.restartRead
        (.frame (.reply { ctx with code := 39 } (Answer.ok .none))) = true :=
  ⟨rfl, asks .restart office, by decide⟩

/-- A RESTART within a batch, and one during a commit. -/
theorem witness_RestartIsRefused :
    (∀ m ∈ [Mark.first, .middle, .last],
      let s := onHmp (fun h => { h with batch := .opened }) (askedWith m .restart office)
      Asks s { ctx with mark := m } .restart [] ∧ s.book.hmp.restart = .none ∧ m ≠ .sole ∧ s.book.hmp.batch = .opened) ∧
      let k : Commit :=
        { ctx := ctx, merged := ConfigSet.blank, puts := 1, tallies := [], written := false, waiting := [] }
      let s := onCfs (fun c => { c with commit := some k }) (asked .restart office)
      Asks s ctx .restart [] ∧ s.book.hmp.restart = .none ∧ s.book.cfs.commit ≠ none := by
  refine ⟨fun m hm => ⟨?_, rfl, by revert m; decide, rfl⟩, asks _ _, rfl, by decide⟩
  simp [Asks, askedWith, onHmp, Book.withHmp, Book.withRequests, takeFirst]

/-- Both the load of a complete set and the load of none. -/
theorem witness_PowerOnResetLeavesTheResetValues :
    office.book.cfs.complete = false ∧ (onCfs (fun c => { c with complete := true }) office).book.cfs.complete = true := by
  decide

theorem witness_EveryStepKeepsTheLinkCreditLaw :
    LinkLaw office.link ∧ step { office with pending := [.hello] } = .next office := by
  refine ⟨⟨by decide, by decide, fun r h => ?_, fun a h => ?_⟩, by rfl⟩
  · cases h
  · cases h

/-! ## On the clock -/

theorem witness_EveryStepKeepsTheClockLegal :
    ClockLaw office.ctu ∧ step { office with pending := [.hello] } = .next office := by
  refine ⟨⟨by decide, ofFound (a := nine) rfl ⟨by decide, by decide, by decide, ?_⟩⟩, by rfl⟩
  exact ofFound (a := 12) rfl (by decide)

def timed (c : Clock) : State := { office with ctu := { office.ctu with clock := some c, minutesDue := 1 } }

/-- A minute before boundary 13, and one whose boundary lies below the mark; seconds 58 and 59. -/
theorem witness_SecondsAndMinutesPass :
    (timed { nine with minute := 554, reach := 554 }).ctu.clock = some { nine with minute := 554, reach := 554 } ∧
      (timed nine).ctu.minutesDue ≠ 0 ∧ (timed nine).ctu.holding = false ∧ 554 < 1439 ∧ 554 + 1 = 360 + 15 * 13 ∧
      (554 : Nat) < 554 + 1 ∧ (timed { nine with minute := 554, reach := 600 }).ctu.clock =
        some { nine with minute := 554, reach := 600 } ∧ 554 + 1 ≤ 600 ∧
      ({ office.ctu with second := 58 } : Ctu).second < 59 ∧ 59 ≤ ({ office.ctu with second := 59 } : Ctu).second ∧
      ({ Ctu.reset with minutesDue := 1 } : Ctu).clock = none ∧ ({ Ctu.reset with minutesDue := 1 } : Ctu).minutesDue ≠ 0 ∧
      ({ Ctu.reset with minutesDue := 1 } : Ctu).holding = false := by
  decide

/-- The minutes of R4 with the mark a minute below, and no two clauses on one minute. -/
theorem witness_PagesAreDeliveredTheDaysEvents :
    (344 < 345 ∧ 358 < 359 ∧ 359 = 359 + 15 * 0 ∧ 1319 = 359 + 15 * 64 ∧ 360 = 360 + 15 * 0 ∧ 1305 = 360 + 15 * 63 ∧
        1320 = 360 + 15 * 64) ∧
      (∀ b, b < 65 → ∀ c, c < 65 → 359 + 15 * b ≠ 360 + 15 * c ∧ 345 ≠ 359 + 15 * b ∧ 345 ≠ 360 + 15 * c) := by
  decide +kernel

theorem witness_MidnightOpensTheNextDay :
    ((timed { nine with minute := 1439 }).ctu.clock = some { nine with minute := 1439 } ∧
        (timed { nine with minute := 1439 }).ctu.minutesDue ≠ 0 ∧ (timed nine).ctu.holding = false) ∧
      (({ office with ctu := { office.ctu with opening := true } } : State).ctu.opening = true ∧
        office.ctu.clock = some nine ∧ office.book.mail.eventLeft EventKind.isMidnight = false) ∧
      Date.valid { year := 0, month := 2, day := 29 } = true ∧ Date.valid { year := 99, month := 12, day := 30 } = true := by
  decide

def unset : State := { office with ctu := Ctu.reset }

theorem witness_SetClockSetsAndOpensTheHorizon :
    (Asks (asked (.setClock monday 1439) unset) ctx (.setClock monday 1439) [] ∧ unset.ctu.trimming = none ∧
        monday.valid = true ∧ unset.ctu.clock = none) ∧
      (Asks (asked (.setClock monday 1440) unset) ctx (.setClock monday 1440) [] ∧ 1439 < 1440) ∧
      (Asks (asked (.setClock monday 0) office) ctx (.setClock monday 0) [] ∧ office.ctu.clock ≠ none) ∧
      ({ office with ctu := { office.ctu with setting := some (ctx, nine) } } : State).ctu.setting = some (ctx, nine) ∧
      office.book.mail.eventLeft EventKind.isHorizonOpen = false :=
  ⟨⟨asks _ _, by decide⟩, ⟨asks _ _, by decide⟩, ⟨asks _ _, by decide⟩, by decide⟩

theorem witness_BackwardAndRefusedTrimsDeliverNothing :
    (∀ k ∈ [1, 30], Asks (asked (.trimClock (-(k : Int))) office) ctx (.trimClock (-(k : Int))) [] ∧
        office.ctu.trimming = none ∧ office.ctu.clock = some nine ∧ 1 ≤ k ∧ k ≤ 30 ∧ k ≤ nine.minute ∧
        nine.minute ≤ 1439) ∧
      (∀ n ∈ [(0 : Int), -31, 31], Asks (asked (.trimClock n) office) ctx (.trimClock n) [] ∧
        (n = 0 ∨ n < -30 ∨ 30 < n)) ∧
      (Asks (asked (.trimClock 30) unset) ctx (.trimClock 30) [] ∧ unset.ctu.clock = none) ∧
      (Asks (asked (.trimClock 1) (timed { nine with minute := 1439 })) ctx (.trimClock 1) [] ∧
        (timed { nine with minute := 1439 }).ctu.clock = some { nine with minute := 1439 } ∧ (1439 : Int) < 1439 + 1) :=
  ⟨fun k hk => ⟨asks _ _, by revert k; decide⟩, fun n hn => ⟨asks _ _, by revert n; decide⟩, ⟨asks _ _, by decide⟩,
    ⟨asks _ _, by decide⟩⟩

/-- Trims by 30, past the boundaries 13 and 14, and by 1, past none. -/
theorem witness_ForwardTrimPassesEveryMinute :
    (540 < 360 + 15 * 14 ∧ 360 + 15 * 14 ≤ 540 + 30 ∧ 540 + 30 < 360 + 15 * 15 ∧ ∀ b, b ≤ 64 → ¬(540 < 360 + 15 * b ∧
        360 + 15 * b ≤ 541)) ∧
      (∀ k ∈ [1, 30], Asks (asked (.trimClock (k : Int)) office) ctx (.trimClock (k : Int)) [] ∧
        office.ctu.trimming = none ∧ office.ctu.clock = some nine ∧ 1 ≤ k ∧ k ≤ 30 ∧ nine.minute + k ≤ 1439) ∧
      ({ office with ctu := { office.ctu with trimming := some (ctx, 5) } } : State).ctu.trimming = some (ctx, 5) ∧
      office.ctu.clock = some nine ∧ office.book.mail.eventLeft (fun _ => true) = false :=
  ⟨by decide +kernel, fun k hk => ⟨asks _ _, by revert k; decide⟩, by decide⟩

theorem witness_ReadClockAnswersInBothStates :
    (Asks (asked .readClock unset) ctx .readClock [] ∧ unset.ctu.trimming = none ∧ unset.ctu.clock = none) ∧
      (Asks (asked .readClock office) ctx .readClock [] ∧ office.ctu.trimming = none ∧ office.ctu.clock = some nine) ∧
      ({ office with ctu := { office.ctu with trimming := some (ctx, 5) } } : State).ctu.trimming ≠ none :=
  ⟨⟨asks _ _, by decide⟩, ⟨asks _ _, by decide⟩, by decide⟩

/-- The last boundary absent, 0, 63 and 64; a step that keeps the date and one that opens a new one. -/
theorem witness_CurrentSlotFollowsTheLastBoundary :
    (∀ b ∈ [none, some 0, some 63, some 64], (timed { nine with lastBoundary := b }).ctu.clock =
        some { nine with lastBoundary := b }) ∧
      ClockLaw (timed { nine with minute := 1439, reach := 1439 }).ctu ∧
      step { timed { nine with minute := 1439, reach := 1439 } with pending := [.hello] } =
        .next (timed { nine with minute := 1439, reach := 1439 }) ∧
      (∃ t c', step { timed { nine with minute := 1439, reach := 1439 } with pending := [.minuteCompletion] } = .next t ∧
        t.ctu.clock = some c' ∧ c'.date ≠ monday) := by
  refine ⟨by decide, ⟨by decide, ofFound (a := { nine with minute := 1439, reach := 1439 }) rfl
    ⟨by decide, by decide, by decide, ofFound (a := 12) rfl (by decide)⟩⟩, by rfl, ?_⟩
  exact ⟨_, _, rfl, rfl, by decide⟩

/-! ## On the live book: requests -/

/-- An empty table; a table with the id after the last taken in use. -/
theorem witness_NewIdsAndSlotsAreFree :
    office.book.tableFull = false ∧
      (onBke (fun b => { b with lastId := 4 }) (booked (meeting .confirmed))).book.tableFull = false ∧
      (onBke (fun b => { b with lastId := 4 }) (booked (meeting .confirmed))).book.newId = 6 := by
  decide

/-- A span of `count` slots from `start` of today. -/
def span (start count : Nat) : BookFields :=
  { room := 0, date := monday, start := start, count := count, attendees := 10, organiser := 7, label := none }

theorem spanPasses {s : State} {d : Date} {start count : Nat}
    (h : s.book.bke.horizon.isSome = true ∧ (s.book.offset d).isSome = true ∧ spanInDay start count = true ∧
      (s.book.isToday d = true → s.ctu.tooLate start = false)) : SpanPasses s.ctu s.book d start count := h

/-- The current slot (begun), and the last slot of the day (not begun, its buffer clipped). -/
theorem witness_BookMakesAConfirmedMeeting :
    ∀ p ∈ [(12, 4, true), (62, 2, false)],
      let f := span p.1 p.2.1
      let s := asked (.book f) office
      Asks s ctx (.book f) [] ∧ s.book.bke.writeEdition = .live ∧ StoreSound s.book ∧ FieldsOk f ∧
        SpanPasses s.ctu s.book f.date f.start f.count ∧ RoomTakes s.book f.room f.attendees roomA ∧
        TablesOpen s.book roomA ∧
        RowsOpen s.book f.room f.date f.start (f.count + clipBuffer (f.start + f.count) (s.book.squ.bufferOf roomA)) ∧
        s.book.begun s.ctu f.date f.start = p.2.2 := by
  intro p hp
  refine ⟨asks _ _, rfl, rfl, rfl, spanPasses ?_, takesRoom (Nat.le_refl 10) rfl rfl, ⟨rfl, by rfl⟩, rowsOpen ?_, ?_⟩ <;>
    revert p <;> decide +kernel

/-- 63 holds held, hold minutes 0 (the default) and 30. -/
theorem witness_HoldAndConfirm :
    (∀ m ∈ [none, some 0, some 30],
      let f := span 13 1
      let s := asked (.hold f m) office
      Asks s ctx (.hold f m) [] ∧ s.book.bke.writeEdition = .live ∧ StoreSound s.book ∧ FieldsOk f ∧
        m.getD 0 ≤ 30 ∧ SpanPasses s.ctu s.book f.date f.start f.count ∧ RoomTakes s.book f.room f.attendees roomA ∧
        s.book.tableFull = false ∧ s.book.bke.holds.length < 64 ∧
        RowsOpen s.book f.room f.date f.start (f.count + clipBuffer (f.start + f.count) (s.book.squ.bufferOf roomA))) ∧
      (onBke (fun b => { b with holds := List.replicate 63 { id := 9, expiry := 700, spent := false } })
        office).book.bke.holds.length < 64 ∧
      let s := asked (.confirm 5) (booked (meeting .held))
      Asks s ctx (.confirm (meeting .held).id) [] ∧ StoreSound s.book ∧ s.book.bke.horizon ≠ none ∧
        HoldsLive s.book 0 (meeting .held) ∧ (meeting .held).kind = .meeting ∧ (meeting .held).state = .held ∧
        RowsOpen s.book 0 monday 16 0 ∧ (∀ rm, s.book.room 0 = some rm → s.book.runsShort rm = false) := by
  refine ⟨fun m hm => ⟨asks _ _, rfl, rfl, rfl, ?_, spanPasses ?_, takesRoom (Nat.le_refl 10) rfl rfl, rfl,
    Nat.zero_lt_succ 63, rowsOpen ?_⟩, by decide, asks _ _, rfl, hasHorizon rfl, holdsLive _ rfl, rfl, rfl,
    rowsOpen (by decide +kernel), ofFound (a := roomA) rfl (by rfl)⟩ <;> revert m <;> decide +kernel

/-- A start that is past for CHECKED_IN and IN_PROGRESS, one that is not for CONFIRMED; the last slot for the closure. -/
theorem witness_LoadAndCloseCells :
    (∀ p ∈ [(12, LoadState.checkedIn, true), (12, .inProgress, true), (12, .confirmed, true), (13, .confirmed, false)],
      let f := span p.1 1
      let s := asked (.load f 65535 p.2.1) office
      Asks s ctx (.load f 65535 p.2.1) [] ∧ s.book.bke.writeEdition = .live ∧ StoreSound s.book ∧ FieldsOk f ∧
        65535 ∉ s.book.usedIds ∧ s.book.bke.horizon.isSome = true ∧ (s.book.offset f.date).isSome = true ∧
        spanInDay f.start f.count = true ∧ (s.book.isToday f.date = true → s.ctu.passed (f.start + f.count) = false) ∧
        RoomTakes s.book f.room f.attendees roomA ∧ TablesOpen s.book roomA ∧
        RowsOpen s.book f.room f.date f.start (f.count + clipBuffer (f.start + f.count) (s.book.squ.bufferOf roomA)) ∧
        s.book.startPast s.ctu f.date f.start = p.2.2) ∧
      let f : CloseFields := { room := 0, date := monday, start := 63, count := 1, label := none, organiser := 7 }
      let s := asked (.closeCells f) office
      Asks s ctx (.closeCells f) [] ∧ s.book.bke.writeEdition = .live ∧ StoreSound s.book ∧ f.room ≤ 383 ∧
        labelBad f.label = false ∧ SpanPasses s.ctu s.book f.date f.start f.count ∧ s.book.room f.room = some roomA ∧
        s.book.bke.guard.contains f.room = false ∧ s.book.tableFull = false ∧
        RowsOpen s.book f.room f.date f.start f.count := by
  refine ⟨fun p hp => ⟨asks _ _, rfl, rfl, rfl, nofun, rfl, by rfl, ?_, ?_, takesRoom (Nat.le_refl 10) rfl rfl,
    ⟨rfl, by rfl⟩, rowsOpen ?_, ?_⟩, asks _ _, rfl, rfl, by decide, rfl, spanPasses (by decide), rfl, rfl, rfl,
    rowsOpen (by decide +kernel)⟩ <;> revert p <;> decide +kernel

/-- A closure of the last slot in the draft, that has 511 records. -/
theorem witness_DraftClosure :
    let f : CloseFields := { room := 0, date := monday, start := 63, count := 1, label := none, organiser := 7 }
    let s := asked (.closeCells f) (drafting (List.replicate 511 9) [] office)
    Asks s ctx (.closeCells f) [] ∧ s.book.bke.writeEdition = .draft ∧ StoreSound s.book ∧ f.room ≤ 383 ∧
      labelBad f.label = false ∧ SpanPasses s.ctu s.book f.date f.start f.count ∧ s.book.room f.room = some roomA ∧
      s.book.bke.guard.contains f.room = false ∧ s.book.tableFull = false ∧ s.book.bke.draft.records.length < 512 ∧
      DraftReady s.book (s.book.familyDays f.room f.date) ∧
      s.book.conflict .draft f.room f.date f.start f.count 0 none = none :=
  ⟨asks _ _, rfl, rfl, by decide, rfl, spanPasses (by decide), rfl, rfl, rfl, by decide +kernel,
    draftReady (by decide +kernel), by decide +kernel⟩

/-- A panel claim of the room, the only one handed. -/
def claimed (e : StationEvent) (s : State) : State :=
  onMail (fun m =>
    { m with ppuToBke := [{ segment := 0, address := 1, session := 1, room := 0, event := e }] }) s

def claimOf (e : StationEvent) : PanelClaim := { segment := 0, address := 1, session := 1, room := 0, event := e }

/-- Every state; for CONFIRMED the window open (at 590), shut (at 589), and the mark EARLY. -/
theorem witness_CheckInFollowsTheState :
    (∀ st ∈ [BState.held, .confirmed, .awaitingCheckin, .checkedIn, .inProgress, .ended, .released, .cancelled],
      let s := asked (.checkIn 5 none) (booked (meeting st))
      Asks s ctx (.checkIn (meeting st).id none) [] ∧ StoreSound s.book ∧ s.book.bke.horizon ≠ none ∧
        HoldsLive s.book 0 (meeting st) ∧ (meeting st).kind = .meeting ∧ (meeting st).state = st) ∧
      (office.book.isToday monday = true ∧ 360 + 15 * 16 ≤ 590 + 10 ∧ ¬360 + 15 * 16 ≤ 589 + 10) ∧
      (let r := meeting .awaitingCheckin
       let s := claimed (.checkIn none) (booked r)
       s.book.mail.ppuToBke = [claimOf (.checkIn none)] ∧ StoreSound s.book ∧ s.book.bke.records.wf = true ∧
        s.book.bke.horizon ≠ none ∧
        HoldsLive s.book 0 r ∧ s.book.checkInChoice s.ctu 0 = some (0, r)) ∧
      (let r := { meeting .confirmed with start := 13 }
       let s := claimed (.checkIn none) { booked r with ctu := { office.ctu with clock := some { nine with minute := 545 } } }
       s.book.mail.ppuToBke = [claimOf (.checkIn none)] ∧ s.book.bke.records.wf = true ∧ HoldsLive s.book 0 r ∧
        s.book.checkInChoice s.ctu 0 = some (0, r) ∧ r.check ≠ .early ∧ s.book.windowOpen s.ctu r = true) ∧
      (let r := { meeting .released with start := 12, count := 1 }
       let s := claimed (.checkIn none) (booked r)
       s.book.bke.records.wf = true ∧ HoldsLive s.book 0 r ∧ s.book.checkInChoice s.ctu 0 = some (0, r) ∧ r.state = .released) ∧
      (let s := claimed (.checkIn none) office
       StoreSound s.book ∧ s.book.bke.records.wf = true ∧ s.book.bke.horizon ≠ none ∧
        s.book.checkInChoice s.ctu 0 = none ∧
        s.book.lostCandidate 0 = none) ∧
      (let d := remainsOf (meeting .confirmed) false false
       let s := claimed (.checkIn none) (onBke (fun b => { b with records := ⟨[(0, .damaged d)]⟩ }) office)
       StoreSound s.book ∧ s.book.bke.records.wf = true ∧ s.book.bke.horizon ≠ none ∧
        s.book.checkInChoice s.ctu 0 = none ∧
        s.book.lostCandidate 0 = some d) :=
  ⟨fun _ _ => ⟨asks _ _, rfl, hasHorizon rfl, holdsLive _ rfl, rfl, rfl⟩, by decide,
    ⟨rfl, rfl, rfl, hasHorizon rfl, holdsLive _ rfl, by decide +kernel⟩,
    ⟨rfl, rfl, holdsLive _ rfl, by decide +kernel, by decide, by decide +kernel⟩,
    ⟨rfl, holdsLive _ rfl, by decide +kernel, rfl⟩, ⟨rfl, rfl, hasHorizon rfl, by decide +kernel, by decide +kernel⟩,
    ⟨rfl, rfl, hasHorizon rfl, by decide +kernel, by decide +kernel⟩⟩

/-- A candidate lost by the claim's own read of its record, and of its index entry. -/
theorem witness_PanelClaimLosesItsCandidate :
    ∀ i ∈ [StoreItem.record 0, .index 0], ∀ e ∈ [StationEvent.checkIn none, .endMeeting, .extend],
      let e' : ItemErr := { item := i, soft := 0, hard := true, tagLost := false, known := false }
      let b := claimed e (booked (meeting .confirmed))
      let s := { b with book := b.book.withBss { b.book.bss with errors := [e'] } }
      s.book.mail.ppuToBke = [claimOf e] ∧ s.book.bke.records.wf = true ∧ s.book.bke.horizon = some hours ∧
        (0, meeting .confirmed) ∈ s.book.candidates 0 ∧ s.book.slot 0 = some (.sound (meeting .confirmed)) ∧
        s.book.bss.errorOf i = some e' ∧ ∀ j, j ≠ i → s.book.bss.errorOf j = none := by
  intro i hi e he
  refine ⟨?_, rfl, rfl, ?_, rfl, ?_, fun j hj => by simp [Bss.errorOf, Book.withBss, Ne.symm hj]⟩ <;> revert i e <;>
    decide +kernel

/-- A draft record, and a live one in each state, marked and not. -/
theorem witness_DraftCancel :
    ∀ e ∈ [Edition.draft, .live], ∀ m ∈ [[], [5]], ∀ st ∈ [BState.held, .confirmed, .inProgress, .ended],
      let r := { meeting st with edition := e }
      let s := asked (.cancel 5) (drafting (if e = .draft then [5] else []) m (booked r))
      Asks s ctx (.cancel r.id) [] ∧ s.book.bke.writeEdition = .draft ∧ StoreSound s.book ∧
        s.book.bke.horizon ≠ none ∧ s.book.slotOf r.id = some 0 ∧ s.book.slot 0 = some (.sound r) ∧
        DraftReady s.book (s.book.familyDays r.room r.date) :=
  fun e he m hm st hst => ⟨asks _ _, rfl, rfl, hasHorizon rfl, by revert e m st; decide +kernel, rfl,
    draftReady (by revert e m st; decide +kernel)⟩

theorem witness_CancelFollowsTheState :
    ∀ st ∈ [BState.held, .confirmed, .awaitingCheckin, .checkedIn, .inProgress, .ended, .released, .cancelled],
      ∀ k ∈ [RecKind.meeting, .closure],
        let r := { meeting st with kind := k }
        let s := asked (.cancel 5) (booked r)
        Asks s ctx (.cancel r.id) [] ∧ s.book.bke.writeEdition = .live ∧ StoreSound s.book ∧
          s.book.bke.horizon ≠ none ∧ HoldsLive s.book 0 r ∧ RowsOpen s.book r.room r.date r.start 0 ∧ r.kind = k ∧
          r.state = st :=
  fun st hst k hk => ⟨asks _ _, rfl, rfl, hasHorizon rfl, holdsLive _ rfl,
    rowsOpen (by revert st k; decide +kernel), rfl, rfl⟩

/-- A hold and a CONFIRMED meeting, to another date, to the same slots but one, and to a slot that has begun. -/
theorem witness_MovePlacesTheMeetingAnew :
    ∀ st ∈ [BState.held, .confirmed], ∀ p ∈ [(tuesday, 0), (monday, 17), (monday, 12)],
      let f : MoveFields := { id := 5, room := 0, date := p.1, start := p.2, count := 2 }
      let r := meeting st
      let s := asked (.move f) (booked r)
      Asks s ctx (.move f) [] ∧ MovePasses s 0 r f roomA ∧ r.order = none := by
  intro st hst p hp
  refine ⟨asks _ _, ⟨⟨rfl, rfl, rfl, holdsLive _ rfl, rfl, ?_, Nat.zero_le 383, spanPasses ?_, rfl,
    takesRoom ?_ rfl rfl⟩, rowsOpen ?_, rowsOpen ?_, ?_, fun _ _ => by rfl⟩, rfl⟩ <;>
    revert st p <;> decide +kernel

/-- In the draft: a draft record and a live one, marked and not, to each of those places. -/
theorem witness_DraftMove :
    ∀ e ∈ [Edition.draft, .live], ∀ m ∈ [[], [5]], ∀ p ∈ [(tuesday, 0), (monday, 17), (monday, 12)],
      let f : MoveFields := { id := 5, room := 0, date := p.1, start := p.2, count := 2 }
      let r := { meeting .confirmed with edition := e }
      let s := asked (.move f) (drafting (if e = .draft then [5] else []) m (booked r))
      Asks s ctx (.move f) [] ∧ s.book.bke.writeEdition = .draft ∧ StoreSound s.book ∧ f.id = r.id ∧
        s.book.slotOf r.id = some 0 ∧ s.book.slot 0 = some (.sound r) ∧ r.kind = .meeting ∧ r.state = .confirmed ∧
        f.room ≤ 383 ∧ SpanPasses s.ctu s.book f.date f.start f.count ∧ RoomTakes s.book f.room r.attendees roomA ∧
        DraftReady s.book (s.book.familyDays r.room r.date ++ s.book.familyDays f.room f.date) ∧
        s.book.conflict .draft f.room f.date f.start f.count
          (clipBuffer (f.start + f.count) (s.book.squ.bufferOf roomA)) (some r) = none ∧
        s.book.tableFull = false ∧ s.book.bke.draft.records.length < 512 ∧ r.label = cleanLabel r.label := by
  intro e he m hm p hp
  refine ⟨asks _ _, rfl, rfl, rfl, ?_, rfl, rfl, rfl, Nat.zero_le 383, spanPasses ?_, takesRoom ?_ rfl rfl,
    draftReady ?_, ?_, rfl, ?_, rfl⟩ <;>
    revert e m p <;> decide +kernel

/-- By 1 and by 4 slots, and to the end of the day, where the buffer is clipped to none. -/
theorem witness_ExtendLengthensTheMeeting :
    (∀ p ∈ [(16, 1), (16, 4), (58, 4)],
      let r := { meeting .checkedIn with start := p.1 }
      let s := asked (.extend 5 p.2) (booked r)
      Asks s ctx (.extend r.id p.2) [] ∧ s.book.bke.writeEdition = .live ∧ StoreSound s.book ∧
        s.book.bke.horizon ≠ none ∧ HoldsLive s.book 0 r ∧ r.kind = .meeting ∧ r.state.started = true ∧ 1 ≤ p.2 ∧
        p.2 ≤ 4 ∧ r.start + r.count + p.2 ≤ 64 ∧ RowsOpen s.book r.room r.date 0 0 ∧
        s.book.conflict .live r.room r.date (r.start + r.count) p.2
          (clipBuffer (r.start + r.count + p.2) r.bufSlots) (some r) = none) ∧
      let r := { meeting .checkedIn with start := 11 }
      let s := claimed .extend (booked r)
      s.book.mail.ppuToBke = [claimOf .extend] ∧ StoreSound s.book ∧ s.book.bke.records.wf = true ∧
        s.book.bke.horizon ≠ none ∧ HoldsLive s.book 0 r ∧
        s.book.runningChoice s.ctu 0 = some (0, r) ∧ r.state.started = true ∧ r.start + r.count < 64 ∧
        RowsOpen s.book r.room r.date 0 0 ∧
        s.book.conflict .live r.room r.date (r.start + r.count) 1 (clipBuffer (r.start + r.count + 1) r.bufSlots)
          (some r) = none := by
  refine ⟨fun p hp => ⟨asks _ _, rfl, rfl, hasHorizon rfl, holdsLive _ rfl, rfl, rfl, ?_, ?_, ?_, rowsOpen ?_, ?_⟩,
    rfl, rfl, rfl, hasHorizon rfl, holdsLive _ rfl, by decide +kernel, rfl, by decide, rowsOpen (by decide +kernel),
    by decide +kernel⟩ <;> revert p <;> decide +kernel

/-- The clock in slot 12, and before the first boundary of a clock set at 09:00, whose mark lies in slot 12. -/
def inSlot12 (b : Option Nat) (s : State) : State :=
  { s with ctu := { s.ctu with clock := some { nine with lastBoundary := b } } }

theorem slot12 (b : Option Nat) (s : State) (h : b = some 12 ∨ b = none) : IsSlotC (inSlot12 b s).ctu 12 := by
  rcases h with rfl | rfl
  · exact .inl rfl
  · exact .inr ⟨rfl, Nat.le_refl 540, Nat.lt_add_of_pos_right (n := 540) (k := 15) (by decide)⟩

/-- The room's row of today is QUARANTINED. -/
def quarantined (s : State) : State :=
  onBke (fun b => { b with rows := b.rows.put (rowKey 0 monday) { Row.new 0 monday with state := .quarantined } }) s

/-- In slot 12: a meeting that goes on, and one whose last slot it is; a buffer RESERVED and one released; rows that are
GOOD, where the buffer fits behind the new end, and one that is not. -/
theorem witness_EndNowShortensTheMeeting :
    (∀ b ∈ [some 12, none], ∀ p ∈ [(3, BufState.reserved), (2, .reserved), (3, .released)],
      let r := { meeting .inProgress with start := 11, count := p.1, bufState := p.2 }
      let s := inSlot12 b (asked (.endNow 5) (booked r))
      let t := inSlot12 b (claimed .endMeeting (booked r))
      (Asks s ctx (.endNow r.id) [] ∧ StoreSound s.book ∧ s.book.bke.horizon ≠ none ∧ HoldsLive s.book 0 r ∧
        r.kind = .meeting ∧ r.state.started = true ∧ IsSlotC s.ctu 12 ∧ r.start ≤ 12 ∧
        RowsStand s.book r.room r.date) ∧
        t.book.mail.ppuToBke = [claimOf .endMeeting] ∧ t.book.bke.records.wf = true ∧ HoldsLive t.book 0 r ∧
          t.book.runningChoice t.ctu 0 = some (0, r) ∧ IsSlotC t.ctu 12 ∧ RowsStand t.book r.room r.date) ∧
      (12 + 1 - 11 < 3 ∧ 2 ≤ 12 + 1 - 11) ∧
      let r := { meeting .inProgress with start := 11, count := 3 }
      (booked r).book.conflict .live r.room r.date 13 0 (clipBuffer 13 1) (some r) = none ∧
        (quarantined (booked r)).book.conflict .live r.room r.date 13 0 (clipBuffer 13 1) (some r) ≠ none ∧
        RowsStand (quarantined (booked r)).book r.room r.date := by
  refine ⟨fun b hb p hp => ⟨⟨asks _ _, rfl, hasHorizon rfl, holdsLive _ rfl, rfl, rfl, slot12 _ _ ?_, ?_, rowsStand ?_⟩,
    rfl, rfl, holdsLive _ rfl, ?_, slot12 _ _ ?_, rowsStand ?_⟩, by decide, by decide +kernel, by decide +kernel,
    rowsStand (by decide +kernel)⟩ <;>
    revert b p <;> decide +kernel

/-- In slot 63 too, where the slots asked are cut; a buffer RESERVED, and one released. -/
theorem witness_WalkupAndBufferRelease :
    (∀ b ∈ [12, 63],
      let s := claimed (.walkup 4) { office with ctu := { office.ctu with clock := some { nine with lastBoundary := some b } } }
      s.book.mail.ppuToBke = [claimOf (.walkup 4)] ∧ StoreSound s.book ∧ s.book.bke.horizon = some hours ∧
        s.ctu.slot = .slot b ∧ b ≤ 63 ∧ RoomTakes s.book 0 0 roomA ∧ roomA.walkup = true ∧ TablesOpen s.book roomA ∧
        RowsOpen s.book 0 hours.today b (min 4 (64 - b) + clipBuffer (b + min 4 (64 - b)) (s.book.squ.bufferOf roomA))) ∧
      ∀ bs ∈ [BufState.reserved, .released],
        let r := { meeting .checkedIn with bufState := bs }
        let s := onMail (fun m => { m with squToBke := [5] }) (booked r)
        s.book.mail.squToBke = [r.id] ∧ StoreSound s.book ∧ HoldsLive s.book 0 r ∧ RowsOpen s.book r.room r.date 0 0 ∧
          r.bufState = bs := by
  refine ⟨fun b hb => ⟨rfl, rfl, rfl, ?_, ?_, takesRoom (Nat.zero_le 10) rfl rfl, rfl, ⟨rfl, by rfl⟩, rowsOpen ?_⟩,
    fun bs hbs => ⟨rfl, rfl, holdsLive _ rfl, rowsOpen ?_, rfl⟩⟩
  · revert b; decide +kernel
  · revert b; decide +kernel
  · revert b; decide +kernel
  · revert bs; decide +kernel

/-! ## On claims that the conflict test refuses -/

/-- The room's row of today is in row state `st`, and its cell `k` is CLOSED. -/
def walled (st : RowState) (k : Nat) (s : State) : State :=
  onBke (fun b =>
    { b with
      rows := b.rows.put (rowKey 0 monday) { Row.new 0 monday with state := st, cells := freeCells.set k .closed } }) s

/-- A test of room 0, that has no part, finds its row QUARANTINED or REBUILDING. -/
theorem refusedRow {b : Book} {ed : Edition} {d : Date} {start count buf : Nat} {excl : Option Record} {st : RowState}
    {cells : List Cell} (hf : rowFamily b.bke.rooms 0 = [0]) (hr : rowTested b ed 0 d = some (st, cells))
    (hs : st ≠ .good) : ∃ a, TestRefuses b ed 0 d start count buf excl a := by
  have first (P : Nat → RowState → List Cell → Prop) (hP : P 0 st cells) : FirstTested b ed 0 d P 0 cells :=
    ⟨[], [], st, hf, hr, hP, nofun⟩
  cases st with
  | good => exact absurd rfl hs
  | quarantined => exact ⟨_, .quarantined 0 cells (first _ rfl)⟩
  | rebuilding =>
    refine ⟨_, .rebuilding 0 cells (fun x hx st' cs h => ?_) (first _ rfl)⟩
    rw [hf, List.mem_singleton] at hx
    subst hx
    rw [hr] at h; cases h; decide

/-- A test of room 0, that has no part, finds its row GOOD and cell `k` the first taken. -/
theorem refusedCell {b : Book} {ed : Edition} {d : Date} {start count buf : Nat} {excl : Option Record}
    {cells : List Cell} (k : Nat) (hf : rowFamily b.bke.rooms 0 = [0])
    (hr : rowTested b ed 0 d = some (.good, cells)) (hk : start ≤ k ∧ k < start + (count + buf))
    (ht : cellAt cells k ≠ .free) (hb : ∀ j, start ≤ j → j < k → cellAt cells j = .free)
    (he : ∀ q, excl = some q → ¬CoversAt q k) :
    ∃ a, TestRefuses b ed 0 d start count buf excl a := by
  have taken : CellTaken b excl 0 d cells k := ⟨ht, fun q hq _ _ => he q hq⟩
  obtain ⟨id, hid⟩ := coveredBy_exists b ed 0 d k
  have answers (detail : Detail) := TestRefuses.conflict (count := count) (excl := excl) 0 k cells id detail
    (fun x hx st cs h => by
      rw [hf, List.mem_singleton] at hx; subst hx; rw [hr] at h; cases h; rfl)
    ⟨[], [], .good, hf, hr, ⟨k, hk.1, hk.2, taken⟩, nofun⟩ hk.1 taken
    (fun j h1 h2 h3 => h3.1 (hb j h1 h2)) hid
  by_cases hsp : AllTested b ed 0 d (fun y _ cs => ¬RowTaken b excl d start count y cs)
  · exact ⟨_, answers .buffer (fun _ => rfl) (fun h => absurd hsp h)⟩
  · exact ⟨_, answers .span (fun h => absurd h hsp) (fun _ => rfl)⟩

theorem cellAt_wall (n k j : Nat) :
    cellAt ((List.replicate n .free).set k .closed) j = if j = k ∧ k < n then .closed else .free := by
  unfold cellAt
  by_cases h : j = k
  · subst h
    by_cases hn : j < n <;> simp [hn]
  · by_cases hn : j < n <;> simp [h, hn, Ne.symm h]

/-- A test of room 0, that has no part, finds its row walled in a cell of the test. -/
theorem refusedWall {b : Book} {ed : Edition} {d : Date} {start count buf : Nat} {excl : Option Record}
    (w : RowState × Nat) (hf : rowFamily b.bke.rooms 0 = [0])
    (hr : rowTested b ed 0 d = some (w.1, freeCells.set w.2 .closed))
    (hw : w.1 = .good → w.2 < 64 ∧ start ≤ w.2 ∧ w.2 < start + (count + buf))
    (he : ∀ q, excl = some q → ¬CoversAt q w.2) :
    ∃ a, TestRefuses b ed 0 d start count buf excl a := by
  by_cases hg : w.1 = .good
  · obtain ⟨h64, hk⟩ := hw hg
    rw [hg] at hr
    refine refusedCell w.2 hf hr hk ?_ (fun j _ hj => ?_) he
    · rw [freeCells, cellAt_wall, if_pos ⟨rfl, h64⟩]; decide
    · rw [freeCells, cellAt_wall, if_neg fun h => absurd h.1 (Nat.ne_of_lt hj)]
  · exact refusedRow hf hr hg

theorem wholeDrafts {b : Book} {ed : Edition} {room : Nat} {d : Date} (h : b.bke.draft.rows = ⟨[]⟩) :
    DraftsWhole b ed room d := by
  intro _ x _ z hz
  rw [Book.draftRow, h] at hz
  cases hz

/-- A record whose span and RESERVED buffer both lie before the cell. -/
theorem uncovered {q : Record} {k : Nat} (h : q.start + q.count ≤ k)
    (hb : q.bufState = .reserved → q.start + q.count + q.bufSlots ≤ k) : ¬CoversAt q k := by
  rintro (⟨_, _, h2⟩ | ⟨h1, _, h2⟩)
  · omega
  · have := hb h1; omega

/-- The rows that the tests below meet: QUARANTINED, REBUILDING, and GOOD with one cell taken. -/
def walls (l : List Nat) : List (RowState × Nat) :=
  [(.quarantined, 40), (.rebuilding, 40)] ++ l.map fun k => (.good, k)

/-- In each edition; a row in each state that is not GOOD, and one taken in the last cell of the span and of the buffer. -/
theorem witness_BookIsRefused :
    ∀ w ∈ walls [21, 22], ∀ ed ∈ [Edition.live, .draft],
      let f := span 20 2
      let s := asked (.book f) (onBke (fun b => { b with writeEdition := ed }) (walled w.1 w.2 office))
      Asks s ctx (.book f) [] ∧ TestReady s.book s.book.bke.writeEdition f.room f.date ∧ FieldsOk f ∧
        SpanPasses s.ctu s.book f.date f.start f.count ∧ RoomTakes s.book f.room f.attendees roomA ∧
        ∃ a, TestRefuses s.book s.book.bke.writeEdition f.room f.date f.start f.count
          (clipBuffer (f.start + f.count) (s.book.squ.bufferOf roomA)) none a := by
  intro w hw ed hed
  refine ⟨asks _ _, ⟨rfl, rfl, fun _ => rfl, wholeDrafts rfl⟩, rfl, spanPasses ?_, takesRoom (Nat.le_refl 10) rfl rfl,
    refusedWall w ?_ ?_ ?_ (fun _ h => nomatch h)⟩ <;> revert w ed <;> decide +kernel

/-- As for BOOK. -/
theorem witness_HoldIsRefused :
    ∀ w ∈ walls [21, 22],
      let f := span 20 2
      let s := asked (.hold f none) (walled w.1 w.2 office)
      Asks s ctx (.hold f none) [] ∧ s.book.bke.writeEdition = .live ∧ TestReady s.book .live f.room f.date ∧
        FieldsOk f ∧ SpanPasses s.ctu s.book f.date f.start f.count ∧ RoomTakes s.book f.room f.attendees roomA ∧
        ∃ a, TestRefuses s.book .live f.room f.date f.start f.count
          (clipBuffer (f.start + f.count) (s.book.squ.bufferOf roomA)) none a := by
  intro w hw
  refine ⟨asks _ _, rfl, ⟨rfl, rfl, fun _ => rfl, wholeDrafts rfl⟩, rfl, spanPasses ?_, takesRoom (Nat.le_refl 10) rfl rfl,
    refusedWall w ?_ ?_ ?_ (fun _ h => nomatch h)⟩ <;> revert w <;> decide +kernel

/-- As for BOOK, and with a start that is past for CHECKED_IN. -/
theorem witness_LoadIsRefused :
    (∀ w ∈ walls [21, 22],
      let f := span 20 2
      let s := asked (.load f 9 .confirmed) (walled w.1 w.2 office)
      Asks s ctx (.load f 9 .confirmed) [] ∧ s.book.bke.writeEdition = .live ∧ TestReady s.book .live f.room f.date ∧
        FieldsOk f ∧ 9 ∉ s.book.usedIds ∧ s.book.bke.horizon.isSome = true ∧ (s.book.offset f.date).isSome = true ∧
        spanInDay f.start f.count = true ∧ (s.book.isToday f.date = true → s.ctu.passed (f.start + f.count) = false) ∧
        RoomTakes s.book f.room f.attendees roomA ∧
        ∃ a, TestRefuses s.book .live f.room f.date f.start f.count
          (clipBuffer (f.start + f.count) (s.book.squ.bufferOf roomA)) none a) ∧
      let s := asked (.load (span 12 1) 9 .checkedIn) (walled .good 12 office)
      s.book.startPast s.ctu monday 12 = true ∧ s.ctu.passed 13 = false := by
  refine ⟨fun w hw => ?_, by decide +kernel⟩
  refine ⟨asks _ _, rfl, ⟨rfl, rfl, fun _ => rfl, wholeDrafts rfl⟩, rfl, nofun, rfl, ?_, ?_, ?_,
    takesRoom (Nat.le_refl 10) rfl rfl, refusedWall w ?_ ?_ ?_ (fun _ h => nomatch h)⟩ <;>
    revert w <;> decide +kernel

/-- As for BOOK; a closure has no buffer. -/
theorem witness_CloseCellsIsRefused :
    ∀ w ∈ walls [20, 21], ∀ ed ∈ [Edition.live, .draft],
      let f : CloseFields := { room := 0, date := monday, start := 20, count := 2, label := none, organiser := 7 }
      let s := asked (.closeCells f) (onBke (fun b => { b with writeEdition := ed }) (walled w.1 w.2 office))
      Asks s ctx (.closeCells f) [] ∧ TestReady s.book s.book.bke.writeEdition f.room f.date ∧ f.room ≤ 383 ∧
        labelBad f.label = false ∧ SpanPasses s.ctu s.book f.date f.start f.count ∧
        s.book.room f.room = some roomA ∧ s.book.bke.guard.contains f.room = false ∧
        ∃ a, TestRefuses s.book s.book.bke.writeEdition f.room f.date f.start f.count 0 none a := by
  intro w hw ed hed
  refine ⟨asks _ _, ⟨rfl, rfl, fun _ => rfl, wholeDrafts rfl⟩, Nat.zero_le 383, rfl, spanPasses ?_, rfl, rfl,
    refusedWall w ?_ ?_ ?_ (fun _ h => nomatch h)⟩ <;> revert w ed <;> decide +kernel

/-- A hold over a row that is not GOOD. -/
theorem witness_ConfirmIsRefused :
    ∀ w ∈ walls [],
      let r := meeting .held
      let s := asked (.confirm 5) (walled w.1 w.2 (booked r))
      Asks s ctx (.confirm r.id) [] ∧ TestReady s.book .live r.room r.date ∧ s.book.bke.horizon ≠ none ∧
        HoldsLive s.book 0 r ∧ r.kind = .meeting ∧ r.state = .held ∧
        ∃ a, TestRefuses s.book .live r.room r.date r.start 0 0 none a := by
  intro w hw
  refine ⟨asks _ _, ⟨rfl, rfl, fun _ => rfl, wholeDrafts rfl⟩, hasHorizon rfl, holdsLive _ rfl, rfl, rfl,
    refusedWall w ?_ ?_ ?_ (fun _ h => nomatch h)⟩ <;> revert w <;> decide +kernel

/-- A meeting of slots 16 and 17 moved to 17 and 18, one of which it covers itself, with its buffer at 19. -/
def moveFields : MoveFields := { id := 5, room := 0, date := monday, start := 17, count := 2 }

/-- A hold and a CONFIRMED meeting; the second cell of the span taken, and that of the buffer. -/
theorem witness_MoveIsRefused :
    ∀ w ∈ walls [18, 19], ∀ st ∈ [BState.held, .confirmed],
      let f := moveFields
      let r := { meeting st with bufState := .released }
      let s := asked (.move f) (walled w.1 w.2 (booked r))
      Asks s ctx (.move f) [] ∧ MoveReaches s 0 r f roomA ∧ TestReady s.book .live f.room f.date ∧
        ∃ a, TestRefuses s.book .live f.room f.date f.start f.count
          (clipBuffer (f.start + f.count) (s.book.squ.bufferOf roomA)) (some r) a := by
  intro w hw st hst
  refine ⟨asks _ _, ⟨rfl, rfl, rfl, holdsLive _ rfl, rfl, ?_, Nat.zero_le 383, spanPasses ?_, rfl, takesRoom ?_ rfl rfl⟩,
    ⟨rfl, rfl, nofun, wholeDrafts rfl⟩, refusedWall w ?_ ?_ ?_ (ofFound rfl (uncovered ?_ ?_))⟩ <;>
    revert w st <;> decide +kernel

/-- In the draft: a draft record, and a live one that is not marked. -/
theorem witness_DraftMoveIsRefused :
    ∀ w ∈ walls [18, 19], ∀ e ∈ [Edition.draft, .live],
      let f := moveFields
      let r := { meeting .confirmed with edition := e, bufState := .released }
      let s := asked (.move f) (drafting (if e = .draft then [5] else []) [] (walled w.1 w.2 (booked r)))
      Asks s ctx (.move f) [] ∧ s.book.bke.writeEdition = .draft ∧ TestReady s.book .draft f.room f.date ∧ f.id = r.id ∧
        s.book.slotOf r.id = some 0 ∧ s.book.slot 0 = some (.sound r) ∧ r.kind = .meeting ∧ r.state = .confirmed ∧
        r.id ∉ s.book.bke.draft.marked ∧ SpanPasses s.ctu s.book f.date f.start f.count ∧
        RoomTakes s.book f.room r.attendees roomA ∧
        ∃ a, TestRefuses s.book .draft f.room f.date f.start f.count
          (clipBuffer (f.start + f.count) (s.book.squ.bufferOf roomA)) (some r) a := by
  intro w hw e he
  refine ⟨asks _ _, rfl, ⟨rfl, rfl, fun _ => rfl, wholeDrafts rfl⟩, rfl, ?_, rfl, rfl, rfl, ?_, spanPasses ?_,
    takesRoom ?_ rfl rfl, refusedWall w ?_ ?_ ?_ (ofFound rfl (uncovered ?_ ?_))⟩ <;>
    revert w e <;> decide +kernel

/-- By 2 slots with a RESERVED buffer: the second cell asked taken, and the new buffer's; a panel's by one slot. -/
theorem witness_ExtendIsRefused :
    (∀ w ∈ walls [19, 20],
      let r := meeting .checkedIn
      let s := asked (.extend 5 2) (walled w.1 w.2 (booked r))
      Asks s ctx (.extend r.id 2) [] ∧ s.book.bke.writeEdition = .live ∧ TestReady s.book .live r.room r.date ∧
        s.book.bke.horizon ≠ none ∧ HoldsLive s.book 0 r ∧ r.kind = .meeting ∧ r.state.started = true ∧
        ∃ a, TestRefuses s.book .live r.room r.date (r.start + r.count) 2
          (if r.bufState = .reserved then clipBuffer (r.start + r.count + 2) r.bufSlots else 0) (some r) a) ∧
      ∀ w ∈ walls [14],
        let r := { meeting .checkedIn with start := 11 }
        let s := claimed .extend (walled w.1 w.2 (booked r))
        s.book.mail.ppuToBke = [claimOf .extend] ∧ TestReady s.book .live r.room r.date ∧ s.book.bke.horizon ≠ none ∧
          HoldsLive s.book 0 r ∧ s.book.runningChoice s.ctu 0 = some (0, r) ∧ r.kind = .meeting ∧
          r.state.started = true ∧ r.start + r.count < 64 ∧
          ∃ a, TestRefuses s.book .live r.room r.date (r.start + r.count) 1
            (if r.bufState = .reserved then clipBuffer (r.start + r.count + 1) r.bufSlots else 0) (some r) a := by
  refine ⟨fun w hw => ⟨asks _ _, rfl, ⟨rfl, rfl, nofun, wholeDrafts rfl⟩, hasHorizon rfl, holdsLive _ rfl, rfl, rfl,
      refusedWall w ?_ ?_ ?_ (ofFound rfl (uncovered ?_ ?_))⟩,
    fun w hw => ⟨rfl, ⟨rfl, rfl, nofun, wholeDrafts rfl⟩, hasHorizon rfl, holdsLive _ rfl, ?_, rfl, rfl, ?_,
      refusedWall w ?_ ?_ ?_ (ofFound rfl (uncovered ?_ ?_))⟩⟩ <;>
    revert w <;> decide +kernel

/-- The second slot asked taken, and the buffer's. -/
theorem witness_WalkupIsRefused :
    ∀ w ∈ walls [13, 14],
      let s := claimed (.walkup 2) (walled w.1 w.2 office)
      s.book.mail.ppuToBke = [claimOf (.walkup 2)] ∧ TestReady s.book .live 0 hours.today ∧
        s.book.bke.horizon = some hours ∧ s.ctu.slot = .slot 12 ∧ RoomTakes s.book 0 0 roomA ∧ roomA.walkup = true ∧
        ∃ a, TestRefuses s.book .live 0 hours.today 12 (min 2 (64 - 12))
          (clipBuffer (12 + min 2 (64 - 12)) (s.book.squ.bufferOf roomA)) none a := by
  intro w hw
  refine ⟨rfl, ⟨rfl, rfl, nofun, wholeDrafts rfl⟩, rfl, rfl, takesRoom (Nat.zero_le 10) rfl rfl, rfl,
    refusedWall w ?_ ?_ ?_ (fun _ h => nomatch h)⟩ <;> revert w <;> decide +kernel

/-- R25: a BOOK over the last slot of a meeting, and one whose buffer alone is taken, by cell 22 CLOSED by no record. -/
theorem test_conflictAnswers :
    let told (f : BookFields) (s : State) : List OutFrame := (after .book (asked (.book f) s)).book.hmp.out
    let row : List Cell := ((freeCells.set 16 .booked).set 17 .booked).set 18 .buffer
    let s := onBke (fun b => { b with rows := b.rows.put (rowKey 0 monday) { Row.new 0 monday with cells := row } })
      (booked (meeting .confirmed))
    told (span 17 2) s =
        [.reply ctx
          { status := .conflict, detail := .span
            data := .clash { room := 0, code := some 1, slot := 17, cell := .booked, booking := some 5 } }] ∧
      told (span 20 2) (walled .good 22 office) =
        [.reply ctx
          { status := .conflict, detail := .buffer
            data := .clash { room := 0, code := some 1, slot := 22, cell := .closed, booking := none } }] ∧
      told (span 20 2) (walled .rebuilding 22 office) =
        [.reply ctx { status := .busy, detail := .rebuilding, data := .room 0 (some 1) }] := by
  decide +kernel

/-! ## On the live book: campus time -/

def event (d : Date) (k : EventKind) : TimeEvent := { date := d, kind := k }

/-- The events given are all that each recipient has to take. -/
def told (l : List TimeEvent) (s : State) : State :=
  onMail (fun m => { m with bkeEvents := l, ppuEvents := l, cscEvents := l, squEvents := l }) s

theorem witness_HorizonOpenAndDayRetire :
    ((told [event monday (.horizonOpen .monday 540 (.slot 12))] office).book.mail.bkeEvents =
        [event monday (.horizonOpen .monday 540 (.slot 12))] ∧ monday.valid = true ∧ 0 ∈ office.book.bke.rooms.keys) ∧
      let o := event tuesday (.dayOpen (tuesday.after 13) (weekday13 .tuesday))
      let s := told [event monday .dayRetire, o] (booked (meeting .ended))
      s.book.mail.bkeEvents = [event monday .dayRetire, o] ∧
        (∀ k r, s.book.bke.rows.find k = some r → k = rowKey r.room r.date) ∧ monday ≠ tuesday.after 13 ∧
        (∀ p ∈ s.book.bke.series.entries, p.2.mask.contains (weekday13 .tuesday) = false) := by
  refine ⟨by decide, rfl, ofEntries ?_, by decide, by decide⟩
  decide +kernel

/-- A meeting that begins at the boundary with each mark, one in each state whose span ends there, a buffer that ends
there, and one elsewhere. -/
theorem witness_SlotBoundaryStartsAndEnds :
    (∀ c ∈ [CheckMark.none, .early],
      let r := { meeting .confirmed with check := c }
      let s := told [event monday (boundaryEvent 16)] (booked r)
      s.book.mail.bkeEvents = [event monday (boundaryEvent 16)] ∧ StoreSound s.book ∧ s.book.bke.records.wf = true ∧
        s.book.slot 0 = some (.sound r) ∧ 1 ≤ r.count ∧ r.edition = .live ∧ r.date = monday ∧ r.start = 16 ∧
        r.start + r.count ≠ 16) ∧
      (∀ st ∈ [BState.held, .awaitingCheckin, .checkedIn, .inProgress, .confirmed],
        let r := { meeting st with kind := if st = .confirmed then .closure else .meeting }
        let s := told [event monday (boundaryEvent 18)] (booked r)
        StoreSound s.book ∧ s.book.slot 0 = some (.sound r) ∧ r.start + r.count = 18 ∧
          RowsOpen s.book r.room r.date 0 0) ∧
      (meeting .ended).bufState = .reserved ∧ (meeting .ended).start + (meeting .ended).count + (meeting .ended).bufSlots = 19 ∧
      (meeting .confirmed).start ≠ 17 ∧ (meeting .confirmed).start + (meeting .confirmed).count ≠ 17 ∧
      (meeting .confirmed).start + (meeting .confirmed).count + (meeting .confirmed).bufSlots ≠ 17 := by
  exact ⟨fun _ _ => ⟨rfl, rfl, rfl, rfl, Nat.le_succ 1, rfl, rfl, rfl, Nat.succ_ne_self 17 ∘ fun h => by cases h⟩,
    fun st hst => ⟨rfl, rfl, rfl, rowsOpen (by revert st; decide +kernel)⟩, by decide⟩

/-- At the minute of the expiry itself. -/
theorem witness_HoldsLapseAndNoShowsAreReleased :
    (let r := { meeting .held with holdExpiry := some 545 }
     let h : HoldEntry := { id := 5, expiry := 545, spent := false }
     let s := told [event monday (.minute 545)] (onBke (fun b => { b with holds := [h] }) (booked r))
     s.book.bkeMinuteEvent = some (monday, 545) ∧ StoreSound s.book ∧ s.book.dueHold 545 = some h ∧ h.id = r.id ∧
      HoldsLive s.book 0 r ∧ r.state = .held ∧ RowsOpen s.book r.room r.date 0 0) ∧
      let r := { meeting .awaitingCheckin with graceExpiry := some 610 }
      let s := told [event monday (.minute 610)] (booked r)
      s.book.bkeMinuteEvent = some (monday, 610) ∧ StoreSound s.book ∧ s.book.dueGrace monday 610 = some 0 ∧
        HoldsLive s.book 0 r ∧ r.state = .awaitingCheckin ∧ RowsOpen s.book r.room r.date 0 0 :=
  ⟨⟨rfl, rfl, by decide +kernel, rfl, holdsLive _ rfl, rfl, rowsOpen (by decide +kernel)⟩,
    ⟨rfl, rfl, by decide +kernel, holdsLive _ rfl, rfl, rowsOpen (by decide +kernel)⟩⟩

/-! ## On reads -/

def runA : Run :=
  { id := 1, booking := 5, template := 0, date := monday, room := 0, startMinute := 600, endMinute := 630,
    fromCheckin := true, checkinMinute := none
    steps := [{ step := overlayStep, due := some 541, mark := .due, firedAt := none }], state := .armed }

def seriesA : Series :=
  { id := 3, room := 0, start := 20, count := 2, mask := [.wednesday], first := monday, last := none,
    firstReached := true, lastReached := false, organiser := 7, attendees := 4, label := none, made := 0, skipped := 0 }

def search : FindFields :=
  { date := monday, start := 13, count := 1, minSeats := 500, building := some 15, first := some 383 }

/-- Nine rooms of one kind, each with a free row. -/
def nineRooms : State :=
  onBke (fun b =>
    { b with
      rooms := ⟨(List.range 9).map fun k => (k, roomA)⟩
      rows := ⟨(List.range 9).map fun k => (rowKey k monday, Row.new k monday)⟩ }) office

/-- A search that 8 of the nine rooms end, and one that passes none. -/
theorem witness_FindFreeLists :
    let passing (s : State) : List (Nat × Room) :=
      s.book.bke.rooms.entries.filter fun p =>
        decide (10 ≤ p.2.seats) && (s.book.conflict s.book.bke.readEdition p.1 monday 13 1 1 none).isNone
    nineRooms.book.bke.rooms.wf = true ∧ (passing nineRooms)[7]? = some (7, roomA) ∧ StoreSound nineRooms.book ∧
      (passing (onBke (fun b => { b with rows := ⟨[]⟩, rooms := ⟨[]⟩ }) office)).length < 8 := by
  refine ⟨?_, ?_, rfl, ?_⟩ <;> decide +kernel

/-- A row in the read edition LIVE, and a draft row that is damaged or not. -/
theorem witness_ReadRowOfADraft :
    ∀ m ∈ [false, true],
      let z : DraftRow :=
        { room := 0, date := monday, base := 0, place := 0, cells := freeCells, damaged := m, freed := [] }
      let s := onBke (fun b =>
        { b with readEdition := .draft, draft := { b.draft with rows := ⟨[(rowKey 0 monday, z)]⟩ } })
          (asked (.readRow 0 monday (some 63)) office)
      Asks s ctx (.readRow 0 monday (some 63)) [] ∧ (some 63 : Option Nat).getD 0 ≤ 63 ∧
        s.book.draftView s.book.bke.readEdition 0 monday = some z ∧ s.book.bke.records.wf = true ∧
        s.book.row 0 monday = some (Row.new 0 monday) :=
  fun m hm => ⟨asks _ _, by decide, by revert m; decide +kernel, rfl, by revert m; decide +kernel⟩

/-- The ids of a table of one record are distinct. -/
theorem distinctIds (r : Record) : DistinctIds (booked r).book := by
  have h : ∀ k x, (booked r).book.bke.records.find k = some x → k = 0 :=
    ofEntries fun e he => by
      simp only [booked, onBke, Book.withBke, List.mem_singleton] at he
      rw [he]
  intro m n _ _ hm hn _
  exact (h m _ hm).trans (h n _ hn).symm

/-- A row in each state, a draft record, and a run found by its booking and none. -/
theorem witness_BookReadsChangeNothing :
    (let s := asked (.readBooking 5) (booked (meeting .confirmed))
     Asks s ctx (.readBooking (meeting .confirmed).id) [] ∧ StoreSound s.book ∧ s.book.bke.horizon ≠ none ∧
      (meeting .confirmed).id ≠ 0 ∧ HoldsLive s.book 0 (meeting .confirmed)) ∧
      (∀ st ∈ [RowState.good, .rebuilding, .quarantined],
        let r := { Row.new 0 monday with state := st }
        let s := asked (.readRow 0 monday none) (onBke (fun b => { b with rows := ⟨[(rowKey 0 monday, r)]⟩ }) office)
        Asks s ctx (.readRow 0 monday none) [] ∧ StoreSound s.book ∧ s.book.bke.horizon ≠ none ∧
          s.book.offset monday = some 0 ∧ s.book.room 0 = some roomA ∧ s.book.row 0 monday = some r ∧ r.room = 0 ∧
          r.date = monday ∧ s.book.draftView s.book.bke.readEdition 0 monday = none ∧ s.book.bke.records.wf = true ∧
          r.state = st) ∧
      (let s := asked (.findFree search) office
       Asks s ctx (.findFree search) [] ∧ StoreSound s.book ∧
        SpanPasses s.ctu s.book search.date search.start search.count ∧ 1 ≤ search.minSeats ∧ search.minSeats ≤ 500 ∧
        search.building.all (fun x => decide (x ≤ 15)) = true ∧ search.first.getD 0 ≤ 383) ∧
      (let s := asked (.readSeries 3) (onBke (fun b => { b with series := ⟨[(3, seriesA)]⟩ }) office)
       Asks s ctx (.readSeries 3) [] ∧ StoreSound s.book ∧ s.book.bke.horizon ≠ none ∧
        s.book.bke.series.find 3 = some seriesA ∧ s.book.bke.records.wf = true) ∧
      (let s := asked (.readRun (some 1) none) (running runA)
       Asks s ctx (.readRun (some 1) none) [] ∧ s.book.squ.runs.find 1 = some runA) ∧
      (let r := { meeting .confirmed with edition := .draft }
       let s := asked (.readBooking 5) (booked r)
       Asks s ctx (.readBooking r.id) [] ∧ s.book.slotOf r.id = some 0 ∧ s.book.slot 0 = some (.sound r)) ∧
      (let s := asked (.readRun none (some 5)) (running runA)
       Asks s ctx (.readRun none (some 5)) [] ∧ runA.booking = 5 ∧ s.book.squ.runs.wf = true ∧
        (∀ j y, s.book.squ.runs.find j = some y → 1 ≤ j ∧ y.booking ≠ 6)) ∧
      Asks (asked .readScrub office) ctx .readScrub [] :=
  ⟨⟨asks _ _, rfl, hasHorizon rfl, by decide, holdsLive _ rfl⟩,
    fun _ _ => ⟨asks _ _, rfl, hasHorizon rfl, rfl, rfl, rfl, rfl, rfl, rfl, rfl, rfl⟩,
    ⟨asks _ _, rfl, spanPasses (by decide), by decide⟩, ⟨asks _ _, rfl, hasHorizon rfl, rfl, rfl⟩, ⟨asks _ _, rfl⟩,
    ⟨asks _ _, by decide, rfl⟩, ⟨asks _ _, rfl, rfl, ofEntries (by decide)⟩, asks _ _⟩

/-- An order of the booking, of 10 covers, for slot 20. -/
def orderA (st : OrderState) : Order :=
  { id := 4, booking := 5, kitchen := 0, date := monday, slot := 20, lines := [{ menu := 1, quantity := 10 }],
    cutOff := 600, fired := false, state := st, ticket := .none, voidOwed := false, serial := 0
    copy := { date := monday, room := 0, start := 20, count := 2, state := some .confirmed, label := none } }

/-- A key that the set has (SETTINGS) and one that it has not. -/
theorem witness_OtherReadsChangeNothing :
    (let s := asked (.readOrder 4) (ordered (orderA .confirmed))
     Asks s ctx (.readOrder 4) [] ∧ s.book.csc.horizon ≠ none ∧ s.book.csc.orders.find 4 = some (orderA .confirmed)) ∧
      (let s := asked (.readCapacity 0 monday none) office
       Asks s ctx (.readCapacity 0 monday none) [] ∧ s.book.csc.horizon = some hours ∧
        (hours.offset monday).isSome = true ∧ s.book.csc.kitchen 0 = some kitchenA) ∧
      (let s := asked (.readWaitlist 0) office
       Asks s ctx (.readWaitlist 0) [] ∧ s.book.csc.horizon ≠ none ∧ s.book.csc.kitchen 0 = some kitchenA) ∧
      (∀ x ∈ [panelA, terminalA],
        let s := asked (.readStation 0 x.address) office
        takeFirst Handed.isReadStation s.book.mail.requests =
            some ({ ctx := ctx, request := .readStation 0 x.address }, []) ∧
          s.sbc.station 0 x.address = some x) ∧
      (∀ k ∈ [ItemKey.settings, .kitchen 5],
        let s := asked (.configGet k false) office
        Asks s ctx (.configGet k false) [] ∧ s.book.cfs.commit = none ∧ k.inRange = true) ∧
      (office.book.cfs.loadSet.find .settings).isSome = true ∧ office.book.cfs.loadSet.find (.kitchen 5) = none ∧
      Asks (asked .readIdentity office) ctx .readIdentity [] :=
  ⟨⟨asks _ _, by decide, rfl⟩, ⟨asks _ _, by decide⟩, ⟨asks _ _, by decide⟩, by decide,
    fun k hk => ⟨asks _ _, rfl, by revert k; decide⟩, by decide, by decide, asks _ _⟩

/-! ## On series and the draft -/

def weekly : SeriesFields :=
  { room := 0, start := 20, count := 2, mask := [.monday, .tuesday], first := none, last := some tuesday, organiser := 7,
    attendees := 10, label := none }

/-- Every row of the office stands under its key. -/
theorem rowsKeyed {b : Book} (hr : (b.bke.rows.entries.all fun e => e.1 == rowKey e.2.room e.2.date) = true)
    (hd : (b.bke.draft.rows.entries.all fun e => e.1 == rowKey e.2.room e.2.date) = true) : RowsKeyed b :=
  ⟨ofEntries fun e he => by simpa using List.all_eq_true.mp hr e he,
    ofEntries fun e he => by simpa using List.all_eq_true.mp hd e he⟩

/-- A creation on two dates that pass, and on one whose row is closed. -/
theorem witness_SeriesDates :
    let s := asked (.seriesCreate weekly) office
    let shut := { Row.new 0 tuesday with cells := List.replicate 64 .closed }
    let t := onBke (fun b => { b with rows := b.rows.put (rowKey 0 tuesday) shut }) s
    s.book.creationDates s.ctu (s.book.newSeries weekly monday) = [monday, tuesday] ∧
      (∀ d ∈ [monday, tuesday], s.book.conflict .live 0 d 20 2 1 none = none ∧ openB s.book 0 d 0 0 = true) ∧
      s.book.bke.records.size + 14 ≤ 4096 ∧ s.book.squ.runs.size + 14 ≤ 511 ∧
      (t.book.conflict .live 0 tuesday 20 2 1 none).isSome = true := by
  decide +kernel

/-- Instances in a state that is cancelled and in one that is not, and a record of no series. -/
theorem witness_SeriesAreMadeAndCancelled :
    (let s := asked (.seriesCreate weekly) office
     Asks s ctx (.seriesCreate weekly) [] ∧ s.book.bke.writeEdition = .live ∧ s.book.bke.horizon ≠ none ∧
      StoreSound s.book ∧ s.book.seriesBad weekly = false ∧ RoomTakes s.book weekly.room weekly.attendees roomA ∧
      s.book.bke.series.size < 127 ∧ (∀ h, s.book.bke.horizon = some h → h.today.valid = true) ∧ RowsKeyed s.book) ∧
      ∀ p ∈ [(BState.confirmed, some 3), (.inProgress, some 3), (.confirmed, none)],
        let r := { meeting p.1 with series := p.2 }
        let s := asked (.seriesCancel 3) (onBke (fun b => { b with series := ⟨[(3, seriesA)]⟩ }) (booked r))
        Asks s ctx (.seriesCancel 3) [] ∧ s.book.bke.writeEdition = .live ∧ s.book.bke.horizon ≠ none ∧
          s.book.bke.series.has 3 = true ∧ StoreSound s.book ∧ s.book.bke.records.wf = true ∧
          s.book.slot 0 = some (.sound r) ∧ r.edition = .live :=
  ⟨⟨asks _ _, rfl, hasHorizon rfl, rfl, by decide +kernel, takesRoom (Nat.le_refl 10) rfl rfl, by decide,
      ofFound (a := hours) rfl (by decide), rowsKeyed (by decide +kernel) (by decide +kernel)⟩,
    fun _ _ => ⟨asks _ _, rfl, hasHorizon rfl, rfl, rfl, rfl, rfl, rfl⟩⟩

/-- Two weeks after monday. -/
def opened : Date := tuesday.after 13

/-- The midnight of monday, with these series in the table. -/
def turning (l : List (Nat × Series)) : State :=
  told [event monday .dayRetire, event tuesday (.dayOpen opened .monday)]
    (onBke (fun b => { b with series := ⟨l⟩ }) (booked (meeting .ended)))

theorem dayTurns (l : List (Nat × Series)) :
    DayTurns (turning l) (event monday .dayRetire) (event tuesday (.dayOpen opened .monday)) opened .monday [] :=
  ⟨⟨rfl, rfl, rfl⟩, by decide, rfl, rowsKeyed rfl rfl, rfl, rfl⟩

theorem quietMonday (l : List (Nat × Series)) : QuietRetire (turning l).book monday := by
  refine ⟨fun p hp _ => ?_, by simp [turning, told, onMail, onBke, booked, office, emptyBook, Book.withMail, Book.withBke, Bke.reset]⟩
  have h : ∀ p ∈ (turning l).book.bke.rows.entries, p.2.state = .good := by
    show ∀ p ∈ [(rowKey 0 monday, Row.new 0 monday), (rowKey 0 tuesday, Row.new 0 tuesday)], p.2.state = .good
    decide +kernel
  exact h p hp

/-- A series that falls on the date opened, its last, which the room seats or not; two that overlap; and one whose last
date is retired. -/
theorem witness_SeriesAtDayOpen :
    (∀ n ∈ [4, 11],
      let x := { seriesA with mask := [.monday], last := some opened, attendees := n }
      OneSeriesFalls (turning [(3, x), (9, { x with id := 9, lastReached := true })]).book .monday x) ∧
      RoomTakes (turning []).book 0 4 roomA ∧ TablesOpen (turning []).book roomA ∧ roomA.seats < 11 ∧
      spanInDay 20 2 = true ∧ (∀ y ∈ rowFamily (turning []).book.bke.rooms 0, y ∈ (turning []).book.bke.rooms.keys) ∧
      rowFamily (turning []).book.bke.rooms 0 = [0] ∧
      (let x := { seriesA with mask := [.monday] }
       let y := { x with id := 9, start := 21 }
       let s := turning [(x.id, x), (y.id, y)]
       s.book.bke.series.entries = [(x.id, x), (y.id, y)] ∧ x.id < y.id ∧ x.start ≤ y.start ∧
        y.start < x.start + x.count ∧ ∀ n q, s.book.slot n = some (.sound q) → q.date ≠ opened) ∧
      let y := { seriesA with last := some monday, lastReached := true }
      (turning [(3, y)]).book.bke.series.wf = true ∧
        (∀ k z, (turning [(3, y)]).book.bke.series.find k = some z → z.id = k) ∧
        (turning [(3, y)]).book.bke.series.find 3 = some y := by
  refine ⟨fun n hn => ⟨rfl, ofEntries (by revert n; decide), by revert n; decide, by revert n; decide,
      ofEntries (by revert n; decide)⟩, takesRoom (by decide) rfl rfl, ⟨by decide +kernel, by decide +kernel⟩, by decide, by decide,
    by decide +kernel, by decide +kernel, ⟨rfl, by decide, by decide, by decide, fun n q h => ?_⟩, rfl, ofEntries (by decide), rfl⟩
  have : ∀ k a, (booked (meeting .ended)).book.bke.records.find k = some a → a = .sound (meeting .ended) :=
    ofEntries (by decide)
  cases this n _ h
  decide

theorem witness_EditionSettings :
    (Asks (asked (.setEditions .live .draft) office) ctx (.setEditions .live .draft) [] ∧
        editionOf .live = some .live ∧ editionOf .draft = some .draft) ∧
      (Asks (asked (.setEditions .live .other) office) ctx (.setEditions .live .other) [] ∧ editionOf .other = none) ∧
      Asks (asked .readEditions office) ctx .readEditions [] ∧ ∃ t, Runs .publish office t :=
  ⟨⟨asks _ _, rfl, rfl⟩, ⟨asks _ _, rfl⟩, asks _ _, ⟨_, rfl⟩⟩

/-- A draft with one row over today's row of the room. -/
def drafted : State :=
  onBke (fun b =>
    { b with
      writeEdition := .draft
      draft :=
        { Draft.empty with
          rows := ⟨[(rowKey 0 monday,
            { room := 0, date := monday, base := 0, place := 0, cells := freeCells, damaged := false, freed := [] })]⟩ } }) office

theorem witness_DraftIsWrittenPublishedAndDiscarded :
    (let f := span 20 2
     let s := asked (.book f) (onBke (fun b => { b with writeEdition := .draft }) office)
     Asks s ctx (.book f) [] ∧ s.book.bke.writeEdition = .draft ∧ StoreSound s.book ∧ FieldsOk f ∧
      s.book.bke.draft.damaged = false ∧ SpanPasses s.ctu s.book f.date f.start f.count ∧
      RoomTakes s.book f.room f.attendees roomA ∧ s.book.tableFull = false ∧ s.book.bke.draft.records.length < 512 ∧
      s.book.bke.draft.rows.size + (rowFamily s.book.bke.rooms f.room).length ≤ 256 ∧
      RowsOpen s.book f.room f.date f.start (f.count + clipBuffer (f.start + f.count) (s.book.squ.bufferOf roomA)) ∧
      (∀ x ∈ rowFamily s.book.bke.rooms f.room, s.book.draftRow x f.date = none)) ∧
      (let s := asked .publish drafted
       Asks s ctx .publish [] ∧ StoreSound s.book ∧ s.book.bke.horizon ≠ none ∧ s.book.bke.draft.damaged = false ∧
        s.book.bke.draft.isEmpty = false ∧ s.book.bke.records.wf = true ∧ s.book.bke.draft.rows.wf = true ∧
        RowsKeyed s.book ∧
        (∀ r ∈ s.book.draftDays, ∀ x, s.book.row r.room r.date = some x → x.state ≠ .rebuilding) ∧
        s.book.draftDays.filterMap s.book.staleDay = [] ∧ s.book.runCount s.ctu + s.book.squ.runs.size ≤ 511) ∧
      Asks (asked .discard drafted) ctx .discard [] := by
  refine ⟨⟨asks _ _, rfl, rfl, rfl, rfl, spanPasses (by decide), takesRoom (Nat.le_refl 10) rfl rfl, rfl, by decide,
    by decide, rowsOpen (by decide +kernel), by decide +kernel⟩, ⟨asks _ _, rfl, hasHorizon rfl, rfl, by decide, rfl,
    rfl, rowsKeyed (by decide +kernel) (by decide +kernel), ?_, by decide +kernel, by decide +kernel⟩, asks _ _⟩
  intro r hr
  have h : ((asked .publish drafted).book.draftDays.all fun r => r.room == 0 && r.date == monday) = true := by
    decide +kernel
  have := List.all_eq_true.mp h r hr
  simp only [Bool.and_eq_true, beq_iff_eq] at this
  rw [this.1, this.2]
  exact ofFound (a := Row.new 0 monday) (by decide +kernel) (by decide)

/-- A draft over today's row of the room: a meeting that is kept, one that has lapsed, and the mark of a live one. -/
def fullDraft : State :=
  onBke (fun b =>
    { b with
      records :=
        ⟨[(0, .sound { meeting .confirmed with edition := .draft, start := 20 }),
          (1, .sound { meeting .confirmed with id := 6, edition := .draft, start := 10 }),
          (2, .sound { meeting .confirmed with id := 7, start := 30, cancelMark := true }),
          (3, .sound { meeting .confirmed with id := 8, start := 40 })]⟩
      draft :=
        { rows := ⟨[(rowKey 0 monday,
            { room := 0, date := monday, base := 0, place := 0, cells := freeCells, damaged := false, freed := [7] })]⟩
          records := [5, 6], marked := [7], damaged := false } }) office

/-- What stands in the way of a PUBLISH: a row that is rebuilt, one that has changed since, and runs that are wanting. -/
theorem witness_PublishIsRefused :
    let s := asked .publish fullDraft
    let row (r : Row) : State := onBke (fun b => { b with rows := b.rows.put (rowKey 0 monday) r }) s
    let rebuilding (s : State) : Bool :=
      s.book.draftDays.any fun r => (s.book.row r.room r.date).any fun x => x.state == .rebuilding
    rebuilding (row { Row.new 0 monday with state := .rebuilding }) = true ∧
      rebuilding (row { Row.new 0 monday with version := 1 }) = false ∧
      (row { Row.new 0 monday with version := 1 }).book.draftDays.filterMap
        (row { Row.new 0 monday with version := 1 }).book.staleDay ≠ [] ∧
      rebuilding s = false ∧ s.book.draftDays.filterMap s.book.staleDay = [] ∧
      511 - (onSqu (fun q => { q with runs := ⟨(List.range 511).map fun k => (k + 1, runA)⟩ }) s).book.squ.runs.size <
        s.book.runCount s.ctu := by
  decide +kernel

/-- What each record and row of the draft is to a PUBLISH and a DISCARD. -/
theorem witness_PublishApplies :
    let s := asked .publish fullDraft
    let found (n : Nat) (p : Record → Bool) : Bool :=
      match s.book.slot n with
      | some (.sound r) => p r
      | _ => false
    found 0 (fun r => r.edition == .draft && !s.book.lapsedDraft s.ctu r && !s.book.isMarked r.id) = true ∧
      found 1 (fun r => r.edition == .draft && s.book.lapsedDraft s.ctu r && s.book.slotOf r.id == some 1) = true ∧
      found 2 (fun r => r.edition == .live && s.book.isMarked r.id) = true ∧
      found 3 (fun r => r.edition == .live && !s.book.isMarked r.id) = true ∧
      s.book.runCount s.ctu + s.book.squ.runs.size ≤ 511 ∧ s.book.bke.records.wf = true ∧
      s.book.draftRow 0 monday ≠ none ∧ s.book.row 0 monday ≠ none ∧ s.book.draftRow 0 tuesday = none ∧
      (s.book.draftRecords.any fun p => s.book.lapsedDraft s.ctu p.2 && (p.2.patches 0).any (·.has 10)) = true := by
  decide +kernel

/-- A draft row over an unchanged live row, over one that has changed, and with a marked record that is CONFIRMED and one
that is not any more; a record whose start has come, one whose start lies below the mark alone, and one of the evening. -/
theorem witness_DraftDaysAndRecordsLapse :
    (let z : DraftRow :=
      { room := 0, date := monday, base := 0, place := 0, cells := freeCells, damaged := false, freed := [7] }
     let row (v : Half) : State :=
      onBke (fun b => { b with rows := b.rows.put (rowKey 0 monday) { Row.new 0 monday with version := v } }) fullDraft
     let ended (v : Half) : State :=
      onBke (fun b =>
        { b with records := b.records.put 2 (.sound { meeting .cancelled with id := 7, start := 30, cancelMark := true }) }) (row v)
     let stale (m : Option Nat) (v : Half) : StaleDay :=
      { room := 0, code := some 1, date := monday, base := 0, version := v, marked := m }
     z ∈ (row 0).book.draftDays ∧ (∀ s ∈ [row 0, row 1, ended 0, ended 1], s.book.bke.records.wf = true ∧
        (s.book.row z.room z.date).isSome = true) ∧
      (row 0).book.staleDay z = none ∧ (row 1).book.staleDay z = some (stale none 1) ∧
      (ended 0).book.staleDay z = some (stale (some 7) 0) ∧ (ended 1).book.staleDay z = some (stale none 1)) ∧
      let ahead : State := { office with ctu := { office.ctu with clock := some { nine with reach := 600 } } }
      ∀ p ∈ [(12, true, true), (16, false, true), (17, false, false)],
        let r := { meeting .confirmed with edition := .draft, start := p.1 }
        office.book.lapsedDraft office.ctu r = p.2.1 ∧ ahead.book.lapsedDraft ahead.ctu r = p.2.2 := by
  decide +kernel

/-! ## On catering -/

def orderFields (n : Nat) (wait : Bool) : OrderFields :=
  { booking := 5, slot := some 20, lines := [{ menu := 1, quantity := n }], wait := wait }

def withClaim (f : OrderFields) (s : State) : State :=
  onMail (fun m => { m with cscToBke := [{ ctx := ctx, fields := f }] }) s

/-- 20 covers fit the window of 20; 21 do not, and wait or do not. -/
theorem witness_OrderIsPlacedByTheBookEngine :
    (Asks (asked (.order (orderFields 1 false)) office) ctx (.order (orderFields 1 false)) [] ∧
        office.book.csc.horizon ≠ none ∧ (orderFields 1 false).booking ≠ 0 ∧
        linesBad (orderFields 1 false).lines = false ∧ (orderFields 1 false).slot.getD 0 ≤ 63 ∧
        State.reset.book.csc.horizon = none) ∧
      (∀ p ∈ [(20, false), (21, true), (21, false)],
        let f := orderFields p.1 p.2
        let r := { meeting .confirmed with start := 20 }
        let s := withClaim f (booked r)
        s.book.mail.cscToBke = [{ ctx := ctx, fields := f }] ∧ StoreSound s.book ∧ HoldsLive s.book 0 r ∧
          r.id = f.booking ∧ r.kind = .meeting ∧ r.state = .confirmed ∧ s.book.room r.room = some roomA ∧
          roomA.kitchen = some 0 ∧ s.book.csc.kitchen 0 = some kitchenA ∧ s.book.csc.guard.contains 0 = false ∧
          OrdersKeyed s.book ∧ s.book.csc.orderOf r.id = none ∧ s.book.csc.orders.size < 1023 ∧
          r.start ≤ f.slot.getD r.start ∧
          f.slot.getD r.start < r.start + r.count ∧
          s.book.csc.cutOffReached r.date (s.book.csc.cutOffMinute 0 (f.slot.getD r.start)) = false ∧
          s.book.csc.entry 0 r.date (f.slot.getD r.start / 2) = some windowA ∧ windowA.closed = false) ∧
      (covers (orderFields 20 false).lines + 0 ≤ 20 ∧ ¬covers (orderFields 21 false).lines + 0 ≤ 20 ∧
        kitchenA.waitlist.length < 16) := by
  refine ⟨⟨asks _ _, by decide⟩, fun p hp => ⟨rfl, rfl, holdsLive _ rfl, rfl, rfl, rfl, rfl, rfl, rfl, rfl, nofun, ?_, ?_, ?_,
    ?_, ?_, ?_, rfl⟩, by decide⟩ <;> revert p <;> decide +kernel

theorem keyed (o : Order) : OrdersKeyed (ordered o).book := by
  intro k x h
  have : ∀ k x, (ordered o).book.csc.orders.find k = some x → x.id = k := ofEntries (by
    intro e he
    simp only [ordered, onCsc, Book.withCsc, List.mem_singleton] at he
    rw [he])
  exact this k x h

/-- An order of the booking that is CANCELLED and one that is DECLINED, which the new order replaces; and a waitlist that is
full. -/
theorem witness_OrderIsPlacedAnew :
    (∀ st ∈ [OrderState.cancelled, .declined], ∀ p ∈ [(20, false), (21, true), (21, false)],
      let f := orderFields p.1 p.2
      let r := { meeting .confirmed with start := 20, order := some 4 }
      let o := orderA st
      let s := withClaim f (onBke (fun b => { b with records := ⟨[(0, .sound r)]⟩ }) (ordered o))
      s.book.mail.cscToBke = [{ ctx := ctx, fields := f }] ∧ StoreSound s.book ∧ HoldsLive s.book 0 r ∧
        r.id = f.booking ∧ s.book.room r.room = some roomA ∧ s.book.csc.kitchen 0 = some kitchenA ∧
        s.book.csc.guard.contains 0 = false ∧ OrdersKeyed s.book ∧ s.book.csc.orderOf r.id = some o ∧
        o.state = st ∧ r.start ≤ f.slot.getD r.start ∧ f.slot.getD r.start < r.start + r.count ∧
        s.book.csc.cutOffReached r.date (s.book.csc.cutOffMinute 0 (f.slot.getD r.start)) = false ∧
        s.book.csc.entry 0 r.date (f.slot.getD r.start / 2) = some windowA) ∧
      let kit := { kitchenA with waitlist := List.range 16 }
      let f := orderFields 21 true
      let r := { meeting .confirmed with start := 20 }
      let s := withClaim f (onCsc (fun c => { c with kitchens := ⟨[(0, kit)]⟩ }) (booked r))
      s.book.mail.cscToBke = [{ ctx := ctx, fields := f }] ∧ HoldsLive s.book 0 r ∧ s.book.csc.kitchen 0 = some kit ∧
        OrdersKeyed s.book ∧ s.book.csc.orderOf r.id = none ∧ 16 ≤ kit.waitlist.length ∧
        s.book.csc.entry 0 r.date 10 = some windowA ∧ ¬covers f.lines + windowA.committed ≤ windowA.capacity := by
  refine ⟨fun st hst p hp => ⟨rfl, rfl, ⟨?_, rfl, rfl⟩, rfl, rfl, rfl, rfl, keyed (orderA st), ?_, rfl, ?_, ?_, ?_, ?_⟩,
    rfl, holdsLive _ rfl, rfl, ofEntries (by decide), rfl, by decide, by decide +kernel, by decide⟩ <;>
    revert st p <;> decide +kernel

/-- The answers of a claim over a CANCELLED order and with a full waitlist. -/
theorem test_orderPlacedAnew :
    let r := { meeting .confirmed with start := 20, order := some 4 }
    let placed (n : Nat) : State :=
      after .orderPlacementClaim
        (withClaim (orderFields n true) (onBke (fun b => { b with records := ⟨[(0, .sound r)]⟩ }) (ordered (orderA .cancelled))))
    let full : State :=
      withClaim (orderFields 21 true)
        (onCsc (fun c => { c with kitchens := ⟨[(0, { kitchenA with waitlist := List.range 16 })]⟩ })
          (booked { meeting .confirmed with start := 20 }))
    (placed 20).book.csc.orders.values.map (fun o => (o.id, o.state, o.lines)) =
        [(1, .confirmed, [{ menu := 1, quantity := 20 }])] ∧
      (placed 20).book.slot 0 = some (.sound { r with order := some 1 }) ∧
      (placed 21).book.csc.orders.values.map (fun o => (o.id, o.state)) = [(1, .waitlisted)] ∧
      ((placed 21).book.csc.kitchen 0).map (·.waitlist) = some [1] ∧
      (after .orderPlacementClaim full).book.csc = full.book.csc ∧
      (after .orderPlacementClaim full).book.hmp.out = [.reply ctx (Answer.because .full .waitlist)] := by
  decide +kernel

/-- Window 10 of today at the kitchen has its closed mark, though it is nine: backward trims have taken the minute back. -/
def shut (s : State) : State :=
  onCsc (fun c => { c with capacity := ⟨[(capKey 0 monday 10, { windowA with closed := true })]⟩ }) s

/-- A booking whose order the record names, or an earlier record of the id left, in every state that a new order does not
replace; and a slot whose cut-off minute the CSC has reached, or whose window is closed. -/
theorem witness_OrderIsTurnedAway :
    (∀ st ∈ [OrderState.waitlisted, .confirmed, .locked, .ticketed, .dispatched, .delivered, .cleared, .writtenOff],
      ∀ named ∈ [some 4, none],
      let f := orderFields 1 true
      let r := { meeting .confirmed with start := 20, order := named }
      let s := withClaim f (onBke (fun b => { b with records := ⟨[(0, .sound r)]⟩ }) (ordered (orderA st)))
      s.book.mail.cscToBke = [{ ctx := ctx, fields := f }] ∧ HoldsLive s.book 0 r ∧ r.id = f.booking ∧
        s.book.room r.room = some roomA ∧ s.book.csc.orderOf r.id = some (orderA st) ∧
        (orderA st).state ≠ .cancelled ∧ (orderA st).state ≠ .declined) ∧
      (let f := { orderFields 1 true with slot := none }
       let r := { meeting .confirmed with start := 12 }
       HoldsLive (withClaim f (booked r)).book 0 r ∧ (withClaim f (booked r)).book.csc.orderOf r.id = none ∧
        CutOffPassed (withClaim f (booked r)).book.csc 0 r.date 12) ∧
      let f := orderFields 1 true
      let r := { meeting .confirmed with start := 20 }
      let s := withClaim f (shut (booked r))
      HoldsLive s.book 0 r ∧ s.book.csc.orderOf r.id = none ∧
        s.book.csc.cutOffReached monday (s.book.csc.cutOffMinute 0 20) = false ∧ CutOffPassed s.book.csc 0 r.date 20 := by
  refine ⟨fun st hst x hx => ⟨rfl, ⟨?_, rfl, rfl⟩, rfl, rfl, ?_, ?_, ?_⟩,
    ⟨holdsLive _ rfl, rfl, cutOffPassed_iff.mp (by decide +kernel)⟩,
    holdsLive _ rfl, rfl, by decide +kernel, cutOffPassed_iff.mp (by decide +kernel)⟩ <;> revert st x <;> decide +kernel

/-- R131, R135: a closed window takes no covers, though its cut-off minute lies ahead; and an order left CANCELLED by an
earlier record of the id gives way to the new one. -/
theorem test_ordersOfAClosedWindowAndOfALoadedId :
    let r := { meeting .confirmed with start := 20 }
    let closed := withClaim (orderFields 1 true) (shut (booked r))
    let left := withClaim (orderFields 1 true)
      (onBke (fun b => { b with records := ⟨[(0, .sound r)]⟩ }) (ordered (orderA .cancelled)))
    (after .orderPlacementClaim closed).book.csc = closed.book.csc ∧
      (after .orderPlacementClaim closed).book.hmp.out = [.reply ctx (Answer.of .tooLate)] ∧
      (after .orderPlacementClaim left).book.csc.orders.values.map (fun o => (o.id, o.booking, o.state)) =
        [(1, 5, .confirmed)] := by
  decide +kernel

/-- 20 covers fit with its own 10 returned, 21 do not; every state for the cancel. -/
theorem witness_OrdersAreChangedAndCancelled :
    (∀ st ∈ [OrderState.confirmed, .waitlisted], ∀ n ∈ [20, 21],
      let l : Option (List OrderLine) := some [{ menu := 1, quantity := n }]
      let s := asked (.orderChange 4 l (some 21)) (ordered (orderA st))
      Asks s ctx (.orderChange 4 l (some 21)) [] ∧ s.book.csc.horizon ≠ none ∧ (l ≠ none ∨ some 21 ≠ (none : Option Nat)) ∧
        l.any linesBad = false ∧ OrdersKeyed s.book ∧ s.book.csc.orders.find 4 = some (orderA st) ∧
        s.book.csc.guard.contains (orderA st).kitchen = false ∧
        (∀ x, some 21 = some x → (orderA st).copy.start ≤ x ∧ x < (orderA st).copy.start + (orderA st).copy.count ∧
          ¬CutOffPassed s.book.csc (orderA st).kitchen (orderA st).date x)) ∧
      ∀ st ∈ [OrderState.waitlisted, .confirmed, .locked, .ticketed, .dispatched, .delivered, .cleared, .cancelled,
          .declined, .writtenOff],
        let s := asked (.orderCancel 4) (ordered (orderA st))
        Asks s ctx (.orderCancel 4) [] ∧ s.book.csc.horizon ≠ none ∧ OrdersKeyed s.book ∧
          s.book.csc.orders.find 4 = some (orderA st) ∧ (orderA st).state = st := by
  refine ⟨fun st hst n hn => ⟨asks _ _, ?_, .inr (by decide), ?_, keyed (orderA st), rfl, rfl, ?_⟩,
    fun st hst => ⟨asks _ _, ?_, keyed (orderA st), rfl, rfl⟩⟩
  · revert st n; decide
  · revert n; decide
  · exact ofFound rfl ⟨by revert st; decide, by revert st; decide, mt cutOffPassed_iff.mpr (by revert st n; decide +kernel)⟩
  · revert st; decide

/-- New covers that fit with its own 10 returned or do not, and a slot whose cut-off has passed by the minute (12) or by its
window (21). -/
theorem witness_ChangesThatDoNotFit :
    (∀ p ∈ [(20, true), (21, false)],
      let c := (ordered (orderA .confirmed)).book.csc
      let n := c.changedOrder (orderA .confirmed) (some [{ menu := 1, quantity := p.1 }]) (some 21)
      CoversFit (c.giveBack 0 monday 10 10) 0 monday n.window n.covers ↔ p.2 = true) ∧
      ∀ st ∈ [OrderState.confirmed, .waitlisted], ∀ x ∈ [12, 21],
        let o := { orderA st with copy := { (orderA st).copy with start := 12, count := 10 } }
        let s := asked (.orderChange 4 none (some x)) (shut (ordered o))
        Asks s ctx (.orderChange 4 none (some x)) [] ∧ s.book.csc.horizon ≠ none ∧ s.book.csc.orders.find 4 = some o ∧
          (o.state = .confirmed ∨ o.state = .waitlisted) ∧ o.copy.start ≤ x ∧ x < o.copy.start + o.copy.count ∧
          CutOffPassed s.book.csc o.kitchen o.date x := by
  refine ⟨fun p hp => fits_iff.symm.trans (by revert p; decide +kernel),
    fun st hst x hx => ⟨asks _ _, ?_, rfl, ?_, ?_, ?_, cutOffPassed_iff.mp ?_⟩⟩ <;> revert st x <;> decide +kernel

/-- Behind the order one waits whose covers fit once the order's are returned, or not; and a kitchen where none waits. -/
theorem witness_WaitlistOfOne :
    (∀ n ∈ [20, 21],
      let p := { orderA .waitlisted with id := 9, booking := 6, lines := [{ menu := 1, quantity := n }] }
      let kit := { kitchenA with waitlist := [p.id] }
      let s := onCsc (fun c =>
        { c with orders := ⟨[(4, orderA .confirmed), (9, p)]⟩, kitchens := ⟨[(0, kit)]⟩
                 capacity := ⟨[(capKey 0 monday 10, { windowA with committed := 10 })]⟩ }) (asked (.orderCancel 4) office)
      Asks s ctx (.orderCancel 4) [] ∧ OrdersKeyed s.book ∧ s.book.csc.guard.contains 0 = false ∧
        s.book.csc.kitchen 0 = some kit ∧ kit.waitlist = [p.id] ∧ p.id ≠ 4 ∧ s.book.csc.orders.find p.id = some p ∧
        p.state = .waitlisted ∧ p.date = monday ∧
        (CoversFit (s.book.csc.giveBack 0 monday 10 10) 0 p.date p.window p.covers ↔ n = 20)) ∧
      NoWaiters (ordered (orderA .confirmed)).book 0 := by
  refine ⟨fun n hn => ⟨asks _ _, ofEntries (by revert n; decide), rfl, rfl, rfl, by revert n; decide, rfl, rfl, rfl,
      fits_iff.symm.trans (by revert n; decide +kernel)⟩, ?_⟩
  have h : ∀ k kit, (ordered (orderA .confirmed)).book.csc.kitchens.find k = some kit → kit.waitlist = [] :=
    ofEntries (by decide)
  exact fun kit => h 0 kit

/-- The order's booking has the record in slot 0. -/
def catered (o : Order) : State :=
  onBke (fun b => { b with records := ⟨[(0, .sound { meeting .confirmed with order := some o.id })]⟩ }) (ordered o)

/-- Moved within today's window, to a slot whose cut-off has passed, and to a window without capacity. -/
theorem witness_MoveOfAMeetingWithAnOrder :
    (∀ st ∈ [OrderState.waitlisted, .confirmed, .locked, .ticketed, .dispatched, .delivered, .cleared, .cancelled,
        .declined, .writtenOff], ∀ p ∈ [(monday, 20), (monday, 13), (tuesday, 20)],
      let f : MoveFields := { id := 5, room := 0, date := p.1, start := p.2, count := 2 }
      let o := orderA st
      let r := { meeting .confirmed with order := some 4 }
      let s := asked (.move f) (catered o)
      Asks s ctx (.move f) [] ∧ MovePasses s 0 r f roomA ∧ r.order = some o.id ∧ OrdersKeyed s.book ∧
        s.book.csc.orders.find o.id = some o ∧ o.booking = r.id ∧ r.start ≤ o.slot ∧ roomA.kitchen = some 0 ∧
        s.book.csc.kitchen 0 = some kitchenA ∧ s.book.csc.guard.contains 0 = false) ∧
      (let c := (catered (orderA .confirmed)).book.csc
       min (20 + (20 - 16)) (20 + 2 - 1) = 21 ∧ ¬CutOffPassed c 0 monday 21 ∧
        min (13 + (20 - 16)) (13 + 2 - 1) = 14 ∧ CutOffPassed c 0 monday 14 ∧
        ¬CutOffPassed c 0 tuesday 21 ∧ (orderA .confirmed).covers = 10 ∧
        10 ≤ c.remaining 0 monday 10 + 10 ∧ c.remaining 0 tuesday 10 + 0 < 10) ∧
      ({ office.book.csc with guard := [0] } : Csc).guard.contains 0 = true ∧
      ({ kitchenA with waitlist := [4] } : Kitchen).waitlist = [(orderA .waitlisted).id] ∧
      16 ≤ ({ kitchenA with waitlist := List.range 16 } : Kitchen).waitlist.length ∧ kitchenA.waitlist = [] ∧
      (∀ rm ∈ [{ roomA with kitchen := none }, { roomA with kitchen := some 1 }],
        (⟨[(0, rm)]⟩ : Table Room).find 0 = some rm ∧ (rm.kitchen = none ∨ ∃ k, rm.kitchen = some k ∧ k ≠ (orderA .waitlisted).kitchen)) ∧
      office.book.hmp.restart ≠ .answered ∧ office.book.hmp.noticesHeld < office.book.hmp.noticeRoom := by
  refine ⟨fun st hst p hp => ⟨asks _ _, ⟨⟨rfl, rfl, rfl, ⟨?_, rfl, rfl⟩, rfl, .inl rfl, Nat.zero_le 383, spanPasses ?_, rfl,
    takesRoom ?_ rfl rfl⟩, rowsOpen ?_, rowsOpen ?_, ?_, fun _ _ => by rfl⟩, rfl, keyed (orderA st), rfl, rfl, ?_, rfl, rfl, rfl⟩,
    ⟨rfl, mt cutOffPassed_iff.mpr (by decide +kernel), rfl, cutOffPassed_iff.mp (by decide +kernel),
      mt cutOffPassed_iff.mpr (by decide +kernel), by decide, by decide +kernel, by decide +kernel⟩,
    by decide, rfl, by decide, rfl, fun rm hm => ?_, by decide, by decide⟩
  case refine_8 =>
    simp only [List.mem_cons, List.not_mem_nil, or_false] at hm
    rcases hm with rfl | rfl
    · exact ⟨rfl, .inl rfl⟩
    · exact ⟨rfl, .inr ⟨1, rfl, by decide⟩⟩
  all_goals revert st p; decide +kernel

/-- Boundaries 0 and 1, which close none, and 22, which closes window 10. -/
theorem witness_BoundaryClosesTheWindowThatEnded :
    ∀ x ∈ [0, 1, 22], (told [event monday (boundaryEvent x)] office).book.mail.cscEvents =
        [event monday (boundaryEvent x)] ∧
      office.book.csc.capacity.find (capKey 0 monday 10) = some windowA ∧ windowA.date = monday ∧
      (x = 22 → 2 ≤ x ∧ x % 2 = 0 ∧ windowA.window = x / 2 - 1) := by
  decide +kernel

/-- An order waits for a closed window of the kitchen. -/
theorem witness_ScanOfAClosedWindow :
    let s := shut (onCsc (fun c => { c with kitchens := ⟨[(0, { kitchenA with waitlist := [4] })]⟩ }) (ordered (orderA .waitlisted)))
    let y := { windowA with closed := true }
    s.book.csc.capacity.find (capKey 0 monday 10) = some y ∧ y.closed = true ∧ (s.book.scan 0).csc = s.book.csc := by
  decide +kernel

/-- Three orders, of which one has a later cut-off and two have the same. -/
theorem witness_CutOffsInTheirOrder :
    let l : List Order := [orderA .confirmed, { orderA .locked with id := 7, cutOff := 599 }, { orderA .waitlisted with id := 9, cutOff := 599 }]
    let q : Csc := { office.book.csc with orders := ⟨l.map fun o => (o.id, o)⟩ }
    (∀ o ∈ q.orders.values, Order.id o ≤ 1023) ∧ q.dueCutOffs monday 600 = [7, 9, 4] := by
  decide +kernel

theorem witness_CateringTakesItsTimeEvents :
    ((told [event monday (.horizonOpen .monday 540 (.slot 12))] office).book.mail.cscEvents =
        [event monday (.horizonOpen .monday 540 (.slot 12))] ∧ monday.valid = true ∧ office.book.csc.kitchens.wf = true) ∧
      ((told [event monday .dayRetire] (ordered (orderA .confirmed))).book.mail.cscEvents = [event monday .dayRetire] ∧
        OrdersKeyed (ordered (orderA .confirmed)).book ∧ (ordered (orderA .confirmed)).book.csc.orders.wf = true) ∧
      ((told [event tuesday (.dayOpen (tuesday.after 13) .monday)] office).book.mail.cscEvents =
          [event tuesday (.dayOpen (tuesday.after 13) .monday)] ∧ (tuesday.after 13).valid = true) ∧
      (∀ m ∈ [599, 600], (told [event monday (.minute m)] (ordered (orderA .confirmed))).book.mail.cscEvents =
        [event monday (.minute m)]) ∧
      ∀ st ∈ [OrderState.confirmed, .waitlisted, .cancelled],
        let s := told [event monday (.minute 600)] (ordered (orderA st))
        s.book.mail.cscMinuteEvent = some (monday, 600) ∧ s.book.csc.dueCutOffs monday 600 = [4] ∧
          s.book.csc.orders.find 4 = some (orderA st) ∧ (orderA st).id = 4 ∧ (orderA st).state = st :=
  ⟨by decide, ⟨rfl, keyed _, rfl⟩, by decide, by decide, by decide +kernel⟩

/-- The report is the only one of segment 0 to the CSC. -/
def reported (r : CscReport) (s : State) : State := onMail (fun m => { m with sbcToCsc := [(0, r)] }) s

def withKitchen (k : Kitchen) (s : State) : State := onCsc (fun c => { c with kitchens := ⟨[(0, k)]⟩ }) s

def voidA : Call := { kind := .void, order := 4, serial := 0 }

/-- Reports of the order that stands, and of one that had its id before. -/
theorem witness_TicketsCallsAndTerminalLinks :
    (∀ st ∈ [OrderState.locked, .cancelled], ∀ v ∈ [false, true],
      let o := { orderA st with ticket := .offered, voidOwed := v }
      nextOf 0 (reported (.ticketDelivered 0 4 0) (ordered o)).book.mail.sbcToCsc = some (.ticketDelivered 0 4 0, []) ∧
        nextOf 0 (reported (.ticketBack 0 4 0) (ordered o)).book.mail.sbcToCsc = some (.ticketBack 0 4 0, []) ∧ o.serial = 0 ∧
        (ordered o).book.csc.reported 4 1 = none ∧
        (ordered o).book.csc.orders.find 4 = some o ∧ o.id = 4 ∧ o.kitchen = 0 ∧ o.ticket = .offered) ∧
      (nextOf 0 (reported (.callDelivered 0 voidA) office).book.mail.sbcToCsc = some (.callDelivered 0 voidA, []) ∧
        office.book.csc.kitchen 0 = some kitchenA ∧
        nextOf 0 (reported (.callBack 0 voidA) office).book.mail.sbcToCsc = some (.callBack 0 voidA, []) ∧
        ((ordered (orderA .cancelled)).book.csc.reported voidA.order voidA.serial).isSome = true ∧
        office.book.csc.reported voidA.order voidA.serial = none) ∧
      (∀ k ∈ [true, false],
        let kit := { kitchenA with tickets := [4], calls := [voidA] }
        let s := reported (.slotFree 0 k) (withKitchen kit office)
        nextOf 0 s.book.mail.sbcToCsc = some (.slotFree 0 k, []) ∧ s.book.csc.kitchen 0 = some kit ∧ kit.online = true ∧
          kit.tickets ≠ [] ∧ s.book.csc.ticketFree 0 = true ∧ kit.calls ≠ [] ∧ kit.callOut = none) ∧
      (∀ st ∈ [some StationState.online, some .faulted, none],
        let kit := { kitchenA with tickets := [4] }
        let s := reported (.link 0 none st) (withKitchen kit office)
        nextOf 0 s.book.mail.sbcToCsc = some (.link 0 none st, []) ∧ s.book.csc.kitchen 0 = some kit ∧
          kit.unreachable = false ∧ kit.tickets ≠ []) ∧
      ∀ st ∈ [OrderState.delivered, .dispatched],
        let s := onMail (fun m => { m with squToCsc := [5] }) (ordered (orderA st))
        s.book.mail.squToCsc = [5] ∧ s.book.csc.orderOf 5 = some (orderA st) ∧
          s.book.csc.kitchen (orderA st).kitchen = some kitchenA ∧ (orderA st).state = st := by
  refine ⟨?_, ?_, ?_, ?_, ?_⟩ <;> decide +kernel

/-- What the SBC has handed the CSC, in the order handed. -/
def handedOn (l : List (Nat × CscReport)) (s : State) : State := onMail (fun m => { m with sbcToCsc := l }) s

/-- R143: of two events on two segments the one handed first is taken first. -/
theorem test_eventsInTheOrderHanded :
    let first : Nat × CscReport := (1, .event 0 2 1 (.ticketTaken 4))
    let second : Nat × CscReport := (0, .event 0 2 1 (.dispatched 4))
    let s := handedOn [first, second] (ordered (orderA .locked))
    after (.terminalEvent 0) s = s ∧
      ((after (.terminalEvent 0) (after (.terminalEvent 1) s)).book.csc.orders.find 4).map (·.state) = some .dispatched ∧
        (after (.terminalEvent 1) s).book.mail.sbcToCsc = [second] := by
  decide +kernel

/-- Every state; the session of the terminal and another; the room of the order and another; an event behind a report of
another segment, and behind an event of another. -/
theorem witness_EventsCartsAndBookingEffects :
    (∀ st ∈ [OrderState.waitlisted, .confirmed, .locked, .ticketed, .dispatched, .delivered, .cleared, .cancelled,
        .declined, .writtenOff], ∀ ev ∈ [StationEvent.ticketTaken 4, .dispatched 4, .pickedUp 4],
      ∀ n ∈ [(1 : BitVec 8), 2],
        let l : List (Nat × CscReport) := [(1, .slotFree 1 true)]
        let s := handedOn (l ++ (0, .event 0 2 n ev) :: []) (ordered (orderA st))
        s.book.mail.sbcToCsc = l ++ (0, .event 0 2 n ev) :: [] ∧ (∀ e ∈ l, e.1 ≠ 0 ∧ e.2.isEvent = false) ∧ s.book.csc.kitchen 0 = some kitchenA ∧
          s.book.csc.orders.find 4 = some (orderA st) ∧ (orderA st).kitchen = 0) ∧
      (∀ ev ∈ [StationEvent.ticketTaken 4, .dispatched 4, .pickedUp 4],
        (handedOn [(1, .event 1 3 1 ev), (0, .event 0 2 1 ev)] office).book.mail.sbcToCsc =
            [] ++ (1, .event 1 3 1 ev) :: [(0, .event 0 2 1 ev)] ∧
          office.book.csc.orders.find 4 = none ∧
          (ordered { orderA .locked with kitchen := 1 }).book.csc.orders.find 4 = some { orderA .locked with kitchen := 1 }) ∧
      (∀ st ∈ [OrderState.waitlisted, .confirmed, .locked, .ticketed, .dispatched, .delivered, .cleared, .cancelled,
        .declined, .writtenOff], ∀ x ∈ [0, 1],
        let p : PanelClaim := { segment := 0, address := 1, session := 1, room := x, event := .cartArrived 4 }
        let s := onMail (fun m => { m with ppuToCsc := [p] }) (ordered (orderA st))
        s.book.mail.ppuToCsc = [p] ∧ p.event = .cartArrived 4 ∧ s.book.csc.horizon ≠ none ∧
          s.book.csc.orders.find 4 = some (orderA st) ∧ s.book.rightRoom (orderA st) x = (x == 0)) ∧
      ∀ st ∈ [OrderState.waitlisted, .confirmed, .locked, .ticketed, .dispatched, .delivered, .cleared, .writtenOff],
        ∀ c ∈ [CscChange.cancelled, .released, .forgotten, .started .inProgress, .extended 3, .endedEarly 1, .endedEarly 0],
          let w : CscNews := { booking := 5, change := c }
          let s := onMail (fun m => { m with bkeToCsc := [w] }) (ordered (orderA st))
          s.book.mail.bkeToCsc = [w] ∧ s.book.csc.orderOf w.booking = some (orderA st) ∧ OrdersKeyed s.book ∧
            s.book.csc.orders.find (orderA st).id = some (orderA st) := by
  refine ⟨by decide +kernel, by decide +kernel, by decide +kernel, fun st hst c hc => ⟨rfl, ?_, keyed (orderA st), rfl⟩⟩
  revert st c; decide +kernel

/-! ## On panel pages -/

theorem witness_PagesTakeTheirTimeEvents :
    (∀ k ∈ [EventKind.horizonOpen .monday 540 .beforeDay, .dayRetire, .dayOpen (monday.after 13) .monday, .morningBuild,
        .preBoundary 0, .preBoundary 64, boundaryEvent 0, boundaryEvent 64, .dayEnd, .minute 590],
      (told [event monday k] office).book.mail.ppuEvents = [event monday k]) ∧
      office.ppu.rooms.find 0 = some roomA ∧ office.ppu.pages.find 0 = some pageA ∧
      office.ppu.isLatched roomA.group = true ∧ office.ppu.isDark roomA.group = true ∧ office.ppu.rooms.wf = true ∧
      office.ppu.windowOpens (booked (meeting .confirmed)).book 590 0 = true ∧
      office.ppu.views.entries = [(stationKey viewA.segment viewA.address, viewA)] ∧ viewA.online = true ∧
      viewA.room = 0 := by
  decide +kernel

/-- R115: the one panel is handed a STAGE by a boundary of its LATCHED group and a SHOW by day-end. -/
theorem test_kindsOfItem :
    let s := booked { meeting .confirmed with start := 13 }
    let kinds (t : State) : List (Option PageKind) := t.book.mail.ppuToSbc.map fun i => match i with
      | .page _ _ p => some p.kind
      | _ => none
    kinds (after .ppuSlotBoundary (told [event monday (boundaryEvent 13)] s)) = [some .stage] ∧
      kinds (after .dayEnd (told [event monday .dayEnd] s)) = [some .display] := by
  decide +kernel

/-- A page of a LATCHED group built before its boundary and one not, release marks below and at the new slot, a panel
that awaits delivery and none, and groups of which none is LATCHED. -/
theorem witness_BoundaryClaimsALatch :
    pageA.reference ≠ slotOfBoundary (some 13) ∧
      ({ pageA with reference := .slot 13 } : Page).reference = slotOfBoundary (some 13) ∧
      (∀ n ∈ [12, 13], ({ pageA with release := some n } : Page).release = some n) ∧
      (inSlot12 (some 13) office).ctu.slot = .slot 13 ∧ (inSlot12 (some 64) office).ctu.slot = .afterDay ∧
      office.ppu.latchedGroups = [0] ∧ office.ppu.awaited [0] = [] ∧
      ({ office.ppu with views := ⟨[(stationKey 0 1, { viewA with awaiting := true })]⟩ } : Ppu).awaited [0] ≠ [] ∧
      ({ office.ppu with groups := ⟨[]⟩ } : Ppu).latchedGroups = [] ∧ office.ppu.groupsOf [0] = [0] ∧
      office.ppu.groupsOf [] = [] := by
  decide +kernel

def newsA (k : ChangeKind) : BookingNews := { kind := k, room := 0, date := monday, before := none, panel := none }

/-- A panel that is the only one of the room, and an overlay that changes the page. -/
theorem witness_PagesFollowTheBookAndTheRuns :
    (∀ n ∈ [PpuNews.change (newsA .releasedGrace), .change { newsA .retimed with panel := some 0 }, .rowState 0,
        .published [0]],
      (onMail (fun m => { m with bkeToPpu := [n] }) office).book.mail.bkeToPpu = [n]) ∧
      office.ppu.horizon = some hours ∧ (newsA .releasedGrace).date = hours.today ∧ office.ctu.slot = .slot 12 ∧
      (∀ a ∈ [PpuAction.overlay 0 15, .clearOverlay 0],
        (onMail (fun m => { m with squToPpu := [a] }) office).book.mail.squToPpu = [a]) ∧
      (∀ c ∈ [some 13, some 64, none],
        ({ office.ppu with coming := c } : Ppu).isLatched 0 = true ∧ ({ office.ppu with coming := c } : Ppu).coming = c) ∧
      office.ppu.isLatched 1 = false ∧
      (∀ m ∈ [360, 374, 1320],
        let t : Ctu := { office.ctu with clock := some { nine with minute := m, reach := m, lastBoundary := none } }
        t.slot = .beforeDay ∧ t.minute = m) ∧
      (newsA .moved).before = none ∧
      office.ppu.views.entries = [(stationKey viewA.segment viewA.address, viewA)] ∧ viewA.room = 0 ∧
      viewA.online = true ∧ (pageA.content ≠ { pageA.content with overlay := 15 }) := by
  decide

/-- The PPU with the panel awaiting delivery. -/
def awaitingPanel : State :=
  { office with ppu := { office.ppu with views := ⟨[(stationKey 0 1, { viewA with awaiting := true })]⟩ } }

def waitA (m : Nat) (c : Option Ctx) : LatchWait := { groups := [0], panels := [stationKey 0 1], minutes := m, ctx := c }

/-- No entry set, none LATCHED, one LATCHED with and without a panel awaited; a wait at two minutes. -/
theorem witness_LatchesWaitForTheirPanels :
    (∀ l ∈ [[], [false, true], [true]], ∀ s ∈ [office, awaitingPanel],
      Asks (asked (.latchGroups l) s) ctx (.latchGroups l) []) ∧
      (groupsSet [] = [] ∧ (groupsSet [false, true]).filter office.ppu.isLatched = [] ∧
        groupsSet [false, true] ≠ [] ∧ (groupsSet [true]).filter office.ppu.isLatched = [0] ∧
        office.ppu.awaited [0] = [] ∧ awaitingPanel.ppu.awaited [0] ≠ [] ∧ awaitingPanel.ppu.horizon ≠ none) ∧
      ((onMail (fun m => { m with squToPpu := [.latch 0] }) office).book.mail.squToPpu = [.latch 0] ∧
        office.ppu.groupsOf [0] = [0] ∧ office.ppu.groupsOf [1] = []) ∧
      ((∀ e ∈ awaitingPanel.ppu.views.entries, stationKey e.2.segment e.2.address = e.1) ∧
        showsFor awaitingPanel.ppu [stationKey 0 1] ≠ [] ∧ showsFor office.ppu [stationKey 0 2] = []) ∧
      (∀ c ∈ [none, some ctx],
        takeFirst (fun w => decide (2 ≤ w.minutes)) [waitA 1 none, waitA 2 c] = some (waitA 2 c, [waitA 1 none])) ∧
      let v := { viewA with staged := some (9, 0) }
      let s : State :=
        onMail (fun m => { m with sbcToPpu := [(0, .broadcast [0] [(1, 1)])] })
          { office with ppu := { office.ppu with views := ⟨[(stationKey 0 1, v)]⟩ } }
      nextOf 0 s.book.mail.sbcToPpu = some (.broadcast [0] [(1, 1)], []) ∧ s.ppu.view 0 1 = some v ∧
        v.staged = some (9, 0) ∧
        (∀ k y, s.ppu.view 0 k = some y → y.segment = 0 ∧ y.address = k) := by
  refine ⟨fun _ _ _ _ => asks _ _, by decide, by decide, by decide, by decide, rfl, rfl, rfl, fun k y hy => ?_⟩
  have h : ∀ j (z : PanelView), (⟨[(stationKey 0 1, { viewA with staged := some (9, 0) })]⟩ : Table PanelView).find j =
      some z → z.segment = 0 ∧ stationKey 0 z.address = j := ofEntries (by decide)
  have := h (stationKey 0 k) y hy
  exact ⟨this.1, by have := this.2; unfold stationKey at this; omega⟩

/-- The report is the only one of segment 0 to the PPU. -/
def panelReport (r : PpuReport) (s : State) : State := onMail (fun m => { m with sbcToPpu := [(0, r)] }) s

theorem witness_PanelViewsFollowTheBus :
    (∀ r ∈ [PpuReport.link 1 (.online 2), .link 1 .offline, .link 1 .removed, .link 1 (.rebound 3),
        .delivered 1 9 .display 0, .delivered 1 9 .stage 0, .refused 1, .shown 1 1 0, .shown 1 1 9, .shown 1 2 9],
      nextOf 0 (panelReport r office).book.mail.sbcToPpu = some (r, [])) ∧
      office.ppu.view 0 1 = some viewA ∧ viewA.segment = 0 ∧ viewA.address = 1 ∧
      office.ppu.pages.find viewA.room = some pageA ∧ viewA.session = 1 ∧ viewA.shown ≠ 9 ∧ viewA.awaiting = false ∧
      viewA.online = true ∧ awaitingPanel.ppu.view 0 1 = some { viewA with awaiting := true } := by
  decide

def answerA (e : StationEvent) (st : Status) : PanelAnswer :=
  { claim := claimOf e, status := st, detail := .none, subject := some 5, placed := none }

theorem witness_PanelEventsAreRelayedAndAnswered :
    (∀ e ∈ [StationEvent.checkIn none, .walkup 4, .endMeeting, .extend, .cartArrived 4],
      nextOf 0 (panelReport (.event 1 1 0 e) office).book.mail.sbcToPpu = some (.event 1 1 0 e, [])) ∧
      (∀ st ∈ [Status.ok, .refused], ∀ e ∈ [StationEvent.extend, .walkup 1],
        let a := { answerA e st with placed := some (office.book.placed (meeting .checkedIn)) }
        (onMail (fun m => { m with bkeToPanel := [a] }) office).book.mail.bkeToPanel = [a] ∧
          (onMail (fun m => { m with cscToPanel := [answerA (.cartArrived 4) st] }) office).book.mail.cscToPanel =
            [answerA (.cartArrived 4) st]) ∧
      nextOf 0 (panelReport (.unsent 1) office).book.mail.sbcToPpu = some (.unsent 1, []) := by
  decide

/-- Indices 384, 383 (unconfigured) and 0. -/
theorem witness_ReadPageAnswers :
    (∀ x ∈ [384, 383, 0], Asks (asked (.readPage x) office) ctx (.readPage x) []) ∧ 383 < 384 ∧
      office.ppu.rooms.find 383 = none ∧ office.ppu.rooms.find 0 = some roomA ∧ office.ppu.pages.find 0 = some pageA :=
  ⟨fun _ _ => asks _ _, by decide⟩

/-! ## On sequences -/

/-- Every ground for leaving the run as it is, and none. -/
theorem witness_SequenceUnitTakesItsEvents :
    (∀ k ∈ [EventKind.horizonOpen .monday 540 (.slot 12), .dayRetire, .dayOpen (monday.after 13) .monday],
      (told [event monday k] (running runA)).book.mail.squEvents = [event monday k]) ∧
      (running runA).book.squ.runs.wf = true ∧ (∀ k r, (running runA).book.squ.runs.find k = some r → r.id = k) ∧
      ∀ r ∈ [runA, { runA with state := .done }, { runA with fromCheckin := false },
          { runA with checkinMinute := some 600 }],
        let c : CheckinReport := { booking := 5, run := some 1, minute := 600 }
        let s := onMail (fun m => { m with bkeToSqu := [c] }) (running r)
        s.book.mail.bkeToSqu = [c] ∧ s.book.squ.runFor c.booking c.run = some r ∧
          s.book.squ.runs.find r.id = some r :=
  ⟨by decide, by decide, ofEntries (by decide), by decide⟩

def stepA (a : StepAction) : RunStep :=
  { step := { overlayStep with action := a }, due := some 541, mark := .due, firedAt := none }

/-- Every action, at its due minute; a run that owes a catch-up. -/
theorem witness_StepsFireAtTheirMinutes :
    (∀ a ∈ [StepAction.showOverlay 15, .clearOverlay, .latch, .pickupCall, .releaseBuffer, .notify 255],
      let r := { runA with steps := [stepA a] }
      let s := told [event monday (.minute 541)] (running r)
      s.book.mail.squMinuteEvent = some (monday, 541) ∧ s.book.squ.catchUps = [] ∧
        s.book.squ.firing monday 541 = [(541, 1, 1)] ∧ s.book.squ.runs.find 1 = some r ∧ r.id = 1 ∧
        r.steps[1 - 1]? = some (stepA a)) ∧
      (∀ k r, (running runA).book.squ.runs.find k = some r → r.id = k) ∧
      let s := onSqu (fun q => { q with catchUps := [1], minute := some 541 }) (running runA)
      s.book.squ.catchUps = [1] ∧ s.book.squ.runs.find 1 = some runA ∧ s.book.squ.minute = some 541 ∧
        s.book.squ.horizon = some hours ∧ hours.today = runA.date ∧
        (∀ r ∈ s.book.squ.runs.values, r.id ≤ 511 ∧ r.steps.length ≤ 31) :=
  ⟨by decide, ofEntries (by decide), by decide⟩

/-- R156, R157: steps of two runs in their order; a catch-up of a run with a step that is late and one that is not. -/
theorem test_orderOfFirings :
    let run (id : Nat) (l : List Nat) : Run :=
      { runA with id := id, steps := l.map fun m => { stepA .latch with due := some m } }
    let s := onSqu (fun q => { q with runs := ⟨[(1, run 1 [541, 540]), (2, run 2 [540, 542])]⟩, catchUps := [2] }) office
    s.book.squ.firing monday 541 = [(540, 1, 2), (540, 2, 1), (541, 1, 1)] ∧
      (lateSteps (run 2 [540, 542]) 540).map (fun p => p.2) = [1] ∧
      (after .catchUp s).book.mail.squToPpu = [.latch 0] ∧
      (((after .catchUp s).book.squ.runs.find 2).map fun r => r.steps.map fun x => x.mark) = some [.fired, .due] := by
  decide +kernel

/-- A run of the meeting by template 0, and by another. -/
def runOf (k : Nat) : Run := { runA with template := k }

theorem runsKeyed {q : Squ} (h : q.runs.wf = true) (hk : ∀ e ∈ q.runs.entries, e.2.id = e.1) : RunsKeyed q :=
  ⟨h, ofEntries hk⟩

/-- With no run: no template, and one; with a run: of the room's template, of another, and where the room has none. -/
theorem witness_RunOfAMovedMeeting :
    ∀ p ∈ [((none : Option Nat), ([] : List (Nat × Run)), ([] : List (Nat × Template))), (none, [], [(0, turnover)]),
        (some 1, [(1, runOf 0)], [(0, turnover)]), (some 1, [(1, runOf 3)], [(0, turnover)]), (some 1, [(1, runOf 0)], [])],
      let r := { meeting .confirmed with run := p.1 }
      let f := moveFields
      let s := asked (.move f) (onSqu (fun q => { q with runs := ⟨p.2.1⟩, templates := ⟨p.2.2⟩ }) (booked r))
      Asks s ctx (.move f) [] ∧ MovePasses s 0 r f roomA ∧ r.order = none ∧ r.state = .confirmed ∧
        RunsKeyed s.book.squ ∧ s.book.squTaken = s.book.squ ∧
        s.book.squ.templateOf roomA = (if p.2.2 = [] then none else some (0, turnover)) ∧
        (p.1 = none → ∀ y, ¬IsOwnRun s.book.squTaken r y) ∧
        (p.1 = some 1 → ∀ y ∈ p.2.1, IsOwnRun s.book.squTaken r y.2) := by
  intro p hp
  refine ⟨asks _ _, ⟨⟨rfl, rfl, rfl, holdsLive _ rfl, rfl, .inl rfl, Nat.zero_le 383, spanPasses ?_, rfl,
    takesRoom ?_ rfl rfl⟩, rowsOpen ?_, rowsOpen ?_, ?_, fun _ _ => ?_⟩, rfl, rfl, runsKeyed ?_ ?_, rfl, ?_,
    fun h y hy => ?_, fun h y hy => ?_⟩
  case refine_10 =>
    have := hy.1
    simp only [h] at this
    cases this
  case refine_11 => unfold IsOwnRun; revert y; revert h; revert p; decide +kernel
  all_goals revert p; decide +kernel

/-- A run that is not DONE and one that is, of the record; and a record without one. -/
theorem witness_RunsAreRetimedAndAborted :
    (∀ st ∈ [RunState.armed, .done],
      let x := { runA with state := st }
      RunsKeyed (running x).book.squ ∧ IsOwnRun (running x).book.squ { meeting .confirmed with run := some 1 } x) ∧
      ∀ r, ¬IsOwnRun (running runA).book.squ (meeting .confirmed) r := by
  refine ⟨fun st hst => ⟨runsKeyed ?_ ?_, rfl, ?_, ?_⟩, fun r hr => by cases hr.1⟩ <;> revert st <;> decide

/-- R156: an END step that stays due, one that is dropped behind the last minute of the day, and a START step that stays. -/
theorem test_retime :
    let x := { runA with steps := [stepA .latch, { stepA .latch with step := { overlayStep with anchor := .finish } },
      { stepA .latch with step := { overlayStep with anchor := .finish, offset := 900 } }] }
    let q := (running x).book.squ.retime { meeting .confirmed with run := some 1 } 16 4
    (q.runs.find 1).map (fun y => (y.endMinute, y.steps.map fun z => (z.due, z.mark))) =
      some (660, [(some 541, .due), (some 660, .due), (some 1560, .dropped)]) := by
  decide +kernel

/-! ## On the store -/

def lost (i : StoreItem) : ItemErr := { item := i, soft := 0, hard := true, tagLost := false, known := false }

def withLost (i : StoreItem) (s : State) : State :=
  { s with
    book :=
      (s.book.withBss { s.book.bss with errors := [lost i] }).withMail { s.book.mail with bssToBke := [{ item := i }] } }

/-- An error of each kind in each kind of item that the patrol's position names, and in one that a request reads. -/
theorem witness_ReadsCorrectAndCount :
    (∀ x ∈ [(StoreItem.liveRow 0 tuesday, 1), (.draftRow 0 monday, 0), (.record 0, 5376), (.index 0, 5376)],
      ∀ e ∈ [{ lost x.1 with soft := 1, hard := false }, lost x.1, { lost x.1 with known := true }],
        let s := { fullDraft with book := fullDraft.book.withBss { Bss.reset with errors := [e], position := x.2 } }
        PatrolReads s.book x.1 ∧ SoundBut s.book x.1 ∧ s.book.bss.errorOf x.1 = some e) ∧
      (∀ i ∈ [StoreItem.record 0, .index 0],
        let e := { lost i with soft := 1, hard := false }
        let b := booked (meeting .confirmed)
        let s := asked (.readBooking 5) { b with book := b.book.withBss { Bss.reset with errors := [e] } }
        Asks s ctx (.readBooking 5) [] ∧ HoldsLive s.book 0 (meeting .confirmed) ∧ s.book.bss.errorOf i = some e ∧
          SoundBut s.book i) ∧
      ∀ h ∈ [false, true],
        let i := StoreItem.liveRow 0 monday
        let e := { lost i with soft := 1, hard := h }
        let s := asked (.readRow 0 monday none) { office with book := office.book.withBss { Bss.reset with errors := [e] } }
        Asks s ctx (.readRow 0 monday none) [] ∧ (s.book.offset monday).isSome = true ∧
          s.book.row 0 monday = some (Row.new 0 monday) ∧ s.book.bke.readEdition = .live ∧
          s.book.bss.errorOf i = some e ∧ SoundBut s.book i ∧ e.known = false := by
  have only : ∀ {b : Book} {i : StoreItem} (e : ItemErr), b.bss.errors = [e] → e.item = i → SoundBut b i := by
    intro b i e h hi j hj
    simp [Bss.errorOf, h, hi, Ne.symm hj]
  refine ⟨fun x hx e he => ?_, fun i hi => ?_, fun h hh =>
    ⟨asks _ _, by revert h; decide, by revert h; decide +kernel, rfl, by revert h; decide, only _ rfl rfl, rfl⟩⟩
  · have hi : e.item = x.1 := by
      simp only [List.mem_cons, List.not_mem_nil, or_false] at he
      rcases he with rfl | rfl | rfl <;> rfl
    refine ⟨?_, only e rfl hi, by simp [Bss.errorOf, Book.withBss, hi]⟩
    simp only [List.mem_cons, List.not_mem_nil, or_false] at hx
    rcases hx with rfl | rfl | rfl | rfl
    · exact ⟨by decide, rfl, hours, 1, rfl, by decide, by decide, rfl⟩
    · exact ⟨by decide, ⟨_, rfl, rfl⟩, hours, 0, rfl, by decide, by decide, rfl⟩
    · exact ⟨⟨_, rfl⟩, rfl⟩
    · exact ⟨⟨_, rfl⟩, rfl⟩
  · refine ⟨asks _ _, ⟨?_, rfl, rfl⟩, by revert i; decide, only _ rfl rfl⟩
    simp [Book.slotOf, booked, onBke, office, Book.withBke, RecSlot.id, asked, Book.withRequests, Book.withBss]

/-- Positions 9470 and 9471; a report of nothing, of a row and of a record. -/
theorem witness_PatrolAdvancesAndDamageIsTaken :
    (9470 + 1 < 9472 ∧ 9472 ≤ 9471 + 1 ∧ StoreSound office.book) ∧
      ((onMail (fun m => { m with bssToBke := [{ item := .record 0 }] }) office).book.mail.bssToBke =
          [{ item := .record 0 }] ∧ office.book.bss.errorOf (.record 0) = none) ∧
      (let s := withLost (.liveRow 0 monday) office
       s.book.mail.bssToBke = [{ item := .liveRow 0 monday }] ∧
        s.book.bss.errorOf (.liveRow 0 monday) = some (lost (.liveRow 0 monday)) ∧
        s.book.row 0 monday = some (Row.new 0 monday)) ∧
      let s := withLost (.record 0) (booked (meeting .confirmed))
      s.book.bss.errorOf (.record 0) = some (lost (.record 0)) ∧
        s.book.slot 0 = some (.sound (meeting .confirmed)) :=
  ⟨⟨by decide, by decide, rfl⟩, by decide, by decide +kernel, by decide⟩

def rebuilding : Row := { Row.new 0 monday with state := .rebuilding }

def waiterA : Waiter := { ctx := ctx, room := 0, date := monday }

def remains : Damaged := remainsOf { meeting .confirmed with run := some 1 } false false

/-- What remains when the index entry and the tag word are lost. -/
def nameless : Damaged := remainsOf { meeting .confirmed with run := some 1 } true true

/-- R36, R163, R176: the forget of a record whose id is lost ends its own run and hold, frees its id and is handed to the
CSC. -/
theorem test_forgetOfANamelessRecord :
    let s := asked (.forgetBooking none (some 0))
      (onBke (fun b =>
        { b with records := ⟨[(0, .damaged nameless)]⟩, holds := [{ id := 5, expiry := 700, spent := false }] })
        (running runA))
    let t := after .forgetBooking s
    nameless.known = none ∧ s.book.usedIds = [5] ∧ t.book.usedIds = [] ∧ t.book.bke.holds = [] ∧
      s.book.squ.runs.size = 1 ∧ t.book.squ.runs.size = 0 ∧
      t.book.mail.bkeToCsc = [{ booking := 5, change := .forgotten }] := by
  decide +kernel

/-- A row rebuilt with and without a damaged record; a record that is SOUND and one that is DAMAGED. -/
theorem witness_RebuildsAndForgets :
    (∀ l ∈ [[], [(0, RecSlot.damaged remains)]],
      let s := onBke (fun b =>
        { b with rows := ⟨[(rowKey 0 monday, rebuilding)]⟩, records := ⟨l⟩, waiters := [waiterA] }) office
      s.book.row 0 monday = some rebuilding ∧ rebuilding.room = 0 ∧ rebuilding.date = monday ∧
        rebuilding.state = .rebuilding ∧ s.book.bss.errors = [] ∧ s.book.bke.waiters = [waiterA]) ∧
      (let s := asked (.rebuildRow 0 monday) office
       Asks s ctx (.rebuildRow 0 monday) [] ∧ s.book.bke.horizon ≠ none ∧ (s.book.offset monday).isSome = true ∧
        s.book.room 0 = some roomA ∧ s.book.row 0 monday = some (Row.new 0 monday)) ∧
      (∀ x ∈ [RecSlot.sound (meeting .confirmed), .damaged remains, .damaged { nameless with listed := some 5 }],
        let s := asked (.forgetBooking (some 5) none) (onBke (fun b => { b with records := ⟨[(0, x)]⟩ }) office)
        Asks s ctx (.forgetBooking (some 5) none) [] ∧ s.book.slotOf 5 = some 0 ∧ s.book.slot 0 = some x ∧
          s.book.bke.records.wf = true ∧ RowsKeyed s.book) ∧
      ∀ x ∈ [RecSlot.sound (meeting .confirmed), .damaged remains, .damaged nameless],
        let s := asked (.forgetBooking none (some 0)) (onBke (fun b => { b with records := ⟨[(0, x)]⟩ }) office)
        Asks s ctx (.forgetBooking none (some 0)) [] ∧ s.book.slot 0 = some x ∧ s.book.slot 1 = none ∧ RowsKeyed s.book :=
  ⟨by decide +kernel, ⟨asks _ _, hasHorizon rfl, by decide +kernel⟩,
    fun x hx => ⟨asks _ _, by revert x; decide, by revert x; decide, rfl, rowsKeyed rfl rfl⟩,
    fun x hx => ⟨asks _ _, by revert x; decide, by revert x; decide, rowsKeyed rfl rfl⟩⟩

/-- A meeting that alone writes its row, and a cell that no record writes. -/
theorem witness_CellsByTheRecordsOwnPatches :
    let r := meeting .confirmed
    let b := (booked r).book
    WritesRow b 0 monday r ∧ WritesCell r 0 16 .booked ∧ WritesCell r 0 18 .buffer ∧
      (∀ q c, WritesRow b 0 monday q → WritesCell q 0 16 c → c = .booked) ∧
      ∀ q c, WritesRow b 0 monday q → ¬WritesCell q 0 20 c := by
  have only : ∀ q, WritesRow (booked (meeting .confirmed)).book 0 monday q → q = meeting .confirmed := by
    intro q h
    obtain ⟨m, hm⟩ := h.1
    simp [Book.sound, booked, onBke, office, Book.withBke] at hm
    exact hm.2
  refine ⟨⟨⟨0, by decide⟩, rfl, rfl, .inl rfl⟩, .inl (by decide), .inr (by decide), fun q c h hc => ?_, fun q c h hc => ?_⟩
  · rw [only q h] at hc
    rcases hc with ⟨-, -, -, hc⟩ | ⟨-, hc, -⟩
    · rw [hc]; decide
    · exact absurd hc (by decide)
  · rw [only q h] at hc
    rcases hc with ⟨-, -, hc, -⟩ | ⟨-, -, hc, -⟩ <;> exact absurd hc (by decide)

/-! ## On the station bus -/

def busWith (l : List Station) (g : Segment) : State :=
  { office with
    sbc :=
      { office.sbc with
        stations := Table.ofList (l.map fun x => (stationKey x.segment x.address, x))
        segments := { office.sbc.segments with seg0 := g } } }

def pageItemA : PageItem := { kind := .display, version := 1, content := pageA.content }

def resultA : ResultItem := { event := .checkIn, status := .ok, detail := .checkedIn, booking := some 5 }

def ticketA : Ticket :=
  { order := 4, code := none, date := monday, minute := 660, covers := 10, lines := [], label := none, serial := 0 }

def flying (x : Station) (w : Work) : Segment :=
  { Segment.reset with inFlight := some { address := x.address, work := w, attempt := 1, sequence := x.sequence } }

/-- A mask, a clear mark, a station with work, none with work but one to probe, and nothing; the choices of a station. -/
theorem witness_ArbiterChoosesInOrder :
    ((busWith [panelA] { Segment.reset with mask := [0] }).sbc.seg 0 = some { Segment.reset with mask := [0] }) ∧
      (let s := busWith [{ panelA with clearMark := true }] Segment.reset
       s.sbc.seg 0 = some Segment.reset ∧
        (s.sbc.onSegment 0).find? (fun y => y.clearMark) = some { panelA with clearMark := true }) ∧
      (let s := busWith [{ panelA with results := [resultA] }] Segment.reset
       (s.sbc.onSegment 0).find? (fun y => y.clearMark) = none ∧
        s.sbc.roundRobin 0 Segment.reset = some ({ panelA with results := [resultA] }, .result resultA)) ∧
      (∀ p ∈ [({ panelA with pageSlot := some pageItemA }, Work.page pageItemA),
          ({ terminalA with ticketSlot := some ticketA }, .ticket ticketA),
          ({ terminalA with callSlot := some { kind := .void, order := 4, serial := 0 } },
            .call { kind := .void, order := 4, serial := 0 }),
          ({ terminalA with pollDue := true }, .poll)],
        (busWith [p.1] Segment.reset).sbc.roundRobin 0 Segment.reset = some p) ∧
      (let s := busWith [{ panelA with state := .absent }] Segment.reset
       s.sbc.roundRobin 0 Segment.reset = none ∧
        s.sbc.probeNext 0 Segment.reset = some { panelA with state := .absent } ∧
        s.sbc.probeNext 0 { Segment.reset with probeReady := false } = none) ∧
      (0 < panelA.credits ∧ ({ panelA with credits := 0 } : Station).credits = 0 ∧
        ({ panelA with pageSlot := some pageItemA } : Station).results = []) ∧
      (∀ w ∈ [Work.clear, .latch [0]],
        (busWith [panelA] (flying panelA w)).sbc.seg 0 = some (flying panelA w) ∧
          (flying panelA w).inFlight = some { address := 1, work := w, attempt := 1, sequence := false }) ∧
      (let x := { panelA with pollStart := some 0 }
       let g := { Segment.reset with probeReady := false, probeSent := some 0 }
       let s := busWith [x] g
       let later := { s with ctu := { s.ctu with elapsed := 5 * 32768 } }
       s.sbc.station 0 1 = some x ∧ x.state = .online ∧ s.sbc.seg 0 = some g ∧
        s.ctu.elapsed < 0 + s.sbc.pollPeriod * 32768 ∧ 0 + later.sbc.pollPeriod * 32768 ≤ later.ctu.elapsed ∧
        s.ctu.elapsed < 0 + 5 * 32768 ∧ 0 + 5 * 32768 ≤ later.ctu.elapsed) := by
  refine ⟨?_, ?_, ?_, ?_, ?_, ?_, ?_, ?_⟩ <;> decide +kernel

/-- A frame whose last byte is another than its check's, and no frame at all. -/
def badFrames : List (List Byte) := [(stationFrame 1 18 false [0, 0, 0, 0]).dropLast ++ [0], []]

/-- A frame that is not received; one received that is no answer to a POLL or a PROBE, with 2 and with 3 failures. -/
theorem witness_InvalidAnswers :
    (∀ l ∈ badFrames, frameReceived l = false) ∧
      (∀ n ∈ [2, 3],
        let x := { panelA with failures := n }
        let l := stationFrame 1 19 false []
        (busWith [x] (flying x .poll)).sbc.seg 0 = some (flying x .poll) ∧ frameReceived l = true ∧
          (flying x .poll).inFlight.all (fun f => (frameAnswers l f .pollAnswer && bodyValid x l .pollAnswer .ack) == false) =
            true) ∧
      let x := { panelA with state := .absent }
      let l := stationFrame 1 19 false []
      (busWith [x] (flying x .probe)).sbc.seg 0 = some (flying x .probe) ∧
        (flying x .probe).inFlight.all (fun f =>
          f.work == .probe && (frameAnswers l f .probeAnswer && bodyValid x l .probeAnswer .ack) == false) = true := by
  refine ⟨?_, ?_, ?_⟩ <;> decide +kernel

/-- The answers of a PROBE (in and out of range), a POLL and the items; failures 2 and 3. -/
theorem witness_AttemptsSucceedOrFault :
    (∀ c ∈ [4, 5],
      let x := { panelA with state := .absent }
      let s := busWith [x] (flying x .probe)
      let l := stationFrame 1 17 false [1, 4]
      s.sbc.seg 0 = some (flying x .probe) ∧ Work.probe.awaited = some .probeAnswer ∧ s.sbc.station 0 1 = some x ∧
        frameReceived l = true ∧ (flying x .probe).inFlight.any (fun f => frameAnswers l f .probeAnswer) = true ∧
        bodyValid x l .probeAnswer (.probe .panel c) = true ∧ creditsInRange .panel 4 = true ∧
        creditsInRange .panel 5 = false) ∧
      (∀ x ∈ [panelA, terminalA],
        let l := stationFrame x.address 18 false [0, 0, 0, 0]
        frameReceived l = true ∧ (flying x .poll).inFlight.any (fun f => frameAnswers l f .pollAnswer) = true ∧
          bodyValid x l .pollAnswer (.poll 0 0 []) = true ∧
          bodyValid { x with credits := 3 } l .pollAnswer
            (.poll 1 0 [if x.type = .panel then .extend else .dispatched 1023]) = true ∧ x.credits ≤ x.advertised) ∧
      (office.ctu.clock = some nine ∧ ({ office.ctu with clock := none } : Ctu).clock = none) ∧
      (∀ w ∈ [Work.page pageItemA, .result resultA, .ticket ticketA, .call { kind := .void, order := 4, serial := 0 }],
        let l := stationFrame 1 19 false []
        w.awaited = some .ack ∧ frameReceived l = true ∧ (flying panelA w).inFlight.any (fun f => frameAnswers l f .ack) = true ∧
          bodyValid panelA l .ack .ack = true) ∧
      (∀ n ∈ [2, 3],
        let x := { panelA with failures := n }
        let s := busWith [x] (flying x .poll)
        s.sbc.seg 0 = some (flying x .poll) ∧ Work.poll.awaited.isSome = true ∧ s.sbc.station 0 1 = some x ∧
          x.segment = 0 ∧ x.address = 1) := by
  refine ⟨?_, ?_, ?_, ?_, ?_⟩ <;> decide +kernel

/-- A station ONLINE and one that is not, the slot empty and taken. -/
theorem witness_StationsTakeItemsAndResets :
    (∀ i ∈ [SbcItem.page 0 1 pageItemA, .result 0 1 1 resultA, .result 0 1 2 resultA, .latch [0, 31]],
      (onMail (fun m => { m with ppuToSbc := [i] }) office).book.mail.ppuToSbc = [i]) ∧
      (∀ k ∈ [PageKind.display, .stage], ({ panelA with pageSlot := some { pageItemA with kind := k } } : Station).pageSlot =
        some { pageItemA with kind := k }) ∧ ({ panelA with resultsAwaited := 0 } : Station).resultsAwaited = 0 ∧
      (office.sbc.station 0 1 = some panelA ∧ panelA.state = .online ∧ panelA.session = 1 ∧ 0 < panelA.resultsAwaited) ∧
      (∀ x ∈ [terminalA, { terminalA with state := .faulted }, { terminalA with ticketSlot := some ticketA, callSlot := some voidA }],
        let kit := { kitchenA with tickets := [4], calls := [voidA] }
        let s := onMail (fun m => { m with ticketOffers := [0], callOffers := [0] })
          { ordered (orderA .locked) with sbc := (busWith [x] Segment.reset).sbc }
        let s := withKitchen kit s
        0 ∈ s.book.mail.ticketOffers ∧ 0 ∈ s.book.mail.callOffers ∧ s.book.csc.kitchen 0 = some kit ∧
          s.book.csc.orders.find 4 = some (orderA .locked) ∧ s.sbc.terminalOf 0 = some x ∧
          s.sbc.station x.segment x.address = some x) ∧
      (∀ x ∈ [panelA, { panelA with state := .absent }],
        let s := asked (.resetStation 0 1) { office with sbc := (busWith [x] Segment.reset).sbc }
        takeFirst (resetReady s.sbc) s.book.mail.requests =
            some ({ ctx := ctx, request := .resetStation 0 1 }, []) ∧
          s.sbc.station 0 1 = some x) := by
  refine ⟨?_, ?_, ?_, ?_, ?_, ?_⟩ <;> decide +kernel

theorem stationsKeyed {x : Sbc} (h : x.stations.wf = true)
    (hk : ∀ e ∈ x.stations.entries, stationKey e.2.segment e.2.address = e.1) : StationsKeyed x :=
  ⟨h, ofEntries hk⟩

/-- R104: with work at both stations the turn goes to the one after the last served, and wraps. -/
theorem witness_TurnsWrap :
    let x := { panelA with results := [resultA] }
    let y := { terminalA with pollDue := true }
    let s := busWith [x, y] Segment.reset
    StationsKeyed s.sbc ∧
      ∀ p ∈ [(none, (x, Work.result resultA)), (some 1, (y, .poll)), (some 2, (x, .result resultA)),
          (some 48, (x, .result resultA))],
        s.sbc.roundRobin 0 { Segment.reset with lastServed := p.1 } = some p.2 := by
  refine ⟨stationsKeyed ?_ ?_, ?_⟩ <;> decide +kernel

/-- A terminal with a ticket in its slot and a call in flight. -/
def laden : Station :=
  { terminalA with failures := 3, credits := 2, ticketSlot := some ticketA, lastPoll := some 530, faults := 7 }

/-- R96: the fourth failure hands back the ticket of the slot and the call in flight, and tells the CSC and the host. -/
theorem test_faultHandsBack :
    let s := busWith [laden, panelA] (flying laden (.call voidA))
    let t := after (.replyWaitExpiry 0) s
    s.sbc.seg 0 = some (flying laden (.call voidA)) ∧ s.sbc.station 0 2 = some laden ∧ laden.segment = 0 ∧
      laden.address = 2 ∧ 3 ≤ laden.failures ∧
      t.book.mail.sbcToCsc =
        [(0, .ticketBack 0 4 0), (0, .slotFree 0 true), (0, .callBack 0 voidA), (0, .slotFree 0 false),
          (0, .link 0 none (some .faulted))] ∧
      t.book.mail.sbcToPpu = [] ∧
      t.sbc.station 0 2 =
        some { bare laden with state := .faulted, cause := some .fault, failures := 4, faults := 8 } ∧
      t.book.hmp.out =
        [.notice 0 (.stationState 0 2 .terminal 0 none .online (some .faulted) .fault 8 none (some .void))] := by
  decide +kernel

/-- A terminal with a ticket and a call in its slots, a panel, and a station that is ABSENT already, none in flight. -/
theorem witness_ResetStationHandsBack :
    ∀ x ∈ [{ laden with callSlot := some voidA }, panelA, { panelA with state := .absent }],
      let s := asked (.resetStation 0 x.address) (busWith [x] Segment.reset)
      takeFirst (resetReady s.sbc) s.book.mail.requests =
          some ({ ctx := ctx, request := .resetStation 0 x.address }, []) ∧
        1 ≤ x.address ∧ x.address ≤ 48 ∧ s.sbc.station 0 x.address = some x ∧ x.segment = 0 := by
  decide +kernel

/-- R106, R108: the hand-overs, the record, the notice and the reply. -/
theorem test_resetStation :
    let x := { laden with callSlot := some voidA }
    let t := after .resetStation (asked (.resetStation 0 2) (busWith [x] Segment.reset))
    t.book.mail.sbcToCsc =
        [(0, .ticketBack 0 4 0), (0, .slotFree 0 true), (0, .callBack 0 voidA), (0, .slotFree 0 false),
          (0, .link 0 none (some .absent))] ∧
      t.sbc.station 0 2 =
        some
          { bare x with
            state := .absent, cause := some .reset, failures := 0, delivered := (0, none), shown := 0
            clearMark := true } ∧
      t.book.hmp.out =
        [.notice 0 (.stationState 0 2 .terminal 0 none .online (some .absent) .reset 7 none none),
          .reply ctx (Answer.ok (.stationReset 0 2 .online))] := by
  decide +kernel

/-! ## On the site configuration, and on notices -/

def groupPut : PutBody := .put (.group 31 { latched := true, dark := false })

def strayPut : PutBody := .remove (.room 9)

def commitA : Commit :=
  { ctx := { ctx with mark := .last }, merged := ConfigSet.blank, puts := 1, tallies := [], written := false, waiting := [] }

def roomItem : RoomItem :=
  { code := 1, building := 0, floor := 0, seats := 10, bookable := true, walkup := true, checkin := true, grace := none,
    kitchen := none, template := none, group := 0, kind := .single, combined := none }

/-- The room stands in the set that is loaded. -/
def configured (s : State) : State :=
  onCfs (fun c => { c with complete := true, committed := { ConfigSet.blank with rooms := ⟨[(0, roomItem)]⟩ } }) s

/-- A draft record that is DAMAGED, and a marked record that is CANCELLED already. -/
def drafted87 : List (RecSlot × (Draft → Draft)) :=
  [(.damaged (remainsOf (meeting .confirmed) false false), fun d => { d with records := [5] }),
    (.sound { meeting .cancelled with cancelMark := true }, fun d => { d with marked := [5] })]

/-- R87: a removed room keeps its draft records and its marked records from a commit. -/
theorem test_draftedRoomIsBooked :
    ∀ x ∈ drafted87,
      let s := askedWith .last (.configPut (.remove (.room 0)))
        (configured (onBke (fun b => { b with records := ⟨[(0, x.1)]⟩, draft := x.2 b.draft }) office))
      s.book.cfs.commit = none ∧ s.book.slot 0 = some x.1 ∧ x.1.place = some (0, monday) ∧ x.1.id = some 5 ∧
        (5 ∈ s.book.bke.draft.records ∨ 5 ∈ s.book.bke.draft.marked) ∧
        roomReshaped s.book.cfs.loadSet (s.book.cfs.loadSet.merge [.remove (.room 0)]) 0 = true ∧
        (after .configPut s).book.hmp.out =
          [.reply { ctx with mark := .last } { Answer.because .inUse .roomBooked with data := .putIndex 1 }] := by
  decide +kernel

/-- Each check of R193 in turn (commit, mark, field, key, table), a put that is not LAST, and a LAST whose set fails and
one whose set passes. -/
theorem witness_ConfigPutStagesOrCommits :
    (∀ m ∈ [Mark.sole, .first, .middle, .last], ∀ p ∈ [groupPut, strayPut, .outOfRange],
      takeFirst (fun h : Handed => h.request.owner == Owner.cfs) (askedWith m (.configPut p) office).book.mail.requests =
        some ({ ctx := { ctx with mark := m }, request := .configPut p }, [])) ∧
      (office.book.cfs.commit = none ∧ groupPut.ok = true ∧ strayPut.ok = true ∧ PutBody.outOfRange.ok = false ∧
        (onCfs (fun c => { c with commit := some commitA }) office).book.cfs.commit ≠ none ∧
        (∃ q ∈ (onCfs (fun c => { c with staged := [groupPut] }) office).book.cfs.staged, q.key = groupPut.key) ∧
        (∀ q ∈ office.book.cfs.staged, q.key ≠ groupPut.key) ∧ office.book.cfs.staged.length < 512 ∧
        512 ≤ (onCfs (fun c => { c with staged := List.replicate 512 strayPut }) office).book.cfs.staged.length) ∧
      (∀ b : Book, b.cfs = office.book.cfs →
        Check.firstFailure { old := b.cfs.loadSet, new := b.cfs.loadSet.merge [strayPut], book := b } 1 [strayPut] =
          some { Answer.because .refused .key with data := .putIndex 1 }) ∧
      Check.firstFailure
          { old := office.book.cfs.loadSet, new := office.book.cfs.loadSet.merge [groupPut], book := office.book } 1
          [groupPut] = none := by
  refine ⟨by decide, ⟨by decide, by decide, by decide, by decide, by decide, by decide, by decide, by decide,
    by decide +kernel⟩, fun b hb => ?_, by decide +kernel⟩
  rw [hb]; rfl

/-- A commit to be written, one with every block's tables to take, and one with all taken. -/
theorem witness_CommitCycleHandsTheTables :
    ((onCfs (fun c => { c with commit := some commitA }) office).book.cfs.commit = some commitA ∧
        commitA.written = false) ∧
      (let k := { commitA with written := true, waiting := [.bke, .sbc, .ppu, .csc, .squ] }
       (onCfs (fun c => { c with commit := some k }) office).book.cfs.commit = some k ∧
        (∀ o ∈ [TableOwner.bke, .sbc, .ppu, .csc, .squ], o ∈ k.waiting) ∧ office.sbc.stations.wf = true ∧
        (∀ n x, office.sbc.stations.find n = some x → stationKey x.segment x.address = n) ∧
        k.merged.kitchens.wf = true ∧ office.sbc.pollPeriod = k.merged.settings.pollPeriod ∧
        ({ office.sbc with pollPeriod := 3 } : Sbc).pollPeriod ≠ k.merged.settings.pollPeriod) ∧
      let k := { commitA with written := true }
      (onCfs (fun c => { c with commit := some k }) office).book.cfs.commit = some k ∧ k.written = true ∧
        k.waiting = [] :=
  ⟨by decide, ⟨by decide, by decide, by decide, ofEntries (by decide), by decide, by decide, by decide⟩, by decide⟩

/-- The stations of a new set: address 1 kept, 2 a panel now, 3 removed, 4 added. -/
def newStations : Table StationItem :=
  ⟨[(stationKey 0 1, { type := .panel, binding := 0 }), (stationKey 0 2, { type := .panel, binding := 0 }),
    (stationKey 0 4, { type := .terminal, binding := 0 })]⟩

/-- The SBC is to take them; a POLL of the station that changes is in flight. -/
def restationing : State :=
  let k := { commitA with merged := { ConfigSet.blank with stations := newStations }, written := true, waiting := [.sbc] }
  onCfs (fun c => { c with commit := some k })
    (busWith [panelA, laden, { panelA with address := 3, binding := 0 }] (flying laden .poll))

theorem witness_StationsOfANewSet :
    restationing.sbc.stations.wf = true ∧ newStations.wf = true ∧
      (∀ n x, restationing.sbc.stations.find n = some x → stationKey x.segment x.address = n) ∧
      (∃ k, restationing.book.cfs.commit = some k ∧ .sbc ∈ k.waiting ∧ k.merged.stations = newStations) ∧
      SameStation newStations panelA ∧ ¬SameStation newStations laden ∧
      restationing.sbc.station 0 2 = some laden ∧ restationing.sbc.seg 0 = some (flying laden .poll) ∧
      newStations.find (stationKey 0 3) = none ∧ restationing.sbc.stations.find (stationKey 0 4) = none := by
  refine ⟨by decide, by decide, ofEntries (by decide), ⟨_, rfl, by decide, rfl⟩, ⟨_, rfl, rfl, rfl⟩, ?_, by decide, by decide, rfl,
    by decide⟩
  rintro ⟨i, hi, ht, _⟩
  cases hi; cases ht

/-- R109: what the removed and the changed station held and who is told, as the statement has it. -/
theorem test_stationsTaken :
    let s := restationing
    let t := after .sbcConfigTables s
    t.book.mail.sbcToCsc =
        (s.sbc.stations.values.flatMap fun x => cscTold newStations (s.sbc.flightWith x.segment x.address) x) ∧
      t.book.mail.sbcToPpu =
        s.sbc.stations.values.flatMap (ppuTold newStations) ++
          ((newStations.entries.filter fun p => (s.sbc.stations.find p.1).isNone).flatMap fun p =>
            if p.2.type = .panel then [(p.1 / 64, .link (p.1 % 64) (.added p.2.binding))] else []) ∧
      t.book.mail.sbcToCsc =
        [(0, .ticketBack 0 4 0), (0, .slotFree 0 true), (0, .link 0 none none)] ∧
      t.book.mail.sbcToPpu = [(0, .link 2 (.added 0)), (0, .link 3 .removed)] ∧
      t.book.hmp = (s.sbc.stations.values.flatMap (stationNews s.book newStations)).foldl Hmp.post s.book.hmp ∧
      t.sbc.seg 0 = some { flying laden .poll with inFlight := none } ∧
      t.sbc.station 0 2 = some (rebound laden { type := .panel, binding := 0 }) ∧ t.sbc.station 0 3 = none ∧
      t.sbc.station 0 1 = some panelA := by
  decide +kernel

/-- A directory that loses a room with a reserved buffer and a draft row, and gains another. -/
theorem witness_NewDirectory :
    let z : DraftRow := { room := 0, date := monday, base := 0, place := 0, cells := freeCells, damaged := false, freed := [] }
    let s := onBke (fun b => { b with draft := { b.draft with rows := ⟨[(rowKey 0 monday, z)]⟩ } }) (booked (meeting .ended))
    let new : Table Room := ⟨[(1, roomA)]⟩
    DirectoryReady s new ∧ Reshaped s.book.bke.rooms new 0 ∧ BufferEnds s.book.bke.rooms new (meeting .ended) ∧
      FreedByCommit s new 0 monday 18 ∧ ¬Reshaped s.book.bke.rooms s.book.bke.rooms 0 ∧ new.find 1 = some roomA ∧
      s.book.bke.rooms.find 1 = none := by
  have gone : Reshaped ⟨[(0, roomA)]⟩ ⟨[(1, roomA)]⟩ 0 := ⟨roomA, rfl, fun _ h => by cases h⟩
  refine ⟨⟨rfl, rowsKeyed (by decide) (by decide), by decide, by decide, ofFound rfl (by decide), ?_, ofEntries (by decide)⟩,
    gone, ⟨rfl, rfl, gone⟩, ⟨0, meeting .ended, rfl, ⟨rfl, rfl, gone⟩, ⟨0, by decide, rfl⟩, by decide, by decide⟩, ?_, rfl, rfl⟩
  · intro x hx d
    rcases Nat.eq_zero_or_pos x with h | h
    · subst h; cases hx
    · have no : ∀ k r, office.book.bke.rows.find k = some r → k < 65536 := ofEntries (by decide)
      cases hr : office.book.bke.rows.find (rowKey x d) with
      | none => exact hr
      | some r => exact absurd (no _ r hr) (by unfold rowKey; omega)
  · rintro ⟨rm, h, hn⟩
    have := hn rm h
    simp at this

def noticeA : OutFrame := .notice 0 (.tagClash 0 0)

/-- 63 and 64 notices posted and not yet read. -/
theorem witness_NoticesTakeAPlaceOrAreCounted :
    ∀ n ∈ [63, 64],
      let s := onHmp (fun h => { h with out := List.replicate n noticeA })
        { office with ctu := { office.ctu with opening := true } }
      s.ctu.clock = some nine ∧ s.ctu.opening = true ∧ s.book.mail.eventLeft EventKind.isMidnight = false ∧
        s.book.hmp.helloPosted = true ∧ s.book.hmp.restart = .none ∧ s.book.hmp.noticesHeld = n := by
  decide +kernel

theorem witness_EachBlockKeepsItsOwnState : ∃ t, Runs .hello office t ∧ touchOf .hello ≠ .reset := ⟨_, rfl, by decide⟩

end Sys2Proof.Tests
end

/-! SUPPORT. What any step can do to the clock (R1, R2, R7, R9 to R12), said once. -/

namespace Sys2Proof.Machine

/-! ## A step and the block it works on -/

theorem onCtu_ctu {f : Ctu → Book → Ctu × Book} {s t : State} (h : onCtu f s = .next t) :
    t.ctu = (f s.ctu s.book).1 := by
  cases h; rfl

/-- A command of the CTU runs to what its operation answers. -/
theorem runs_onCtu {i : Instr} {s : State} {f : Ctu → Book → Ctu × Book} (hi : exec i s = onCtu f s) :
    Runs i s { s with ctu := (f s.ctu s.book).1, book := (f s.ctu s.book).2 } := hi

theorem runs_of_onCtu {i : Instr} {s : State} {f : Ctu → Book → Ctu × Book} {c : Ctu} {b : Book}
    (hi : exec i s = onCtu f s) (hf : f s.ctu s.book = (c, b)) : Runs i s { s with ctu := c, book := b } := by
  simpa only [hf] using runs_onCtu hi

/-- R188: the end of a read select keeps the clock, or begins a RESTART. -/
theorem readComplete_ctu (s : State) : (readComplete s).ctu = s.ctu ∨ (readComplete s).ctu = Ctu.reset := by
  unfold readComplete
  split
  · exact .inl rfl
  · split
    · exact .inr rfl
    · exact .inl rfl

/-! ## The minutes of one date -/

/-- R10: the clock after `k` minutes have passed one after another. -/
def Clock.passing (c : Clock) : Nat → Clock
  | 0 => c
  | k + 1 => (c.reaching (c.minute + 1)).passing k

/-- R12: the clock that midnight leaves. -/
def Clock.nextDay (c : Clock) : Clock :=
  { date := c.date.next, weekday := c.weekday.next, minute := 0, reach := 0, lastBoundary := none }

@[simp] theorem Clock.reaching_date (c : Clock) (x : Nat) : (c.reaching x).date = c.date := rfl
@[simp] theorem Clock.reaching_weekday (c : Clock) (x : Nat) : (c.reaching x).weekday = c.weekday := rfl
@[simp] theorem Clock.reaching_minute (c : Clock) (x : Nat) : (c.reaching x).minute = x := rfl
@[simp] theorem Clock.reaching_reach (c : Clock) (x : Nat) : (c.reaching x).reach = max c.reach x := rfl

@[simp] theorem Clock.passing_date (c : Clock) (k : Nat) : (c.passing k).date = c.date := by
  induction k generalizing c with
  | zero => rfl
  | succ k ih => exact ih _

@[simp] theorem Clock.passing_weekday (c : Clock) (k : Nat) : (c.passing k).weekday = c.weekday := by
  induction k generalizing c with
  | zero => rfl
  | succ k ih => exact ih _

@[simp] theorem Clock.passing_minute (c : Clock) (k : Nat) : (c.passing k).minute = c.minute + k := by
  induction k generalizing c with
  | zero => rfl
  | succ k ih => simp only [passing, ih, reaching_minute]; omega

theorem Clock.passing_reach (c : Clock) (k : Nat) (hk : 1 ≤ k) : (c.passing k).reach = max c.reach (c.minute + k) := by
  induction k, hk using Nat.le_induction generalizing c with
  | base => rfl
  | succ k _ ih => simp only [passing, ih, reaching_reach, reaching_minute]; omega

theorem boundaryAt_eq_some (first x b : Nat) : boundaryAt first x = some b ↔ b ≤ 64 ∧ x = first + 15 * b := by
  unfold boundaryAt
  split
  · simp only [Option.some.injEq]; omega
  · simp only [reduceCtorEq, false_iff]; omega

theorem boundaryAt_eq_none (first x : Nat) : boundaryAt first x = none ↔ ∀ b, b ≤ 64 → x ≠ first + 15 * b := by
  simp [Option.eq_none_iff_forall_ne_some, boundaryAt_eq_some]

/-- R4: which boundary is delivered when the clock reaches a minute. -/
theorem boundaryDue_fresh {mark x : Nat} (h : mark < x) : boundaryDue mark x = boundaryAt 360 x := if_pos h

theorem boundaryDue_passed {mark x : Nat} (h : x ≤ mark) : boundaryDue mark x = none := if_neg (Nat.not_lt.mpr h)

theorem boundaryDue_eq_some (mark x b : Nat) : boundaryDue mark x = some b ↔ mark < x ∧ b ≤ 64 ∧ x = 360 + 15 * b := by
  rcases Nat.lt_or_ge mark x with h | h
  · simp [boundaryDue_fresh h, boundaryAt_eq_some, h]
  · simp [boundaryDue_passed h, Nat.not_lt.mpr h]

theorem boundaryDue_eq_none (mark x : Nat) :
    boundaryDue mark x = none ↔ x ≤ mark ∨ ∀ b, b ≤ 64 → x ≠ 360 + 15 * b := by
  rcases Nat.lt_or_ge mark x with h | h
  · simp [boundaryDue_fresh h, boundaryAt_eq_none, Nat.not_le.mpr h]
  · simp [boundaryDue_passed h, h]

theorem Clock.reaching_lastBoundary_due {c : Clock} {x b : Nat} (h : boundaryDue c.reach x = some b) :
    (c.reaching x).lastBoundary = some b := by
  simp [reaching, h]

theorem Clock.reaching_lastBoundary_kept {c : Clock} {x : Nat} (h : boundaryDue c.reach x = none) :
    (c.reaching x).lastBoundary = c.lastBoundary := by
  simp [reaching, h]

/-! ## The operations of the CTU -/

theorem Ctu.minuteCompletion_waits {t : Ctu} {b : Book} (h : t.minutesDue = 0 ∨ t.holding = true) :
    t.minuteCompletion b = (t, b) := if_pos h

theorem Ctu.minuteCompletion_applied {t : Ctu} {b : Book} (hd : t.minutesDue ≠ 0) (hh : t.holding = false) :
    t.minuteCompletion b = { t with minutesDue := t.minutesDue - 1 }.minutePassed b := by
  simp [minuteCompletion, hd, hh]

theorem Ctu.minutePassed_unset {t : Ctu} {b : Book} (h : t.clock = none) : t.minutePassed b = (t, b) := by
  simp [minutePassed, h]

theorem Ctu.minutePassed_within {t : Ctu} {b : Book} {c : Clock} (h : t.clock = some c) (hm : c.minute < 1439) :
    t.minutePassed b =
      ({ t with clock := some (c.reaching (c.minute + 1)) }, b.deliver (eventsAt c.date c.reach (c.minute + 1))) := by
  simp [minutePassed, h, hm]

theorem Ctu.minutePassed_midnight {t : Ctu} {b : Book} {c : Clock} (h : t.clock = some c) (hm : 1439 ≤ c.minute) :
    t.minutePassed b = midnight c t b := by
  simp [minutePassed, h, Nat.not_lt.mpr hm]

/-- R7: the checks of SET_CLOCK in their order. -/
theorem Ctu.setCheck_bad {t : Ctu} {d : Date} {m : Nat} (h : d.valid = false ∨ 1439 < m) :
    t.setCheck d m = some (Answer.of .badRequest) := by
  have hb : (!d.valid || decide (1439 < m)) = true := by simpa using h
  simp only [setCheck, firstFail, hb]

theorem Ctu.setCheck_running {t : Ctu} {d : Date} {m : Nat} (hd : d.valid = true) (hm : m ≤ 1439)
    (hc : t.clock ≠ none) : t.setCheck d m = some (Answer.because .refused .set) := by
  simp [setCheck, firstFail, hd, Nat.not_lt.mpr hm, Option.isSome_iff_ne_none.mpr hc]

theorem Ctu.setCheck_passes {t : Ctu} {d : Date} {m : Nat} :
    t.setCheck d m = none ↔ d.valid = true ∧ m ≤ 1439 ∧ t.clock = none := by
  constructor
  · intro h
    by_cases hb : d.valid = false ∨ 1439 < m
    · simp [setCheck_bad hb] at h
    · rw [not_or, Bool.not_eq_false, Nat.not_lt] at hb
      obtain ⟨hd, hm⟩ := hb
      refine ⟨hd, hm, ?_⟩
      by_contra hc
      simp [setCheck_running hd hm hc] at h
  · rintro ⟨hd, hm, hc⟩
    simp [setCheck, firstFail, hd, Nat.not_lt.mpr hm, hc]

/-- R9: the checks of TRIM_CLOCK in their order. -/
theorem Ctu.trimCheck_bad {t : Ctu} {n : Int} (h : n = 0 ∨ n < -30 ∨ 30 < n) :
    t.trimCheck n = .error (Answer.of .badRequest) := if_pos h

theorem Ctu.trimCheck_unset {t : Ctu} {n : Int} (h : ¬(n = 0 ∨ n < -30 ∨ 30 < n)) (hc : t.clock = none) :
    t.trimCheck n = .error (Answer.of .clockUnset) := by
  simp only [trimCheck, if_neg h, hc]

theorem Ctu.trimCheck_outside {t : Ctu} {n : Int} {c : Clock} (h : ¬(n = 0 ∨ n < -30 ∨ 30 < n)) (hc : t.clock = some c)
    (hm : (c.minute : Int) + n < 0 ∨ 1439 < (c.minute : Int) + n) :
    t.trimCheck n = .error (Answer.because .refused .trim) := by
  simp only [trimCheck, if_neg h, hc, if_pos hm]

theorem Ctu.trimCheck_passes {t : Ctu} {n : Int} {c : Clock} :
    t.trimCheck n = .ok c ↔
      ¬(n = 0 ∨ n < -30 ∨ 30 < n) ∧ t.clock = some c ∧ 0 ≤ (c.minute : Int) + n ∧ (c.minute : Int) + n ≤ 1439 := by
  by_cases h : n = 0 ∨ n < -30 ∨ 30 < n
  · simp [trimCheck_bad h, h]
  cases hc : t.clock with
  | none => simp [trimCheck_unset h hc]
  | some e =>
    by_cases hm : (e.minute : Int) + n < 0 ∨ 1439 < (e.minute : Int) + n
    · simp only [trimCheck_outside h hc hm, reduceCtorEq, false_iff]
      rintro ⟨-, he, h0, h1⟩
      cases he; omega
    · simp only [trimCheck, if_neg h, hc, if_neg hm, Except.ok.injEq, Option.some.injEq]
      exact ⟨fun he => ⟨h, he, by subst he; omega, by subst he; omega⟩, fun ⟨_, he, _⟩ => he⟩

/-- R10: the minutes of a forward trim pass one after another. -/
theorem trimForward_clock (c : Clock) (b : Book) (k : Nat) : (trimForward c b k).1 = c.passing k := by
  induction k generalizing c b with
  | zero => rfl
  | succ k ih => exact ih _ _

/-! ## What a step can do to the clock -/

/-- R1, R2, R7, R10 to R12: what one step can do to the clock. -/
inductive ClockStep : Option Clock → Option Clock → Prop where
  | kept (o : Option Clock) : ClockStep o o
  | reset (o : Option Clock) : ClockStep o none
  | set (d : Date) (m : Nat) (hd : d.valid = true) (hm : m ≤ 1439) : ClockStep none (some (Clock.set d m))
  | passed (c : Clock) (k : Nat) (h : c.minute + k ≤ 1439) : ClockStep (some c) (some (c.passing k))
  | back (c : Clock) (m : Nat) (h : m ≤ c.minute) : ClockStep (some c) (some { c with minute := m })
  | midnight (c : Clock) : ClockStep (some c) (some c.nextDay)

/-- What one step can do to the clock and the second of the CTU. -/
structure CtuStep (t t' : Ctu) : Prop where
  clock : ClockStep t.clock t'.clock
  second : t.second ≤ 59 → t'.second ≤ 59

theorem CtuStep.refl (t : Ctu) : CtuStep t t := ⟨.kept _, id⟩

theorem CtuStep.toReset (t : Ctu) : CtuStep t Ctu.reset := ⟨.reset _, fun _ => Nat.zero_le _⟩

theorem Ctu.oneSecond_step (t : Ctu) : CtuStep t t.oneSecond := by
  unfold oneSecond
  dsimp only
  split
  · exact ⟨.kept _, fun _ => by dsimp only; omega⟩
  · exact ⟨.kept _, fun _ => Nat.zero_le _⟩

theorem Ctu.minutePassed_step (t : Ctu) (b : Book) : CtuStep t (t.minutePassed b).1 := by
  cases hc : t.clock with
  | none =>
    rw [minutePassed_unset hc]
    exact .refl t
  | some c =>
    rcases Nat.lt_or_ge c.minute 1439 with hm | hm
    · rw [minutePassed_within hc hm]
      exact ⟨hc ▸ .passed c 1 hm, id⟩
    · rw [minutePassed_midnight hc hm]
      exact ⟨hc ▸ .midnight c, id⟩

theorem Ctu.minuteCompletion_step (t : Ctu) (b : Book) : CtuStep t (t.minuteCompletion b).1 := by
  by_cases h : t.minutesDue = 0 ∨ t.holding = true
  · rw [minuteCompletion_waits h]
    exact .refl t
  rw [minuteCompletion_applied (fun hd => h (.inl hd)) (by simpa using fun hh => h (.inr hh))]
  have keeps : CtuStep { t with minutesDue := t.minutesDue - 1 } _ := minutePassed_step _ b
  exact ⟨keeps.clock, keeps.second⟩

theorem Ctu.dayOpened_step (t : Ctu) (b : Book) : CtuStep t (t.dayOpened b).1 := by
  unfold dayOpened
  split
  · split
    · exact ⟨.kept _, id⟩
    · exact .refl t
  · exact .refl t

theorem Ctu.setClock_step (t : Ctu) (b : Book) : CtuStep t (t.setClock b).1 := by
  unfold setClock
  split
  · split
    · split
      · exact .refl t
      · next d m _ _ hk =>
        obtain ⟨hd, hm, hc⟩ := setCheck_passes.mp hk
        exact ⟨hc ▸ .set d m hd hm, fun _ => Nat.zero_le _⟩
    · exact .refl t
  · exact .refl t

theorem Ctu.setComplete_step (t : Ctu) (b : Book) : CtuStep t (t.setComplete b).1 := by
  unfold setComplete
  split
  · split
    · exact .refl t
    · exact ⟨.kept _, id⟩
  · exact .refl t

theorem Ctu.trimClock_step (t : Ctu) (b : Book) : CtuStep t (t.trimClock b).1 := by
  unfold trimClock
  split
  · split
    · split
      · exact .refl t
      · next n _ _ c hk =>
        obtain ⟨-, hc, h0, h1⟩ := trimCheck_passes.mp hk
        split
        · dsimp only
          rw [trimForward_clock]
          exact ⟨hc ▸ .passed c n.toNat (by omega), id⟩
        · exact ⟨hc ▸ .back c _ (by omega), id⟩
    · exact .refl t
  · exact .refl t

theorem Ctu.trimComplete_step (t : Ctu) (b : Book) : CtuStep t (t.trimComplete b).1 := by
  unfold trimComplete
  split
  · split
    · exact .refl t
    · exact ⟨.kept _, id⟩
  · exact .refl t

theorem Ctu.readClock_step (t : Ctu) (b : Book) : CtuStep t (t.readClock b).1 := by
  unfold readClock
  split
  · split <;> exact .refl t
  · exact .refl t

/-- 00, Block overview: what one command can do to the CTU; only the CTU's own commands and a reset reach it. -/
theorem exec_ctuStep {i : Instr} {s t : State} (h : exec i s = .next t) : CtuStep s.ctu t.ctu := by
  cases i
  case powerOnReset => cases h; exact .toReset _
  case linkReadComplete =>
    cases h
    rcases readComplete_ctu s with hk | hk <;> rw [hk]
    · exact .refl _
    · exact .toReset _
  case secondCompletion => cases h; exact Ctu.oneSecond_step _
  case minuteCompletion => exact onCtu_ctu h ▸ Ctu.minuteCompletion_step _ _
  case dayOpened => exact onCtu_ctu h ▸ Ctu.dayOpened_step _ _
  case setClock => exact onCtu_ctu h ▸ Ctu.setClock_step _ _
  case clockSetComplete => exact onCtu_ctu h ▸ Ctu.setComplete_step _ _
  case trimClock => exact onCtu_ctu h ▸ Ctu.trimClock_step _ _
  case trimComplete => exact onCtu_ctu h ▸ Ctu.trimComplete_step _ _
  case readClock => exact onCtu_ctu h ▸ Ctu.readClock_step _ _
  -- Every other command answers the state with other blocks replaced.
  all_goals (cases h; exact .refl _)

theorem step_ctuStep {s t : State} (h : step s = .next t) : CtuStep s.ctu t.ctu := by
  unfold step at h
  split at h
  · cases h; exact .refl _
  · next rest _ => exact exec_ctuStep (s := { s with pending := rest }) h

end Sys2Proof.Machine

/-! SUPPORT. The calendar of R2 and R7: the date after a valid date is valid, is another date, and its weekday is the
next one. -/

namespace Sys2Proof

theorem monthLength_pos (y m : Nat) (h1 : 1 ≤ m) (h12 : m ≤ 12) : 1 ≤ monthLength y m := by
  cases hl : leapYear y <;> interval_cases m <;> simp [monthLength, hl]

/-- R1. -/
theorem Date.valid_iff (d : Date) :
    d.valid = true ↔
      d.year ≤ 99 ∧ 1 ≤ d.month ∧ d.month ≤ 12 ∧ 1 ≤ d.day ∧ d.day ≤ monthLength d.year d.month := by
  simp [valid, and_assoc]

/-- R2: the date after `d`, by cases. -/
theorem Date.next_inMonth {d : Date} (h : d.day < monthLength d.year d.month) : d.next = { d with day := d.day + 1 } :=
  if_pos h

theorem Date.next_newMonth {d : Date} (h : monthLength d.year d.month ≤ d.day) (hm : d.month < 12) :
    d.next = { d with month := d.month + 1, day := 1 } := by
  simp only [next, if_neg (Nat.not_lt.mpr h), if_pos hm]

theorem Date.next_newYear {d : Date} (h : monthLength d.year d.month ≤ d.day) (hm : 12 ≤ d.month) :
    d.next = { year := (d.year + 1) % 100, month := 1, day := 1 } := by
  simp only [next, if_neg (Nat.not_lt.mpr h), if_neg (Nat.not_lt.mpr hm)]

/-- R2: the calendar stays within the valid dates. -/
theorem Date.next_valid {d : Date} (h : d.valid = true) : d.next.valid = true := by
  obtain ⟨hy, hm1, hm12, -, -⟩ := d.valid_iff.mp h
  rw [valid_iff]
  rcases Nat.lt_or_ge d.day (monthLength d.year d.month) with hd | hd
  · rw [next_inMonth hd]
    exact ⟨hy, hm1, hm12, Nat.le_add_left .., hd⟩
  rcases Nat.lt_or_ge d.month 12 with hm | hm
  · rw [next_newMonth hd hm]
    exact ⟨hy, Nat.le_add_left .., hm, le_rfl, monthLength_pos _ _ (Nat.le_add_left ..) hm⟩
  · rw [next_newYear hd hm]
    exact ⟨by dsimp only; omega, le_rfl, Nat.le_add_left 1 11, le_rfl, Nat.le_add_left 1 30⟩

theorem Date.next_ne (d : Date) : d.next ≠ d := by
  rcases Nat.lt_or_ge d.day (monthLength d.year d.month) with hd | hd
  · rw [next_inMonth hd]
    exact fun h => absurd (congrArg Date.day h) (Nat.succ_ne_self _)
  rcases Nat.lt_or_ge d.month 12 with hm | hm
  · rw [next_newMonth hd hm]
    exact fun h => absurd (congrArg Date.month h) (Nat.succ_ne_self _)
  · rw [next_newYear hd hm]
    intro h
    have hk : 1 = d.month := congrArg Date.month h
    omega

/-- R2: the days of the months before December. -/
theorem daysBeforeMonth_december (y : Nat) : daysBeforeMonth y 12 = 334 + if leapYear y then 1 else 0 := by
  simp only [daysBeforeMonth, monthLength]
  split <;> rfl

theorem daysBeforeMonth_succ (y m : Nat) (h : 1 ≤ m) :
    daysBeforeMonth y (m + 1) = daysBeforeMonth y m + monthLength y m := by
  cases m with
  | zero => omega
  | succ m => rfl

/-- R7: within years 00 to 99 the next date is one day further from 1 January of year 00. -/
theorem Date.next_dayNumber {d : Date} (h : d.valid = true) (hl : ¬(d.year = 99 ∧ d.month = 12 ∧ d.day = 31)) :
    d.next.dayNumber = d.dayNumber + 1 := by
  obtain ⟨hy, hm1, hm12, hd1, hdl⟩ := d.valid_iff.mp h
  rcases Nat.lt_or_ge d.day (monthLength d.year d.month) with hd | hd
  · rw [next_inMonth hd]
    simp only [dayNumber]
    omega
  rcases Nat.lt_or_ge d.month 12 with hm | hm
  · rw [next_newMonth hd hm]
    simp only [dayNumber, daysBeforeMonth_succ _ _ hm1]
    omega
  · have h12 : d.month = 12 := by omega
    rw [h12, monthLength] at hd hdl
    rw [next_newYear (by rwa [h12]) hm, Nat.mod_eq_of_lt (by omega)]
    simp only [dayNumber, h12, daysBeforeMonth_december, daysBeforeMonth, leapYear, beq_iff_eq]
    split <;> omega

/-- R7: a day further is a weekday further. -/
theorem Date.weekday_of_dayNumber_succ {d e : Date} (h : e.dayNumber = d.dayNumber + 1) :
    e.weekday = d.weekday.next := by
  unfold weekday
  rw [h, Nat.add_mod]
  have hr : d.dayNumber % 7 < 7 := Nat.mod_lt _ (by decide)
  generalize d.dayNumber % 7 = r at hr
  interval_cases r <;> rfl

end Sys2Proof

/-! PROOFS. The invariants of the clock: every step keeps it legal, and within one date the last slot boundary never
moves back (R1, R2, R4, R5, R9 to R12). -/

namespace Sys2Proof.Machine

/-- The law of a RUNNING clock. -/
def Clock.Legal (c : Clock) : Prop :=
  c.date.valid = true ∧ c.minute ≤ c.reach ∧ c.reach ≤ 1439 ∧
    ∀ b, c.lastBoundary = some b → b ≤ 64 ∧ boundaryMinute b ≤ c.reach

theorem clockLaw_iff (t : Ctu) : ClockLaw t ↔ t.second ≤ 59 ∧ ∀ c, t.clock = some c → c.Legal := Iff.rfl

theorem Clock.reaching_legal {c : Clock} {x : Nat} (h : c.Legal) (hx : x ≤ 1439) : (c.reaching x).Legal := by
  obtain ⟨hd, -, hr, hb⟩ := h
  refine ⟨hd, le_max_right .., max_le hr hx, fun b hl => ?_⟩
  cases hk : boundaryDue c.reach x with
  | some e =>
    rw [reaching_lastBoundary_due hk, Option.some.injEq] at hl
    subst hl
    obtain ⟨-, he, hxe⟩ := (boundaryDue_eq_some ..).mp hk
    exact ⟨he, hxe ▸ le_max_right ..⟩
  | none =>
    rw [reaching_lastBoundary_kept hk] at hl
    exact ⟨(hb b hl).1, le_max_of_le_left (hb b hl).2⟩

theorem Clock.passing_legal {c : Clock} {k : Nat} (h : c.Legal) (hk : c.minute + k ≤ 1439) : (c.passing k).Legal := by
  induction k generalizing c with
  | zero => exact h
  | succ k ih => exact ih (reaching_legal h (by omega)) (by rw [reaching_minute]; omega)

/-- What a step leaves of a legal clock is legal. -/
theorem ClockStep.legal {o o' : Option Clock} (h : ClockStep o o') (ho : ∀ c, o = some c → c.Legal) :
    ∀ c, o' = some c → c.Legal := by
  intro c' hc'
  cases h with
  | kept => exact ho c' hc'
  | reset => cases hc'
  | set d m hd hm => cases hc'; exact ⟨hd, le_rfl, hm, fun b hb => nomatch hb⟩
  | passed c k hk => cases hc'; exact Clock.passing_legal (ho c rfl) hk
  | back c m hm =>
    cases hc'
    obtain ⟨hd, hmin, hr, hb⟩ := ho c rfl
    exact ⟨hd, hm.trans hmin, hr, hb⟩
  | midnight c => cases hc'; exact ⟨Date.next_valid (ho c rfl).1, le_rfl, Nat.zero_le _, fun b hb => nomatch hb⟩

/-- Settles O5: the law is kept by each of the things a step can do to the clock. -/
theorem everyStepKeepsTheClockLegal : Obligations.EveryStepKeepsTheClockLegal := by
  intro s t hs hst
  rw [clockLaw_iff] at hs ⊢
  obtain ⟨hsec, hlegal⟩ := hs
  obtain ⟨hclock, hsecond⟩ := step_ctuStep hst
  exact ⟨hsecond hsec, hclock.legal hlegal⟩

/-! ## The last slot boundary -/

/-- R5: the last boundary of a clock stands in a later one of the same date, or a later boundary does. -/
def Clock.boundaryKept (c c' : Clock) : Prop :=
  ∀ b, c.lastBoundary = some b → ∃ b', c'.lastBoundary = some b' ∧ b ≤ b'

theorem Clock.boundaryKept.refl (c : Clock) : c.boundaryKept c := fun b hb => ⟨b, hb, le_rfl⟩

theorem Clock.boundaryKept.trans {c d e : Clock} (h : c.boundaryKept d) (h' : d.boundaryKept e) : c.boundaryKept e := by
  intro b hb
  obtain ⟨b', hb', hle⟩ := h b hb
  obtain ⟨b'', hb'', hle'⟩ := h' b' hb'
  exact ⟨b'', hb'', hle.trans hle'⟩

/-- R4: a boundary that falls due lies above the reach mark, and the last one delivered at or below it. -/
theorem Clock.reaching_boundaryKept {c : Clock} (h : c.Legal) (x : Nat) : c.boundaryKept (c.reaching x) := by
  intro b hb
  cases hk : boundaryDue c.reach x with
  | some e =>
    refine ⟨e, reaching_lastBoundary_due hk, ?_⟩
    obtain ⟨-, -, -, hlast⟩ := h
    have hbelow : 360 + 15 * b ≤ c.reach := (hlast b hb).2
    obtain ⟨habove, -, he⟩ := (boundaryDue_eq_some ..).mp hk
    omega
  | none => exact ⟨b, by rw [reaching_lastBoundary_kept hk, hb], le_rfl⟩

theorem Clock.passing_boundaryKept {c : Clock} {k : Nat} (h : c.Legal) (hk : c.minute + k ≤ 1439) :
    c.boundaryKept (c.passing k) := by
  induction k generalizing c with
  | zero => exact .refl c
  | succ k ih =>
    exact (reaching_boundaryKept h _).trans (ih (reaching_legal h (by omega)) (by rw [reaching_minute]; omega))

/-- R5, R12: a step from a legal clock to a clock keeps the date and the last boundary, or opens a date with none. -/
theorem ClockStep.boundary {c c' : Clock} (h : ClockStep (some c) (some c')) (hc : c.Legal) :
    c'.date = c.date ∧ c.boundaryKept c' ∨ c'.date ≠ c.date ∧ c'.lastBoundary = none := by
  cases h with
  | kept => exact .inl ⟨rfl, .refl c⟩
  | passed _ k hk => exact .inl ⟨c.passing_date k, Clock.passing_boundaryKept hc hk⟩
  | back => exact .inl ⟨rfl, .refl c⟩
  | midnight => exact .inr ⟨c.date.next_ne, rfl⟩

/-- R5: the current slot of a running clock. -/
theorem Ctu.slot_running {t : Ctu} {c : Clock} (h : t.clock = some c) : t.slot = slotOfBoundary c.lastBoundary := by
  simp [slot, lastBoundary, h]

theorem Ctu.delivered_running {t : Ctu} {c : Clock} (h : t.clock = some c) (n : Nat) :
    t.delivered n = true ↔ ∃ b, c.lastBoundary = some b ∧ n ≤ b := by
  cases hb : c.lastBoundary <;> simp [delivered, lastBoundary, h, hb]

theorem slotOfBoundary_within {b : Nat} (h : b ≤ 63) : slotOfBoundary (some b) = .slot b := if_pos h

theorem windowOfBoundary_within {b : Nat} (h : b ≤ 63) : windowOfBoundary (some b) = .slot (b / 2) := if_pos h

/-- Settles O20: the slot by the three cases of R5; the last boundary by what a step can do to a legal clock. -/
theorem currentSlotFollowsTheLastBoundary : Obligations.CurrentSlotFollowsTheLastBoundary := by
  refine ⟨fun s c hc => ?_, fun s t c c' hs hc hst hc' => ?_⟩
  · rw [Ctu.slot_running hc]
    refine ⟨fun hb => ?_, fun b hb h63 => ?_, fun hb => ?_, Ctu.delivered_running hc⟩
    · rw [hb]; exact ⟨rfl, rfl⟩
    · rw [hb]; exact ⟨slotOfBoundary_within h63, windowOfBoundary_within h63⟩
    · rw [hb]; exact ⟨rfl, rfl⟩
  · have hstep : ClockStep (some c) (some c') := hc ▸ hc' ▸ (step_ctuStep hst).clock
    obtain ⟨-, hlegal⟩ := (clockLaw_iff _).mp hs
    rcases hstep.boundary (hlegal c hc) with ⟨hd, hkept⟩ | ⟨hd, hnone⟩
    · exact ⟨fun _ => hkept, fun hne => absurd hd hne⟩
    · refine ⟨fun he => absurd he hd, fun _ => ⟨hnone, ?_⟩⟩
      rw [Ctu.slot_running hc', hnone]
      rfl

end Sys2Proof.Machine

/-! SUPPORT. What each operation of the CTU delivers and answers (R4, R7 to R13), an equation for each case. -/

namespace Sys2Proof.Machine

/-! ## Deliveries -/

@[simp] theorem Book.deliver_hmp (b : Book) (d : Delivery) : (b.deliver d).hmp = b.hmp := rfl
@[simp] theorem Book.deliver_requests (b : Book) (d : Delivery) : (b.deliver d).mail.requests = b.mail.requests := rfl
@[simp] theorem Book.deliver_bkeEvents (b : Book) (d : Delivery) :
    (b.deliver d).mail.bkeEvents = b.mail.bkeEvents ++ d.bke := rfl
@[simp] theorem Book.deliver_ppuEvents (b : Book) (d : Delivery) :
    (b.deliver d).mail.ppuEvents = b.mail.ppuEvents ++ d.ppu := rfl
@[simp] theorem Book.deliver_cscEvents (b : Book) (d : Delivery) :
    (b.deliver d).mail.cscEvents = b.mail.cscEvents ++ d.csc := rfl
@[simp] theorem Book.deliver_squEvents (b : Book) (d : Delivery) :
    (b.deliver d).mail.squEvents = b.mail.squEvents ++ d.squ := rfl

/-- R4: the events of an earlier minute stand before those of a later one at each recipient. -/
def Delivery.followedBy (d e : Delivery) : Delivery :=
  { bke := d.bke ++ e.bke, ppu := d.ppu ++ e.ppu, csc := d.csc ++ e.csc, squ := d.squ ++ e.squ }

theorem Book.deliver_deliver (b : Book) (d e : Delivery) : (b.deliver d).deliver e = b.deliver (d.followedBy e) := by
  simp [deliver, Delivery.followedBy]

/-- R4: the mark decides only whether it lies below the minute. -/
theorem eventsAt_congr {mark mark' x : Nat} (d : Date) (h : mark < x ↔ mark' < x) :
    eventsAt d mark x = eventsAt d mark' x := by
  simp only [eventsAt, boundaryDue, h]

@[simp] theorem eventsAt_squ (d : Date) (mark x : Nat) :
    (eventsAt d mark x).squ = [{ date := d, kind := .minute x }] := rfl

@[simp] theorem eventsAt_csc (d : Date) (mark x : Nat) : (eventsAt d mark x).csc = (eventsAt d mark x).bke := rfl

theorem eventsAt_bke_due {mark x b : Nat} (d : Date) (h : boundaryDue mark x = some b) :
    (eventsAt d mark x).bke = [{ date := d, kind := boundaryEvent b }, { date := d, kind := .minute x }] := by
  simp [eventsAt, h]

theorem eventsAt_bke_none {mark x : Nat} (d : Date) (h : boundaryDue mark x = none) :
    (eventsAt d mark x).bke = [{ date := d, kind := .minute x }] := by
  simp [eventsAt, h]

theorem eventsAt_ppu_passed {mark x : Nat} (d : Date) (h : x ≤ mark) :
    (eventsAt d mark x).ppu = [{ date := d, kind := .minute x }] := by
  simp [eventsAt, boundaryDue_passed h, Nat.not_lt.mpr h]

/-- R4: what the PPU is delivered at a minute above the mark, in the order of R4. -/
theorem eventsAt_ppu_fresh {mark x : Nat} (d : Date) (h : mark < x) :
    (eventsAt d mark x).ppu =
      (if x = 345 then [{ date := d, kind := .morningBuild }]
        else (boundaryAt 359 x).toList.map fun b => { date := d, kind := .preBoundary b }) ++
      ((boundaryAt 360 x).toList.map fun b => { date := d, kind := boundaryEvent b }) ++
      (if x = 1320 then [{ date := d, kind := .dayEnd }] else []) ++ [{ date := d, kind := .minute x }] := by
  simp [eventsAt, boundaryDue_fresh h, h]

/-- Section 1.2: a boundary that begins a slot. -/
theorem boundaryEvent_begins {b : Nat} (h : b ≤ 63) :
    boundaryEvent b = .slotBoundary b (some b) (if 1 ≤ b then some (b - 1) else none) := by
  simp [boundaryEvent, h]

/-! ## The minutes of a forward trim -/

/-- R10: what the `k` minutes after `m` deliver, where the reach mark before them is `mark`. -/
def dueOver (date : Date) (mark m k : Nat) : Delivery :=
  { bke := (List.range k).flatMap fun i => (eventsAt date mark (m + i + 1)).bke
    ppu := (List.range k).flatMap fun i => (eventsAt date mark (m + i + 1)).ppu
    csc := (List.range k).flatMap fun i => (eventsAt date mark (m + i + 1)).csc
    squ := (List.range k).flatMap fun i => (eventsAt date mark (m + i + 1)).squ }

/-- R10: each minute raises the mark no further than itself, so the mark before the first decides at all of them. -/
theorem dueOver_succ (date : Date) (mark m k : Nat) :
    dueOver date mark m (k + 1) =
      (eventsAt date mark (m + 1)).followedBy (dueOver date (max mark (m + 1)) (m + 1) k) := by
  have same (i : Nat) : eventsAt date (max mark (m + 1)) (m + 1 + i + 1) = eventsAt date mark (m + (i + 1) + 1) := by
    rw [show m + 1 + i + 1 = m + (i + 1) + 1 by omega]
    exact eventsAt_congr date (by omega)
  simp only [dueOver, Delivery.followedBy, List.range_succ_eq_map, List.flatMap_cons, List.flatMap_map, same,
    Nat.add_zero]

theorem trimForward_book (c : Clock) (b : Book) (k : Nat) :
    (trimForward c b k).2 = b.deliver (dueOver c.date c.reach c.minute k) := by
  induction k generalizing c b with
  | zero => simp [trimForward, Book.deliver, dueOver]
  | succ k ih => rw [trimForward, ih, Book.deliver_deliver, dueOver_succ]; rfl

theorem trimForward_eq (c : Clock) (b : Book) (k : Nat) :
    trimForward c b k = (c.passing k, b.deliver (dueOver c.date c.reach c.minute k)) :=
  Prod.ext (trimForward_clock c b k) (trimForward_book c b k)

/-- R10: boundary `b` is delivered by the `k` minutes after that of `c`. -/
def Clock.passes (c : Clock) (k b : Nat) : Prop :=
  b ≤ 64 ∧ c.reach < 360 + 15 * b ∧ c.minute < 360 + 15 * b ∧ 360 + 15 * b ≤ c.minute + k

/-- A boundary passed in the first minute is the one due there; any other is passed in the minutes after it. -/
theorem Clock.passes_succ (c : Clock) (k b : Nat) :
    c.passes (k + 1) b ↔
      boundaryDue c.reach (c.minute + 1) = some b ∨ (c.reaching (c.minute + 1)).passes k b := by
  simp only [passes, boundaryDue_eq_some, reaching_reach, reaching_minute]
  omega

theorem Clock.passing_lastBoundary_kept {c : Clock} {k : Nat} (h : ∀ b, ¬c.passes k b) :
    (c.passing k).lastBoundary = c.lastBoundary := by
  induction k generalizing c with
  | zero => rfl
  | succ k ih =>
    have first : boundaryDue c.reach (c.minute + 1) = none :=
      Option.eq_none_iff_forall_ne_some.mpr fun b hb => h b ((c.passes_succ k b).mpr (.inl hb))
    rw [passing, ih fun b hb => h b ((c.passes_succ k b).mpr (.inr hb)), reaching_lastBoundary_kept first]

/-- R10: the last of the boundaries passed is the last delivered. -/
theorem Clock.passing_lastBoundary_passed {c : Clock} {k b : Nat} (h : c.passes k b) (hlast : ¬c.passes k (b + 1)) :
    (c.passing k).lastBoundary = some b := by
  induction k generalizing c with
  | zero => obtain ⟨-, -, hlow, hhigh⟩ := h; omega
  | succ k ih =>
    by_cases hlater : (c.reaching (c.minute + 1)).passes k b
    · exact ih hlater fun hn => hlast ((c.passes_succ k _).mpr (.inr hn))
    · have first := ((c.passes_succ k b).mp h).resolve_right hlater
      have none_later : ∀ e, ¬(c.reaching (c.minute + 1)).passes k e := by
        intro e he
        simp only [boundaryDue_eq_some] at first
        simp only [passes, reaching_reach, reaching_minute] at he hlast
        omega
      rw [passing, passing_lastBoundary_kept none_later, reaching_lastBoundary_due first]

/-! ## Seconds and minute completions -/

theorem Ctu.oneSecond_within {t : Ctu} (h : t.second < 59) :
    t.oneSecond = { t with elapsed := t.elapsed + 32768, second := t.second + 1 } := by
  simp [oneSecond, h, Config.crystal]

theorem Ctu.oneSecond_minute {t : Ctu} (h : 59 ≤ t.second) :
    t.oneSecond = { t with elapsed := t.elapsed + 32768, second := 0, minutesDue := t.minutesDue + 1 } := by
  simp [oneSecond, Nat.not_lt.mpr h, Config.crystal]

theorem Ctu.minuteCompletion_unset {t : Ctu} {b : Book} (hc : t.clock = none) (hd : t.minutesDue ≠ 0)
    (hh : t.holding = false) : t.minuteCompletion b = ({ t with minutesDue := t.minutesDue - 1 }, b) := by
  rw [minuteCompletion_applied hd hh]
  exact minutePassed_unset hc

theorem Ctu.minuteCompletion_within {t : Ctu} {b : Book} {c : Clock} (hc : t.clock = some c) (hd : t.minutesDue ≠ 0)
    (hh : t.holding = false) (hm : c.minute < 1439) :
    t.minuteCompletion b =
      ({ t with minutesDue := t.minutesDue - 1, clock := some (c.reaching (c.minute + 1)) },
        b.deliver (eventsAt c.date c.reach (c.minute + 1))) := by
  rw [minuteCompletion_applied hd hh]
  exact minutePassed_within hc hm

theorem Ctu.minuteCompletion_midnight {t : Ctu} {b : Book} {c : Clock} (hc : t.clock = some c) (hd : t.minutesDue ≠ 0)
    (hh : t.holding = false) (hm : 1439 ≤ c.minute) :
    t.minuteCompletion b = midnight c { t with minutesDue := t.minutesDue - 1 } b := by
  rw [minuteCompletion_applied hd hh]
  exact minutePassed_midnight hc hm

theorem Ctu.dayOpened_taken {t : Ctu} {b : Book} {c : Clock} (hc : t.clock = some c) (ho : t.opening = true)
    (hl : b.mail.eventLeft EventKind.isMidnight = false) :
    t.dayOpened b = ({ t with opening := false }, b.post (.dayOpened c.date c.weekday (c.date.after 13))) := by
  simp [dayOpened, hc, ho, hl]

/-! ## Requests -/

/-- The CTU takes its next request while no forward trim is being taken. -/
theorem Asks.nextOfCtu {s : State} {x : Ctx} {q : Request} {rest : List Handed} (h : Asks s x q rest)
    (hq : q.owner = .ctu) (ht : s.ctu.trimming = none) :
    s.ctu.nextRequest s.book = some ({ ctx := x, request := q }, s.book.withRequests rest) := by
  rw [Ctu.nextRequest, ht, ← h.next, hq]
  rfl

theorem Ctu.nextRequest_trimming {t : Ctu} {b : Book} (h : t.trimming ≠ none) : t.nextRequest b = none := by
  simp [nextRequest, Option.isSome_iff_ne_none.mpr h]

section

variable {t : Ctu} {b b' : Book} {x : Ctx}

theorem Ctu.setClock_refused {d : Date} {m : Nat} {a : Answer}
    (hq : t.nextRequest b = some ({ ctx := x, request := .setClock d m }, b')) (ha : t.setCheck d m = some a) :
    t.setClock b = (t, b'.reply x a) := by
  simp [setClock, hq, ha]

theorem Ctu.setClock_taken {d : Date} {m : Nat}
    (hq : t.nextRequest b = some ({ ctx := x, request := .setClock d m }, b')) (ha : t.setCheck d m = none) :
    t.setClock b =
      ({ t with
          clock := some (Clock.set d m), second := 0, minutesDue := 0, setting := some (x, Clock.set d m) },
        b'.deliverAll [{ date := d, kind := .horizonOpen d.weekday m (Clock.set d m).slot }]) := by
  simp [setClock, hq, ha]

/-- R7: a SET_CLOCK leaves the queue of requests, however it is answered. -/
theorem Ctu.setClock_requests {d : Date} {m : Nat}
    (hq : t.nextRequest b = some ({ ctx := x, request := .setClock d m }, b')) :
    (t.setClock b).2.mail.requests = b'.mail.requests := by
  cases ha : t.setCheck d m with
  | some a => rw [setClock_refused hq ha]; simp
  | none => rw [setClock_taken hq ha]; rfl

theorem Ctu.setComplete_taken {c : Clock} (hs : t.setting = some (x, c))
    (hl : b.mail.eventLeft EventKind.isHorizonOpen = false) :
    t.setComplete b =
      ({ t with setting := none },
        (b.post (c.notice .set)).reply x (Answer.ok (.clockSet c.date c.weekday c.minute c.slot))) := by
  simp [setComplete, hs, hl]

theorem Ctu.trimClock_refused {n : Int} {a : Answer}
    (hq : t.nextRequest b = some ({ ctx := x, request := .trimClock n }, b')) (ha : t.trimCheck n = .error a) :
    t.trimClock b = (t, b'.reply x a) := by
  simp [trimClock, hq, ha]

theorem Ctu.trimClock_forward {n : Int} {c : Clock}
    (hq : t.nextRequest b = some ({ ctx := x, request := .trimClock n }, b')) (hc : t.trimCheck n = .ok c)
    (hn : 0 < n) :
    t.trimClock b =
      ({ t with clock := some (c.passing n.toNat), trimming := some (x, n) },
        b'.deliver (dueOver c.date c.reach c.minute n.toNat)) := by
  simp [trimClock, hq, hc, hn, trimForward_eq]

theorem Ctu.trimClock_back {n : Int} {c c' : Clock}
    (hq : t.nextRequest b = some ({ ctx := x, request := .trimClock n }, b')) (hc : t.trimCheck n = .ok c) (hn : n ≤ 0)
    (hc' : c' = { c with minute := ((c.minute : Int) + n).toNat }) :
    t.trimClock b =
      ({ t with clock := some c' },
        ((b'.squMinuteBack c'.date c'.minute).post (c'.notice (.trim n))).reply x
          (Answer.ok (.trimmed c'.minute c'.slot))) := by
  subst hc'
  simp [trimClock, hq, hc, Int.not_lt.mpr hn]

theorem Ctu.trimComplete_taken {c : Clock} {n : Int} (ht : t.trimming = some (x, n)) (hc : t.clock = some c)
    (hl : b.mail.eventLeft (fun _ => true) = false) :
    t.trimComplete b =
      ({ t with trimming := none },
        (b.post (c.notice (.trim n))).reply x (Answer.ok (.trimmed c.minute c.slot))) := by
  simp [trimComplete, ht, hc, hl]

theorem Ctu.reading_unset (h : t.clock = none) :
    t.reading = .clock .unset none none t.second none none none none := by
  simp only [reading, h]

theorem Ctu.reading_running {c : Clock} (h : t.clock = some c) :
    t.reading =
      .clock .running (some (c.date, c.weekday)) (some c.minute) t.second (some c.reach) (some c.slot)
        (some (windowOfBoundary c.lastBoundary)) (some (c.date.after 13)) := by
  simp only [reading, h]

theorem Ctu.readClock_answers (hq : t.nextRequest b = some ({ ctx := x, request := .readClock }, b')) :
    t.readClock b = (t, b'.reply x (Answer.ok t.reading)) := by
  simp [readClock, hq]

theorem Ctu.readClock_held (h : t.trimming ≠ none) : t.readClock b = (t, b) := by
  simp [readClock, nextRequest_trimming h]

end

@[simp] theorem Book.squMinuteBack_mail (b : Book) (d : Date) (m : Nat) : (b.squMinuteBack d m).mail = b.mail := by
  obtain ⟨q, hq⟩ := b.squMinuteBack_eq d m
  rw [hq, Book.withSqu_mail]

theorem Book.squMinuteBack_squ (b : Book) (d : Date) (m : Nat) :
    (b.squMinuteBack d m).squ =
      if b.squ.horizon.any (fun h => h.today == d) then { b.squ with minute := b.squ.minute.map (min m) }
      else b.squ := by
  unfold squMinuteBack
  split <;> rfl

/-- A request of the CTU that is answered at once with the clock as it was. -/
theorem replied_withRequests (s : State) (c : Ctu) (rest : List Handed) (x : Ctx) (a : Answer) :
    Replied s { s with ctu := c, book := (s.book.withRequests rest).reply x a } x a :=
  Book.reply_replied s _ _ x a rfl rfl

end Sys2Proof.Machine

/-! PROOFS. The steps of the CTU (R1 to R13) and what a power-on reset leaves. -/

namespace Sys2Proof.Machine

/-- Settles O13: a second by whether it is the sixtieth, a minute completion by whether a boundary falls due. -/
theorem secondsAndMinutesPass : Obligations.SecondsAndMinutesPass := by
  refine ⟨fun s => ?_, fun s c hc hd hh hm => ?_, fun s hc hd hh => ?_⟩
  · refine ⟨{ s with ctu := s.ctu.oneSecond }, rfl, rfl, ?_⟩
    rcases Nat.lt_or_ge s.ctu.second 59 with hs | hs
    · rw [Ctu.oneSecond_within hs]
      exact ⟨rfl, rfl, rfl, rfl, rfl, fun _ => ⟨rfl, rfl⟩, fun h => absurd hs (Nat.not_lt.mpr h)⟩
    · rw [Ctu.oneSecond_minute hs]
      exact ⟨rfl, rfl, rfl, rfl, rfl, fun h => absurd h (Nat.not_lt.mpr hs), fun _ => ⟨rfl, rfl⟩⟩
  · refine ⟨_, c.reaching (c.minute + 1),
      runs_of_onCtu (i := .minuteCompletion) rfl (Ctu.minuteCompletion_within hc hd hh hm),
      rfl, rfl, rfl, rfl, rfl, rfl, rfl, rfl, rfl, fun b hb hx hreach => ?_, fun h => ?_⟩
    · have due : boundaryDue c.reach (c.minute + 1) = some b := (boundaryDue_eq_some ..).mpr ⟨hreach, hb, hx⟩
      refine ⟨Clock.reaching_lastBoundary_due due, ?_, ?_⟩
      · rw [Book.deliver_bkeEvents, eventsAt_bke_due _ due]
      · rw [Book.deliver_cscEvents, eventsAt_csc, eventsAt_bke_due _ due]
    · have due : boundaryDue c.reach (c.minute + 1) = none := (boundaryDue_eq_none ..).mpr h.symm
      refine ⟨Clock.reaching_lastBoundary_kept due, ?_, ?_⟩
      · rw [Book.deliver_bkeEvents, eventsAt_bke_none _ due]
      · rw [Book.deliver_cscEvents, eventsAt_csc, eventsAt_bke_none _ due]
  · exact ⟨_, runs_of_onCtu (i := .minuteCompletion) rfl (Ctu.minuteCompletion_unset hc hd hh), rfl, rfl⟩

/-- Settles O14: at a minute above the mark, at most one of the rows of R4 before the minute event falls due, but at
22:00, where boundary 64 and the day-end do. -/
theorem pagesAreDeliveredTheDaysEvents : Obligations.PagesAreDeliveredTheDaysEvents := by
  intro d mark x hx
  refine ⟨eventsAt_ppu_passed d, fun h he => ?_, fun h b hb he => ?_, fun h b hb he => ?_, fun h he => ?_,
    fun h h345 hno => ?_, rfl, rfl, fun h b hb he => ?_, fun h => ?_⟩
  · subst he
    simp [eventsAt_ppu_fresh d h, (boundaryAt_eq_none 360 345).mpr (by omega)]
  · have early : boundaryAt 359 x = some b := (boundaryAt_eq_some ..).mpr ⟨hb, he⟩
    have slot : boundaryAt 360 x = none := (boundaryAt_eq_none ..).mpr (by omega)
    have h345 : x ≠ 345 := by omega
    have h1320 : x ≠ 1320 := by omega
    simp [eventsAt_ppu_fresh d h, early, slot, h345, h1320]
  · have early : boundaryAt 359 x = none := (boundaryAt_eq_none ..).mpr (by omega)
    have slot : boundaryAt 360 x = some b := (boundaryAt_eq_some ..).mpr ⟨by omega, he⟩
    have h345 : x ≠ 345 := by omega
    have h1320 : x ≠ 1320 := by omega
    simp [eventsAt_ppu_fresh d h, early, slot, h345, h1320, boundaryEvent_begins hb]
  · subst he
    have early : boundaryAt 359 1320 = none := (boundaryAt_eq_none ..).mpr (by omega)
    have slot : boundaryAt 360 1320 = some 64 := (boundaryAt_eq_some ..).mpr ⟨le_rfl, rfl⟩
    simp [eventsAt_ppu_fresh d h, early, slot, boundaryEvent]
  · have early : boundaryAt 359 x = none := (boundaryAt_eq_none ..).mpr fun b hb => (hno b hb).1
    have slot : boundaryAt 360 x = none := (boundaryAt_eq_none ..).mpr fun b hb => (hno b hb).2
    have h1320 : x ≠ 1320 := (hno 64 le_rfl).2
    simp [eventsAt_ppu_fresh d h, early, slot, h345, h1320]
  · exact eventsAt_bke_due d ((boundaryDue_eq_some ..).mpr ⟨h, hb, he⟩)
  · exact eventsAt_bke_none d ((boundaryDue_eq_none ..).mpr h)

/-- Settles O15: midnight by its equation; the calendar by the three cases of the next date. -/
theorem midnightOpensTheNextDay : Obligations.MidnightOpensTheNextDay := by
  refine ⟨fun s c hc hd hh hm => ?_, fun s c hc ho hl => ?_, fun d => Date.next_valid, rfl, rfl, fun d hv hl => ?_⟩
  · exact ⟨_, runs_of_onCtu (i := .minuteCompletion) rfl (Ctu.minuteCompletion_midnight hc hd hh hm),
      rfl, rfl, rfl, rfl, rfl, rfl⟩
  · exact ⟨_, runs_of_onCtu (i := .dayOpened) rfl (Ctu.dayOpened_taken hc ho hl), rfl, rfl⟩
  · exact Date.weekday_of_dayNumber_succ (Date.next_dayNumber hv hl)

/-- Settles O16: SET_CLOCK by the outcome of its checks. -/
theorem setClockSetsAndOpensTheHorizon : Obligations.SetClockSetsAndOpensTheHorizon := by
  refine ⟨fun s x d m rest hq ht => ?_, fun s x c hs hl => ?_⟩
  · have next := hq.nextOfCtu rfl ht
    refine ⟨_, runs_onCtu (i := .setClock) (f := Ctu.setClock) rfl, Ctu.setClock_requests next, fun hbad => ?_,
      fun hd hm hc => ?_,
      fun hd hm hc => ?_⟩
    · rw [Ctu.setClock_refused next (Ctu.setCheck_bad hbad)]
      exact ⟨rfl, replied_withRequests ..⟩
    · rw [Ctu.setClock_refused next (Ctu.setCheck_running hd hm hc)]
      exact ⟨rfl, replied_withRequests ..⟩
    · rw [Ctu.setClock_taken next (Ctu.setCheck_passes.mpr ⟨hd, hm, hc⟩)]
      exact ⟨rfl, rfl, rfl, rfl, rfl, rfl, rfl, rfl, rfl⟩
  · exact ⟨_, runs_of_onCtu (i := .clockSetComplete) rfl (Ctu.setComplete_taken hs hl), rfl, rfl⟩

/-- Settles O17: TRIM_CLOCK by the outcome of its checks. -/
theorem backwardAndRefusedTrimsDeliverNothing : Obligations.BackwardAndRefusedTrimsDeliverNothing := by
  refine ⟨fun s x c k rest hq ht hc h1 h30 hk hm => ?_, fun s x n rest hq ht => ?_⟩
  · have passes : s.ctu.trimCheck (-(k : Int)) = .ok c := Ctu.trimCheck_passes.mpr ⟨by omega, hc, by omega, by omega⟩
    have back : { c with minute := c.minute - k } = { c with minute := ((c.minute : Int) + -(k : Int)).toNat } := by
      rw [show ((c.minute : Int) + -(k : Int)).toNat = c.minute - k by omega]
    refine ⟨_, runs_of_onCtu (i := .trimClock) rfl (Ctu.trimClock_back (hq.nextOfCtu rfl ht) passes (by omega) back),
      rfl, ?_, rfl, ?_⟩
    · rw [Book.reply_mail, Book.post_mail, Book.squMinuteBack_mail]
      rfl
    · rw [Book.reply_squ, Book.post_squ, Book.squMinuteBack_squ]
      rfl
  · have next := hq.nextOfCtu rfl ht
    refine ⟨_, runs_onCtu (i := .trimClock) (f := Ctu.trimClock) rfl, fun hbad => ?_, fun h0 hlow hhigh hc => ?_,
      fun h0 hlow hhigh c hc hout => ?_⟩
    · rw [Ctu.trimClock_refused next (Ctu.trimCheck_bad hbad)]
      exact ⟨rfl, replied_withRequests ..⟩
    · rw [Ctu.trimClock_refused next (Ctu.trimCheck_unset (by omega) hc)]
      exact ⟨rfl, replied_withRequests ..⟩
    · rw [Ctu.trimClock_refused next (Ctu.trimCheck_outside (by omega) hc hout)]
      exact ⟨rfl, replied_withRequests ..⟩

/-- Settles O18: the `k` minutes by induction (`Clock.passing`, `dueOver`). -/
theorem forwardTrimPassesEveryMinute : Obligations.ForwardTrimPassesEveryMinute := by
  refine ⟨fun s x c k rest hq ht hc h1 h30 hm => ?_, fun s x c n ht hc hl => ?_⟩
  · have passes : s.ctu.trimCheck (k : Int) = .ok c := Ctu.trimCheck_passes.mpr ⟨by omega, hc, by omega, by omega⟩
    have forward := Ctu.trimClock_forward (hq.nextOfCtu rfl ht) passes (by omega)
    rw [Int.toNat_natCast] at forward
    refine ⟨_, c.passing k, runs_of_onCtu (i := .trimClock) rfl forward, rfl, c.passing_minute k, c.passing_reach k h1,
      c.passing_date k, c.passing_weekday k, rfl, ?_, rfl, rfl, rfl, fun b => Clock.passing_lastBoundary_passed,
      Clock.passing_lastBoundary_kept⟩
    rw [Book.deliver_squEvents, List.map_eq_flatMap]
    rfl
  · exact ⟨_, runs_of_onCtu (i := .trimComplete) rfl (Ctu.trimComplete_taken ht hc hl), rfl, rfl⟩

/-- Settles O19: READ_CLOCK only reads, and is held behind a forward trim. -/
theorem readClockAnswersInBothStates : Obligations.ReadClockAnswersInBothStates := by
  refine ⟨fun s x rest hq ht => ?_, fun s ht => ?_⟩
  · obtain ⟨hreads, hreplied⟩ := OnlyReads.of_reply s _ rest x (Answer.ok s.ctu.reading) rfl
    refine ⟨_, runs_of_onCtu (i := .readClock) rfl (Ctu.readClock_answers (hq.nextOfCtu rfl ht)), hreads,
      fun hc => ?_, fun c hc => ?_⟩
    · rwa [← Ctu.reading_unset hc]
    · rwa [← Clock.slot, ← Ctu.reading_running hc]
  · exact runs_of_onCtu (i := .readClock) rfl (Ctu.readClock_held ht)

/-- R191: where the completion mark is COMPLETE the committed set counts, else the blank one. -/
theorem Cfs.loadSet_complete {c : Cfs} (h : c.complete = true) : c.loadSet = c.committed := if_pos h

theorem Cfs.loadSet_incomplete {c : Cfs} (h : c.complete = false) : c.loadSet = ConfigSet.blank := by
  simp [loadSet, h]

/-- Settles O12: the reset values stand in `State.load`; the tables are those of the set that counts. -/
theorem powerOnResetLeavesTheResetValues : Obligations.PowerOnResetLeavesTheResetValues := by
  intro s
  refine ⟨s.resetBy .powerOn, rfl, rfl, rfl, rfl, rfl, rfl, rfl, rfl, rfl, rfl, rfl, rfl, rfl, rfl, rfl, rfl, rfl, rfl,
    rfl, rfl, rfl, rfl, rfl, rfl, fun hc => ?_, fun hc => ?_⟩
  · have hset : s.book.cfs.loadSet = s.book.cfs.committed := Cfs.loadSet_complete hc
    simp only [State.resetBy, State.load, hset]
    exact ⟨rfl, rfl, rfl⟩
  · have hset : s.book.cfs.loadSet = ConfigSet.blank := Cfs.loadSet_incomplete hc
    simp only [State.resetBy, State.load, hset]
    exact ⟨rfl, rfl, rfl, rfl⟩

end Sys2Proof.Machine

/-! SUPPORT. Sorting by rank (`sortBy`), said once: it permutes, it sorts, and it keeps the order of equal ranks. -/

namespace Sys2Proof.Machine

section

variable {α : Type}

theorem insertBy_perm (rank : α → Nat) (a : α) (l : List α) : (insertBy rank a l).Perm (a :: l) := by
  induction l with
  | nil => exact .refl _
  | cons x l ih =>
    unfold insertBy
    split
    · exact .refl _
    · exact (ih.cons x).trans (.swap a x l)

theorem foldl_insertBy_perm (rank : α → Nat) (l acc : List α) :
    (l.foldl (fun acc a => insertBy rank a acc) acc).Perm (acc ++ l) := by
  induction l generalizing acc with
  | nil => simp
  | cons a l ih =>
    refine (ih (insertBy rank a acc)).trans (((insertBy_perm rank a acc).append_right l).trans ?_)
    exact List.perm_middle.symm

theorem sortBy_perm (rank : α → Nat) (l : List α) : (sortBy rank l).Perm l := foldl_insertBy_perm rank l []

@[simp] theorem mem_sortBy (rank : α → Nat) (l : List α) (x : α) : x ∈ sortBy rank l ↔ x ∈ l :=
  (sortBy_perm rank l).mem_iff

@[simp] theorem sortBy_length (rank : α → Nat) (l : List α) : (sortBy rank l).length = l.length :=
  (sortBy_perm rank l).length_eq

/-- Rising rank, and `S` between those of one rank. -/
def RankedBy (rank : α → Nat) (S : α → α → Prop) (x y : α) : Prop :=
  rank x < rank y ∨ rank x = rank y ∧ S x y

theorem RankedBy.le {rank : α → Nat} {S : α → α → Prop} {x y : α} (h : RankedBy rank S x y) : rank x ≤ rank y :=
  h.elim Nat.le_of_lt fun e => Nat.le_of_eq e.1

theorem insertBy_ranked {rank : α → Nat} {S : α → α → Prop} {a : α} {l : List α} (hl : l.Pairwise (RankedBy rank S))
    (ha : ∀ x ∈ l, S x a) : (insertBy rank a l).Pairwise (RankedBy rank S) := by
  induction hl with
  | nil => exact List.pairwise_singleton _ _
  | @cons x l hx hl ih =>
    unfold insertBy
    split
    · next hlt =>
      refine .cons (fun y hy => .inl ?_) (.cons hx hl)
      rcases List.mem_cons.mp hy with rfl | hy
      · exact hlt
      · exact hlt.trans_le (hx y hy).le
    · next hge =>
      refine .cons (fun y hy => ?_) (ih fun y hy => ha y (List.mem_cons_of_mem x hy))
      rcases (mem_insertBy rank a y l).mp hy with rfl | hy
      · exact (Nat.le_of_not_lt hge).lt_or_eq.imp id fun e => ⟨e, ha x List.mem_cons_self⟩
      · exact hx y hy

/-- Of those of one rank the sort keeps the order in which they stood. -/
theorem sortBy_ranked {rank : α → Nat} {S : α → α → Prop} {l : List α} (hl : l.Pairwise S) :
    (sortBy rank l).Pairwise (RankedBy rank S) := by
  suffices h : ∀ acc : List α, acc.Pairwise (RankedBy rank S) → (∀ x ∈ acc, ∀ y ∈ l, S x y) →
      (l.foldl (fun acc a => insertBy rank a acc) acc).Pairwise (RankedBy rank S) from
    h [] .nil fun _ hx => nomatch hx
  induction hl with
  | nil => exact fun acc hacc _ => hacc
  | @cons a l ha _ ih =>
    intro acc hacc hS
    refine ih _ (insertBy_ranked hacc fun x hx => hS x hx a List.mem_cons_self) fun x hx y hy => ?_
    rcases (mem_insertBy rank a x acc).mp hx with rfl | hx
    · exact ha y hy
    · exact hS x hx y (List.mem_cons_of_mem a hy)

theorem sortBy_rising (rank : α → Nat) (l : List α) : (sortBy rank l).Pairwise fun x y => rank x ≤ rank y :=
  (sortBy_ranked (S := fun _ _ => True) (List.pairwise_of_forall fun _ _ => trivial)).imp RankedBy.le

end

end Sys2Proof.Machine

/-! SUPPORT. The reads of the book over a store without errors (R28, R29, R56, R71): what each answers, and that it
leaves the book as it is. -/

namespace Sys2Proof.Machine

/-- A request of an owner that answers it from what is there only reads. -/
theorem Asks.runs_read {i : Instr} {s : State} {c : Ctx} {q : Request} {rest : List Handed} {a : Answer}
    {f : Request → Ctx → Book → Option Book} (h : Asks s c q rest)
    (hi : exec i s = .next { s with book := s.book.serve q.owner f })
    (hf : f q c (s.book.withRequests rest) = some ((s.book.withRequests rest).reply c a)) :
    ∃ t, Runs i s t ∧ OnlyReads s t rest ∧ Replied s t c a := by
  rw [h.serve hf] at hi
  exact ⟨_, hi, OnlyReads.of_reply s _ rest c a rfl⟩

/-- A claim that ends on the book as it was is answered at once. -/
theorem Book.answer_unchanged {b : Book} {c : Ctx} {a : Answer} {op : Book → Book × Answer} (h : op b = (b, a)) :
    b.answer c op = b.reply c a := by
  simp only [Book.answer, h]

theorem Book.tryHorizon_open {b : Book} (h : b.bke.horizon ≠ none) : b.tryHorizon = .ok () := by
  cases hh : b.bke.horizon with
  | none => exact absurd hh h
  | some x => simp [Book.tryHorizon, hh, refuseIf, firstFail]

theorem refuseIf_one (b : Book) (c : Bool) (a : Answer) :
    refuseIf b [(c, a)] = if c = true then .error (b, a) else .ok () := by
  cases c <;> rfl

/-- R168: over a sound store the SOUND records that pass are read without loss. -/
theorem Book.tryRecords_listed {b : Book} (hs : StoreSound b) (hw : b.bke.records.wf = true) {l : List (Nat × Record)}
    (hl : ∀ p ∈ l, p ∈ b.sound) : b.tryRecords (l.map (·.1)) = .ok b := by
  refine Book.tryRecords_sound hs _ fun n hn => ?_
  obtain ⟨p, hp, rfl⟩ := List.mem_map.mp hn
  simp [Book.soundAt, (mem_sound hw p.1 p.2).mp (hl p hp)]

/-! ## READ_BOOKING -/

theorem readBooking_live {b : Book} {n : Nat} {r : Record} (hs : StoreSound b) (hh : b.bke.horizon ≠ none)
    (hid : r.id ≠ 0) (h : HoldsLive b n r) :
    (Book.readBooking r.id b).ends = (b, Answer.ok (.booking r (b.code r.room))) := by
  simp [Book.readBooking, Book.tryHorizon_open hh, refuseIf_one, hid, h.fetch hs, Attempt.ends, bind, Except.bind,
    pure, Except.pure]

/-- R56: a draft record is found in the read edition DRAFT alone. -/
theorem readBooking_draft {b : Book} {n : Nat} {r : Record} (hs : StoreSound b) (hh : b.bke.horizon ≠ none)
    (hid : r.id ≠ 0) (hn : b.slotOf r.id = some n) (hr : b.slot n = some (.sound r)) (he : r.edition = .draft) :
    (Book.readBooking r.id b).ends =
      (b, if b.bke.readEdition = .draft then Answer.ok (.booking r (b.code r.room)) else Answer.of .notFound) := by
  have hf : b.fetch r.id = (b, .draft n r) := by
    rw [Book.fetch_sound hs, hn]
    simp [Book.foundAt, hr, he, Found.named]
  cases hb : b.bke.readEdition <;>
    simp [Book.readBooking, Book.tryHorizon_open hh, refuseIf_one, hid, hf, hb, Attempt.ends, bind, Except.bind,
    pure, Except.pure]

/-! ## READ_ROW -/

theorem spanCell_ne_buffer (q : Record) (x : Nat) : (q.spanCell x == Cell.buffer) = false := by
  unfold Record.spanCell
  split
  · rfl
  · split
    · rfl
    · split <;> rfl

/-- R28: the span of a record is one entry of the cover list, and its RESERVED buffer another. -/
theorem coverEntries_eq (q : Record) (room lo : Nat) :
    coverEntries q room lo =
      (if q.state.active = true ∧ lo < q.start + q.count then
        [{ id := q.id, start := q.start, count := q.count, buffer := false }] else []) ++
      (if q.bufState = .reserved ∧ lo < q.start + q.count + q.bufSlots then
        [{ id := q.id, start := q.start + q.count, count := q.bufSlots, buffer := true }] else []) := by
  unfold coverEntries Record.patches Record.spanPatch Record.bufferPatch
  rw [List.filterMap_append]
  congr 1
  · by_cases h1 : q.state.active = true <;> by_cases h2 : lo < q.start + q.count <;> simp [h1, h2, spanCell_ne_buffer]
  · by_cases h1 : q.bufState = .reserved <;> by_cases h2 : lo < q.start + q.count + q.bufSlots <;> simp [h1, h2]

theorem mem_coverEntries (q : Record) (room lo : Nat) (e : Cover) :
    e ∈ coverEntries q room lo ↔
      e.id = q.id ∧ lo < e.start + e.count ∧
        (e.buffer = false ∧ q.state.active = true ∧ e.start = q.start ∧ e.count = q.count ∨
          e.buffer = true ∧ q.bufState = .reserved ∧ e.start = q.start + q.count ∧ e.count = q.bufSlots) := by
  obtain ⟨id, start, count, buffer⟩ := e
  rw [coverEntries_eq, List.mem_append, List.mem_ite_nil_right, List.mem_ite_nil_right]
  simp only [List.mem_singleton, Cover.mk.injEq]
  constructor
  · rintro (⟨⟨ha, hl⟩, rfl, rfl, rfl, rfl⟩ | ⟨⟨hb, hl⟩, rfl, rfl, rfl, rfl⟩)
    · exact ⟨rfl, hl, .inl ⟨rfl, ha, rfl, rfl⟩⟩
    · exact ⟨rfl, hl, .inr ⟨rfl, hb, rfl, rfl⟩⟩
  · rintro ⟨rfl, hl, ⟨rfl, ha, rfl, rfl⟩ | ⟨rfl, hb, rfl, rfl⟩⟩
    · exact .inl ⟨⟨ha, hl⟩, rfl, rfl, rfl, rfl⟩
    · exact .inr ⟨⟨hb, hl⟩, rfl, rfl, rfl, rfl⟩

theorem coverEntries_nodup (q : Record) (room lo : Nat) : (coverEntries q room lo).Nodup := by
  rw [coverEntries_eq]
  split <;> split <;> simp

/-- R28: the records whose covers a row lists. -/
theorem mem_writersOf {b : Book} (hw : b.bke.records.wf = true) (ed : Edition) (d : Date) (room m : Nat) (q : Record) :
    (m, q) ∈ b.writersOf ed d room ↔
      b.slot m = some (.sound q) ∧ inView ed q = true ∧ q.date = d ∧ room ∈ rowFamily b.bke.rooms q.room := by
  simp [Book.writersOf, mem_sound hw, and_assoc]

/-- Of a table by distinct ids, what is listed of two records in two slots differs. -/
theorem sound_ids {b : Book} (hw : b.bke.records.wf = true) (hd : DistinctIds b) :
    b.sound.Pairwise fun x y => x.2.id ≠ y.2.id := by
  refine (sound_rising hw).imp_of_mem fun {x y} hx hy hlt he => ?_
  exact absurd (hd _ _ _ _ ((mem_sound hw _ _).mp hx) ((mem_sound hw _ _).mp hy) he) (Nat.ne_of_lt hlt)

theorem coverList_nodup {b : Book} (hw : b.bke.records.wf = true) (hd : DistinctIds b) (ed : Edition) (d : Date)
    (room lo : Nat) : (b.coverList ed d room lo).Nodup := by
  refine (sortBy_perm _ _).nodup_iff.mpr (List.nodup_flatMap.mpr ⟨fun p _ => coverEntries_nodup p.2 room lo, ?_⟩)
  refine ((sound_ids hw hd).filter _).imp fun {x y} hne e hx hy => ?_
  exact hne (((mem_coverEntries x.2 room lo e).mp hx).1.symm.trans ((mem_coverEntries y.2 room lo e).mp hy).1)

/-- R28: the cover list of a reply is that of the row. -/
theorem coverList_listed {b : Book} (hw : b.bke.records.wf = true) (ed : Edition) (d : Date) (room lo : Nat) :
    CoversListed b ed room d lo ((b.coverList ed d room lo).take 12)
      (decide (12 < (b.coverList ed d room lo).length)) := by
  refine ⟨_, rfl, rfl, sortBy_rising _ _, fun e => ?_, fun hd => coverList_nodup hw hd ed d room lo⟩
  unfold Book.coverList CoverEntry
  rw [mem_sortBy, List.mem_flatMap]
  constructor
  · rintro ⟨⟨m, q⟩, hq, he⟩
    obtain ⟨h1, h2, h3, h4⟩ := (mem_writersOf hw ed d room m q).mp hq
    exact ⟨m, q, h1, h2, h3, h4, (mem_coverEntries q room lo e).mp he⟩
  · rintro ⟨m, q, h1, h2, h3, h4, he⟩
    exact ⟨(m, q), (mem_writersOf hw ed d room m q).mpr ⟨h1, h2, h3, h4⟩, (mem_coverEntries q room lo e).mpr he⟩

/-- R28 step 5: the DAMAGED records counted against a row, in id order. -/
def damagedInRow (b : Book) (room : Nat) (d : Date) : List Damaged :=
  sortBy (fun x : Damaged => x.id.getD 0)
    ((b.damagedRecords.map (·.2)).filter fun x => x.place == some (room, d))

/-- R32: the DAMAGED records of a canonical table, with their slots. -/
theorem mem_damaged {b : Book} (h : b.bke.records.wf = true) (m : Nat) (y : Damaged) :
    (m, y) ∈ b.damagedRecords ↔ b.slot m = some (.damaged y) := by
  unfold Book.damagedRecords Book.slot
  rw [← Table.mem_entries h, List.mem_filterMap]
  constructor
  · rintro ⟨⟨k, x⟩, hm, hx⟩
    cases x <;> simp_all
  · intro hm
    exact ⟨_, hm, rfl⟩

theorem mem_damagedInRow {b : Book} (h : b.bke.records.wf = true) (room : Nat) (d : Date) (y : Damaged) :
    y ∈ damagedInRow b room d ↔ y.place = some (room, d) ∧ ∃ m, b.slot m = some (.damaged y) := by
  simp [damagedInRow, mem_damaged h, and_comm]

theorem damagedInRow_length (b : Book) (room : Nat) (d : Date) :
    (damagedInRow b room d).length = b.damagedRecords.countP fun p => p.2.place == some (room, d) := by
  simp [damagedInRow, ← List.countP_eq_length_filter, List.countP_map, Function.comp_def]

/-- R28, R88: what READ_ROW answers for a row that stands. -/
def Book.rowAnswer (b : Book) (ed : Edition) (rm : Room) (r : Row) (lo : Nat) : Answer :=
  match b.draftView ed r.room r.date with
  | some z => if z.damaged then draftDamaged else b.rowReply ed rm r (some z) lo
  | none => (b.rowRefusal r).getD (b.rowReply ed rm r none lo)

section

variable {b : Book} {ed : Edition} {rm : Room} {r : Row} {k lo : Nat}

theorem rowAnswer_live (h : b.draftView ed r.room r.date = none) :
    b.rowAnswer ed rm r lo = (b.rowRefusal r).getD (b.rowReply ed rm r none lo) := by
  simp only [Book.rowAnswer, h]

theorem rowAnswer_draft {z : DraftRow} (h : b.draftView ed r.room r.date = some z) :
    b.rowAnswer ed rm r lo = if z.damaged then draftDamaged else b.rowReply ed rm r (some z) lo := by
  simp only [Book.rowAnswer, h]

theorem rowReply_eq (h : b.offset r.date = some k) (x : Option DraftRow) :
    b.rowReply ed rm r x lo =
      Answer.ok
        (.row r.room rm r.date k ed r.state r.version (x.map (·.base)) ((x.map (·.cells)).getD r.cells)
          ((b.coverList ed r.date r.room lo).take 12) (decide (12 < (b.coverList ed r.date r.room lo).length))) := by
  simp only [Book.rowReply, h, Option.getD_some]

theorem rowRefusal_good (h : r.state = .good) : b.rowRefusal r = none := by
  simp only [Book.rowRefusal, h]

theorem rowRefusal_rebuilding (h : r.state = .rebuilding) :
    b.rowRefusal r = some { status := .busy, detail := .rebuilding, data := .room r.room (b.code r.room) } := by
  simp only [Book.rowRefusal, h, Book.refuseRoom]

theorem rowRefusal_quarantined (h : r.state = .quarantined) :
    b.rowRefusal r =
      some
        { status := .damaged, detail := .quarantined
          data := .damagedIds (((damagedInRow b r.room r.date).filterMap (·.id)).take 8)
            (damagedInRow b r.room r.date).length } := by
  simp [Book.rowRefusal, h, Book.damagedHere, damagedInRow, List.filterMap_map]

end

theorem Book.tryCovers_sound {b : Book} (hs : StoreSound b) (hw : b.bke.records.wf = true) (ed : Edition) (d : Date)
    (room : Nat) : b.tryCovers ed d room = .ok b :=
  Book.tryRecords_listed hs hw fun _ hp => List.mem_of_mem_filter hp

/-- R28: READ_ROW over a sound store. -/
theorem readRow_ends {b : Book} {room k : Nat} {d : Date} {first : Option Nat} {rm : Room} {r : Row} (hs : StoreSound b)
    (hh : b.bke.horizon ≠ none) (ho : b.offset d = some k) (hx : room ≤ 383) (hlo : first.getD 0 ≤ 63)
    (hrm : b.room room = some rm) (hr : b.row room d = some r) (hroom : r.room = room) (hdate : r.date = d)
    (hw : b.bke.records.wf = true) :
    (Book.readRow room d first b).ends = (b, b.rowAnswer b.bke.readEdition rm r (first.getD 0)) := by
  subst hroom hdate
  unfold Book.readRow Book.rowAnswer
  simp only [Book.tryHorizon_open hh, ho, hrm, Book.readView_sound hs, hr, Book.tryReadLive_sound hs,
    Book.tryCovers_sound hs hw]
  cases b.draftView b.bke.readEdition r.room r.date with
  | some z =>
    cases hz : z.damaged <;>
      simp [refuseIf_one, Nat.not_lt.mpr hx, Nat.not_lt.mpr hlo, hz, Book.tryCovers_sound hs hw, Attempt.ends, bind,
        Except.bind, pure, Except.pure]
  | none =>
    cases b.rowRefusal r <;>
      simp [refuseIf_one, refuseWith, Nat.not_lt.mpr hx, Nat.not_lt.mpr hlo, Attempt.ends, bind, Except.bind,
        pure, Except.pure]

/-! ## FIND_FREE -/

/-- R29: how the search names a room that it lists. -/
def foundRoom (p : Nat × Room) : FoundRoom :=
  { room := p.1, code := p.2.code, kind := p.2.kind, building := p.2.building, floor := p.2.floor, seats := p.2.seats }

/-- R29: the outcome of the test of a room that is examined. -/
def findTest (b : Book) (f : FindFields) (p : Nat × Room) : Option Answer :=
  b.conflict b.bke.readEdition p.1 f.date f.start f.count
    (clipBuffer (f.start + f.count) (b.squ.bufferOf p.2)) none

/-- R29: the room is listed. -/
def findPasses (b : Book) (f : FindFields) (p : Nat × Room) : Bool := findWants f p.2 && (findTest b f p).isNone

/-- R29: the room is skipped and counted. -/
def findSkips (b : Book) (f : FindFields) (p : Nat × Room) : Bool :=
  findWants f p.2 && (findTest b f p).any fun a => a.status != .conflict

theorem findSkips_of_passes {b : Book} {f : FindFields} {p : Nat × Room} (h : findPasses b f p = true) :
    findSkips b f p = false := by
  simp only [findPasses, Bool.and_eq_true, Option.isNone_iff_eq_none] at h
  simp [findSkips, h.2]

section

variable {b : Book} (hs : StoreSound b) (f : FindFields)
include hs

/-- R29: what examining one room adds to the search. -/
theorem Search.examine_eq (x : Search) (hx : x.book = b) (p : Nat × Room) :
    Search.examine f x p.1 p.2 =
      { book := b
        found := x.found ++ if findPasses b f p then [foundRoom p] else []
        skipped := x.skipped + if findSkips b f p then 1 else 0
        last := some p.1 } := by
  subst hx
  unfold Search.examine findPasses findSkips findTest
  cases hwants : findWants f p.2 with
  | false => simp
  | true =>
    simp only [Book.readFamily_sound hs, Bool.not_true, Bool.false_eq_true, if_false, Bool.true_and]
    cases x.book.conflict x.book.bke.readEdition p.1 f.date f.start f.count
      (clipBuffer (f.start + f.count) (x.book.squ.bufferOf p.2)) none with
    | none => simp [foundRoom]
    | some a => by_cases ha : a.status = .conflict <;> simp [ha]

/-- R29: the search when every room of the list has been examined. -/
theorem Search.foldl_examine (l : List (Nat × Room)) (x : Search) (hx : x.book = b) :
    ∃ last, l.foldl (fun x p => Search.examine f x p.1 p.2) x =
      { book := b
        found := x.found ++ (l.filter (findPasses b f)).map foundRoom
        skipped := x.skipped + l.countP (findSkips b f)
        last := last } := by
  induction l generalizing x with
  | nil => exact ⟨x.last, by subst hx; simp⟩
  | cons p l ih =>
    obtain ⟨last, h⟩ := ih (Search.examine f x p.1 p.2) (by rw [Search.examine_eq hs f x hx p])
    refine ⟨last, ?_⟩
    rw [List.foldl_cons, h, Search.examine_eq hs f x hx p]
    cases hp : findPasses b f p <;> cases hk : findSkips b f p <;> simp [hp, hk, Nat.add_assoc, Nat.add_comm]

/-- R29: the search goes on while fewer than 8 rooms are listed. -/
theorem Search.over_append (l l' : List (Nat × Room)) (x : Search) (hx : x.book = b)
    (hl : x.found.length + (l.filter (findPasses b f)).length ≤ 7) :
    Search.over f (l ++ l') x = Search.over f l' (l.foldl (fun x p => Search.examine f x p.1 p.2) x) := by
  induction l generalizing x with
  | nil => rfl
  | cons p l ih =>
    have hlt : ¬8 ≤ x.found.length := by omega
    rw [List.cons_append, Search.over, if_neg hlt, List.foldl_cons]
    have he := Search.examine_eq hs f x hx p
    refine ih _ (by rw [he]) ?_
    rw [he]
    cases hp : findPasses b f p <;> simp [hp] at hl ⊢ <;> omega

end

/-- R29: the search stops when 8 rooms are listed. -/
theorem Search.over_full (f : FindFields) (l : List (Nat × Room)) (x : Search) (h : 8 ≤ x.found.length) :
    Search.over f l x = x := by
  cases l with
  | nil => rfl
  | cons p l => simp [Search.over, h]

/-- The search before any room is examined. -/
def Search.start (b : Book) : Search := { book := b, found := [], skipped := 0, last := none }

section

variable {b : Book} (hs : StoreSound b) {f : FindFields}
include hs

/-- R29: a search that lists fewer than 8 rooms examines them all. -/
theorem Search.over_short {l : List (Nat × Room)} (hl : (l.filter (findPasses b f)).length < 8) :
    let x := Search.over f l (Search.start b)
    x.book = b ∧ x.found = (l.filter (findPasses b f)).map foundRoom ∧ x.skipped = l.countP (findSkips b f) ∧
      x.next = none := by
  have h := Search.over_append hs f l [] (Search.start b) rfl (by simp [Search.start]; omega)
  obtain ⟨last, hl'⟩ := Search.foldl_examine hs f l (Search.start b) rfl
  rw [List.append_nil, Search.over, hl'] at h
  rw [h]
  refine ⟨rfl, by simp [Search.start], by simp [Search.start], ?_⟩
  simp [Search.next, Search.start, hl]

/-- R29: a search ends with the eighth room that it lists. -/
theorem Search.over_eight {l l' : List (Nat × Room)} {p : Nat × Room} (hp : findPasses b f p = true)
    (hl : (l.filter (findPasses b f)).length = 7) :
    let x := Search.over f (l ++ p :: l') (Search.start b)
    x.book = b ∧ x.found = (l.filter (findPasses b f) ++ [p]).map foundRoom ∧ x.skipped = l.countP (findSkips b f) ∧
      x.next = if b.bke.rooms.keys.any (fun k => decide (p.1 < k)) then some (p.1 + 1) else none := by
  have h := Search.over_append hs f l (p :: l') (Search.start b) rfl (by simp [Search.start, hl])
  obtain ⟨last, hl'⟩ := Search.foldl_examine hs f l (Search.start b) rfl
  have seven : ((Search.start b).found ++ (l.filter (findPasses b f)).map foundRoom).length = 7 := by
    simp [Search.start, hl]
  rw [hl', Search.over, if_neg (by rw [seven]; decide), Search.examine_eq hs f _ rfl p] at h
  rw [h, Search.over_full]
  · refine ⟨rfl, by simp [Search.start, hp], by simp [Search.start, findSkips_of_passes hp], ?_⟩
    simp [Search.next, Search.start, hp, hl]
  · simp only [hp, if_true, List.length_append, seven]
    exact Nat.le_refl 8

end

/-- R29: FIND_FREE whose fields pass. -/
theorem findFree_ends {t : Ctu} {b : Book} {f : FindFields} (hspan : SpanPasses t b f.date f.start f.count)
    (h1 : 1 ≤ f.minSeats) (h500 : f.minSeats ≤ 500)
    (hb : f.building.all (fun x => decide (x ≤ 15)) = true) (hfirst : f.first.getD 0 ≤ 383) :
    (Book.findFree t f b).ends =
      (let x := Search.over f (b.bke.rooms.entries.filter fun p => decide (f.first.getD 0 ≤ p.1)) (Search.start b)
       (x.book, Answer.ok (.found x.found x.skipped x.next))) := by
  have bad : (decide (f.minSeats < 1) || decide (500 < f.minSeats) || f.building.any (fun x => decide (15 < x)) ||
      decide (383 < f.first.getD 0)) = false := by
    cases hf : f.building <;> simp [hf] at hb ⊢ <;> omega
  unfold Book.findFree
  simp only [bad, hspan.check]
  rfl

/-- Where in a list the element stands that a filter gives at a place. -/
theorem filter_getElem?_split {α : Type} {p : α → Bool} {l : List α} {n : Nat} {a : α} (h : (l.filter p)[n]? = some a) :
    ∃ l₁ l₂, l = l₁ ++ a :: l₂ ∧ p a = true ∧ (l₁.filter p).length = n ∧
      l.filter p = l₁.filter p ++ a :: l₂.filter p := by
  induction l generalizing n with
  | nil => simp at h
  | cons x l ih =>
    cases hx : p x with
    | false =>
      rw [List.filter_cons_of_neg (by simp [hx])] at h
      obtain ⟨l₁, l₂, rfl, ha, hn, he⟩ := ih h
      exact ⟨x :: l₁, l₂, rfl, ha, by simpa [hx] using hn, by simp [hx, ha]⟩
    | true =>
      rw [List.filter_cons_of_pos hx] at h
      cases n with
      | zero =>
        cases h
        exact ⟨[], l, rfl, hx, rfl, by simp [hx]⟩
      | succ n =>
        obtain ⟨l₁, l₂, rfl, ha, hn, he⟩ := ih h
        exact ⟨x :: l₁, l₂, rfl, ha, by simpa [hx] using hn, by simp [hx, ha]⟩

/-- In a list by rising number those that pass before an element are those with a lower number. -/
theorem countP_before {α : Type} {l₁ l₂ : List (Nat × α)} {a : Nat × α} (p : Nat × α → Bool)
    (h : (l₁ ++ a :: l₂).Pairwise fun x y => x.1 < y.1) :
    (l₁ ++ a :: l₂).countP (fun q => decide (q.1 < a.1) && p q) = l₁.countP p := by
  obtain ⟨-, h2, h3⟩ := List.pairwise_append.mp h
  have before : l₁.countP (fun q => decide (q.1 < a.1) && p q) = l₁.countP p :=
    List.countP_congr fun q hq => by simp [h3 q hq a List.mem_cons_self]
  have behind : (a :: l₂).countP (fun q => decide (q.1 < a.1) && p q) = 0 := by
    rw [List.countP_eq_zero]
    intro q hq
    rcases List.mem_cons.mp hq with rfl | hq
    · simp
    · simp [Nat.le_of_lt ((List.pairwise_cons.mp h2).1 q hq)]
  rw [List.countP_append, before, behind, Nat.add_zero]

/-- R29: what a search through rooms by rising index lists, skips and names as the next room. -/
theorem Search.over_lists {b : Book} (hs : StoreSound b) {f : FindFields} {l : List (Nat × Room)}
    (hl : l.Pairwise fun x y => x.1 < y.1) :
    let x := Search.over f l (Search.start b)
    x.book = b ∧ x.found = ((l.filter (findPasses b f)).take 8).map foundRoom ∧
      ((l.filter (findPasses b f)).length < 8 → x.skipped = l.countP (findSkips b f) ∧ x.next = none) ∧
      ∀ p, (l.filter (findPasses b f))[7]? = some p →
        x.skipped = l.countP (fun q => decide (q.1 < p.1) && findSkips b f q) ∧
          x.next = if b.bke.rooms.keys.any (fun k => decide (p.1 < k)) then some (p.1 + 1) else none := by
  cases h7 : (l.filter (findPasses b f))[7]? with
  | none =>
    have hlt : (l.filter (findPasses b f)).length < 8 := Nat.lt_succ_of_le (List.getElem?_eq_none_iff.mp h7)
    obtain ⟨hbook, hfound, hskipped, hnext⟩ := Search.over_short hs hlt
    refine ⟨hbook, ?_, fun _ => ⟨hskipped, hnext⟩, fun p hp => nomatch hp⟩
    rw [hfound, List.take_of_length_le (Nat.le_of_lt hlt)]
  | some p =>
    obtain ⟨l₁, l₂, rfl, hp, hlen, hfilter⟩ := filter_getElem?_split h7
    obtain ⟨hbook, hfound, hskipped, hnext⟩ := Search.over_eight hs (l' := l₂) hp hlen
    refine ⟨hbook, ?_, fun hlt => ?_, fun q hq => ?_⟩
    · rw [hfound, hfilter, List.take_append, hlen, List.take_of_length_le (by omega)]
      rfl
    · rw [hfilter, List.length_append, hlen, List.length_cons] at hlt
      omega
    · cases hq
      rw [countP_before _ hl]
      exact ⟨hskipped, hnext⟩

/-! ## READ_SERIES -/

theorem mem_instances {b : Book} (hw : b.bke.records.wf = true) (sid m : Nat) (r : Record) :
    (m, r) ∈ b.instances sid ↔ b.slot m = some (.sound r) ∧ r.edition = .live ∧ r.series = some sid := by
  simp [Book.instances, mem_sound hw]

theorem readSeries_ends {b : Book} {id : Nat} {x : Series} (hs : StoreSound b) (hh : b.bke.horizon ≠ none) (h1 : 1 ≤ id)
    (h127 : id ≤ 127) (hx : b.bke.series.find id = some x) (hw : b.bke.records.wf = true) :
    (Book.readSeriesAnswer id b).ends =
      (b, Answer.ok (.series x (b.code x.room) ((b.instanceList id).take 14))) := by
  have hread : b.tryInstances id = .ok b :=
    Book.tryRecords_listed hs hw fun p hp => List.mem_of_mem_filter ((mem_sortBy _ _ p).mp hp)
  have h0 : id ≠ 0 := by omega
  simp [Book.readSeriesAnswer, Book.tryHorizon_open hh, refuseIf_one, h0, Nat.not_lt.mpr h127, hx, hread,
    Attempt.ends, bind, Except.bind, pure, Except.pure]

/-- R71: the list goes by date, and by id on one date. -/
theorem instanceList_ordered (b : Book) (id : Nat) :
    (b.instanceList id).Pairwise fun x y =>
      (b.offset x.2.1).getD 14 < (b.offset y.2.1).getD 14 ∨
        (b.offset x.2.1).getD 14 = (b.offset y.2.1).getD 14 ∧ x.1 ≤ y.1 := by
  have byId : ((b.instances id).map (·.2)).Pairwise fun x y => x.id ≤ y.id := by
    rw [List.pairwise_map]
    exact sortBy_rising _ _
  unfold Book.instanceList
  rw [List.pairwise_map]
  exact sortBy_ranked byId

theorem mem_instanceList {b : Book} (hw : b.bke.records.wf = true) (id : Nat)
    (e : Nat × Date × Option Nat × Nat × Nat × BState) :
    e ∈ b.instanceList id ↔ ∃ m r, b.slot m = some (.sound r) ∧ r.edition = .live ∧ r.series = some id ∧
      e = (r.id, r.date, b.offset r.date, r.start, r.count, r.state) := by
  simp only [Book.instanceList, List.mem_map, mem_sortBy, Prod.exists, mem_instances hw]
  constructor
  · rintro ⟨_, ⟨m, r, ⟨h1, h2, h3⟩, rfl⟩, rfl⟩
    exact ⟨m, r, h1, h2, h3, rfl⟩
  · rintro ⟨m, r, h1, h2, h3, rfl⟩
    exact ⟨r, ⟨m, r, ⟨h1, h2, h3⟩, rfl⟩, rfl⟩

theorem instanceList_nodup {b : Book} (hw : b.bke.records.wf = true) (hd : DistinctIds b) (id : Nat) :
    (b.instanceList id).Nodup := by
  have ids : ((b.instanceList id).map (·.1)).Perm
      (((b.sound.filter fun p => p.2.edition == .live && p.2.series == some id).map fun p => p.2.id)) := by
    unfold Book.instanceList
    rw [List.map_map]
    refine ((sortBy_perm _ _).map _).trans ?_
    rw [List.map_map]
    exact (sortBy_perm _ _).map _
  refine List.Nodup.of_map _ (ids.nodup_iff.mpr ?_)
  rw [List.Nodup, List.pairwise_map]
  exact (sound_ids hw hd).filter _

/-! ## READ_RUN -/

theorem readRunAnswer_id {b : Book} {id : Nat} {x : Run} (h1 : 1 ≤ id) (h511 : id ≤ 511)
    (hx : b.squ.runs.find id = some x) :
    b.readRunAnswer (some id) none =
      Answer.ok (.run x (b.code x.room) (b.squ.horizon.bind fun h => h.offset x.date)) := by
  simp [Book.readRunAnswer, h1, h511, hx]

theorem readRunAnswer_booking {b : Book} {booking : Nat} (h1 : 1 ≤ booking) (h65535 : booking ≤ 65535) :
    b.readRunAnswer none (some booking) =
      match b.squ.runOf booking with
      | none => Answer.of .notFound
      | some x => Answer.ok (.run x (b.code x.room) (b.squ.horizon.bind fun h => h.offset x.date)) := by
  simp only [Book.readRunAnswer, if_pos (And.intro h1 h65535)]
  cases b.squ.runOf booking <;> rfl

theorem mem_runs {q : Squ} (hw : q.runs.wf = true) (x : Run) :
    x ∈ q.runs.values ↔ ∃ k, q.runs.find k = some x := by
  simp [Table.values, Table.mem_entries hw]

/-- R165: no run of the booking is found just where the table has none. -/
theorem runOf_none {q : Squ} (hw : q.runs.wf = true) {booking : Nat}
    (h : ∀ k x, q.runs.find k = some x → x.booking ≠ booking) : q.runOf booking = none := by
  refine List.find?_eq_none.mpr fun x hx => ?_
  obtain ⟨k, hk⟩ := (mem_runs hw x).mp hx
  simpa using h k x hk

/-- R165: of the runs of a booking the one with the lowest id is found (log 67). -/
theorem runOf_lowest {q : Squ} (hw : q.runs.wf = true) {booking k : Nat} {x : Run} (hx : q.runs.find k = some x)
    (hb : x.booking = booking) (hlow : ∀ j y, q.runs.find j = some y → y.booking = booking → k ≤ j) :
    q.runOf booking = some x := by
  have hmem : (k, x) ∈ q.runs.entries := (Table.mem_entries hw k x).mpr hx
  have hof : q.runOf booking = (q.runs.entries.find? fun p => p.2.booking == booking).map (·.2) := by
    rw [Squ.runOf, Table.values, List.find?_map]
    rfl
  rw [hof]
  cases hf : q.runs.entries.find? fun p => p.2.booking == booking with
  | none => exact absurd hb (by simpa using List.find?_eq_none.mp hf (k, x) hmem)
  | some p =>
    obtain ⟨j, y⟩ := p
    have hy := (Table.mem_entries hw j y).mp (List.mem_of_find?_eq_some hf)
    have hyb : y.booking = booking := by simpa using List.find?_some hf
    have hle : j ≤ k := find_lowest (risingFrom_pairwise hw) hf hmem (by simpa using hb)
    obtain rfl : j = k := Nat.le_antisymm hle (hlow j y hy hyb)
    rw [hx] at hy
    simpa using hy.symm

/-! ## READ_SCRUB -/

theorem patrolPlace_row {k : Nat} (h : k < 5376) : patrolPlace k = .row (k / 14) (k % 14) := if_pos h

theorem patrolPlace_slot {k : Nat} (h : 5376 ≤ k) : patrolPlace k = .slot (k - 5376) := if_neg (Nat.not_lt.mpr h)

end Sys2Proof.Machine

/-! PROOFS. The reads of the book, the runs and the store (R28, R29, R56, R71, R88, R165, R177). -/

namespace Sys2Proof.Machine

/-- Settles O34: each read by the answer that its operation gives over the book as it stands. -/
theorem bookReadsChangeNothing : Obligations.BookReadsChangeNothing := by
  refine ⟨fun s c n r rest hq hs hh hid hr => ?_, fun s c n r rest hq hs hh hid hn hr he => ?_,
    fun s c room k lo d first rm r rest hq hs hh ho hx hfirst hlo hrm hr hroom hdate hw => ?_,
    fun s c f rest hq hs hspan h1 h500 hb hfirst hwf => ?_, fun s c x id rest hq hs hh h1 h127 hx hw => ?_,
    fun s c id x rest hq h1 h511 hx => ?_, fun s c booking rest hq h1 h65535 => ?_, fun s c rest hq => ?_⟩
  · exact hq.runs_read (i := .readBooking) rfl
      (congrArg some (Book.answer_unchanged (readBooking_live (b := s.book.withRequests rest) hs hh hid hr)))
  · obtain ⟨t, hrun, honly, hrep⟩ := hq.runs_read (i := .readBooking) rfl
      (congrArg some (Book.answer_unchanged (readBooking_draft (b := s.book.withRequests rest) hs hh hid hn hr he)))
    refine ⟨t, hrun, honly, fun hed => ?_, fun hed => ?_⟩
    · rwa [if_pos (by exact hed)] at hrep
    · rwa [if_neg (by rw [Book.withRequests_bke, hed]; decide)] at hrep
  · subst hfirst
    obtain ⟨t, hrun, honly, hrep⟩ := hq.runs_read (i := .readRow)
      (a := s.book.rowAnswer s.book.bke.readEdition rm r (first.getD 0)) rfl
      (congrArg some (Book.answer_unchanged
        (readRow_ends (b := s.book.withRequests rest) hs hh ho hx hlo hrm hr hroom hdate hw)))
    subst hroom hdate
    have covers := coverList_listed (b := s.book) hw s.book.bke.readEdition r.date r.room (first.getD 0)
    refine ⟨t, hrun, honly, fun hv => ⟨fun hst => ?_, fun hst => ?_, fun hst => ?_⟩,
      fun z hz => ⟨fun hd => ?_, fun hd => ?_⟩⟩
    · rw [rowAnswer_live hv, rowRefusal_good hst, Option.getD_none, rowReply_eq ho, hst] at hrep
      exact ⟨_, _, hrep, covers⟩
    · rwa [rowAnswer_live hv, rowRefusal_rebuilding hst] at hrep
    · rw [rowAnswer_live hv, rowRefusal_quarantined hst] at hrep
      exact ⟨_, hrep, mem_damagedInRow hw r.room r.date, sortBy_rising _ _, damagedInRow_length s.book r.room r.date⟩
    · rwa [rowAnswer_draft hz, if_pos hd] at hrep
    · rw [rowAnswer_draft hz, if_neg (by simp [hd]), rowReply_eq ho] at hrep
      exact ⟨_, _, hrep, covers⟩
  · have rising := (risingFrom_pairwise hwf).filter fun p => decide (f.first.getD 0 ≤ p.1)
    obtain ⟨hbook, hfound, hshort, height⟩ := Search.over_lists (b := s.book.withRequests rest) (f := f) hs rising
    obtain ⟨t, hrun, honly, hrep⟩ := hq.runs_read (i := .findFree) rfl (congrArg some (Book.answer_unchanged
      ((findFree_ends (b := s.book.withRequests rest) hspan h1 h500 hb hfirst).trans (Prod.ext hbook rfl))))
    exact ⟨t, _, _, hrun, honly, hfound ▸ hrep, hshort, height⟩
  · obtain ⟨t, hrun, honly, hrep⟩ := hq.runs_read (i := .readSeries) rfl
      (congrArg some (Book.answer_unchanged (readSeries_ends (b := s.book.withRequests rest) hs hh h1 h127 hx hw)))
    exact ⟨t, s.book.instanceList id, hrun, honly, hrep, instanceList_ordered s.book id,
      fun hd => instanceList_nodup hw hd id, mem_instanceList hw id⟩
  · obtain ⟨t, hrun, honly, hrep⟩ := hq.runs_read (i := .readRun) (a := s.book.readRunAnswer (some id) none) rfl rfl
    exact ⟨t, hrun, honly, readRunAnswer_id (b := s.book) h1 h511 hx ▸ hrep⟩
  · obtain ⟨t, hrun, honly, hrep⟩ :=
      hq.runs_read (i := .readRun) (a := s.book.readRunAnswer none (some booking)) rfl rfl
    rw [readRunAnswer_booking h1 h65535] at hrep
    refine ⟨t, hrun, honly, fun hnone hw => ?_, fun k x hx hb hw hlow => ?_⟩
    · rwa [runOf_none hw hnone] at hrep
    · rwa [runOf_lowest hw hx hb hlow] at hrep
  · obtain ⟨t, hrun, honly, hrep⟩ := hq.runs_read (i := .readScrub) (a := s.book.scrubReply) rfl rfl
    refine ⟨t, _, _, hrun, honly, hrep, fun h => ?_, fun h => ?_⟩
    · rw [patrolPlace_row h]
      exact ⟨rfl, rfl⟩
    · rw [patrolPlace_slot h]
      exact ⟨rfl, rfl⟩

end Sys2Proof.Machine

/-! SUPPORT. The dates of a horizon and the keys of their rows (R6, R18), and tables from which keys are dropped. -/

namespace Sys2Proof

theorem Date.after_valid {d : Date} (h : d.valid = true) (k : Nat) : (d.after k).valid = true := by
  induction k generalizing d with
  | zero => exact h
  | succ k ih => exact ih (Date.next_valid h)

theorem monthLength_le (y m : Nat) : monthLength y m ≤ 31 := by
  unfold monthLength
  split <;> (try split) <;> omega

/-- The key of a valid date is less than one room's share of the keys, and tells its date. -/
theorem Date.key_lt {d : Date} (h : d.valid = true) : d.key < 65536 := by
  obtain ⟨hy, -, hm, -, hd⟩ := d.valid_iff.mp h
  have := monthLength_le d.year d.month
  unfold key
  omega

theorem Date.key_inj {d e : Date} (hd : d.valid = true) (he : e.valid = true) (h : d.key = e.key) : d = e := by
  obtain ⟨-, -, hdm, -, hdd⟩ := d.valid_iff.mp hd
  obtain ⟨-, -, hem, -, hed⟩ := e.valid_iff.mp he
  have := monthLength_le d.year d.month
  have := monthLength_le e.year e.month
  obtain ⟨dy, dm, dd⟩ := d
  obtain ⟨ey, em, ed⟩ := e
  simp only [key, Date.mk.injEq] at *
  omega

variable {α : Type}

theorem dropKey_eq_filter (k : Nat) (l : List (Nat × α)) : dropKey k l = l.filter fun p => p.1 != k := by
  induction l with
  | nil => rfl
  | cons p l ih =>
    obtain ⟨i, x⟩ := p
    by_cases h : i = k <;> simp [dropKey, h, ih]

/-- The table without the keys given. -/
def Table.dropAll (t : Table α) (l : List Nat) : Table α := l.foldl Table.drop t

theorem Table.find_dropAll (t : Table α) (l : List Nat) (k : Nat) :
    (t.dropAll l).find k = if k ∈ l then none else t.find k := by
  induction l generalizing t with
  | nil => rfl
  | cons j l ih =>
    have h := (ih (t.drop j)).trans (by rw [Table.find_drop])
    by_cases hk : k = j <;> simp_all [dropAll]

theorem Table.mem_dropAll (t : Table α) (l : List Nat) (p : Nat × α) :
    p ∈ (t.dropAll l).entries ↔ p ∈ t.entries ∧ p.1 ∉ l := by
  induction l generalizing t with
  | nil => simp [dropAll]
  | cons j l ih =>
    refine (ih (t.drop j)).trans ?_
    simp [drop, dropKey_eq_filter, and_assoc]

end Sys2Proof

namespace Sys2Proof.Machine

theorem rowKey_inj {x y : Nat} {d e : Date} (hd : d.valid = true) (he : e.valid = true) (h : rowKey x d = rowKey y e) :
    x = y ∧ d = e := by
  have hd' := Date.key_lt hd
  have he' := Date.key_lt he
  unfold rowKey at h
  exact ⟨by omega, Date.key_inj hd he (by omega)⟩

theorem daysFrom_dates (d : Date) (w : Weekday) (n : Nat) :
    (daysFrom d w n).map (·.1) = (List.range n).map d.after := by
  induction n generalizing d w with
  | zero => rfl
  | succ n ih =>
    rw [daysFrom, List.map_cons, ih, List.range_succ_eq_map, List.map_cons, List.map_map]
    rfl

/-- R6: the 14 dates of a horizon copy. -/
theorem Horizon.dates_eq (h : Horizon) : h.dates = (List.range 14).map h.today.after := daysFrom_dates ..

/-! ## New rows (R18, R31) -/

/-- The rows of the room-days given, created one after another. -/
def Book.createAll (b : Book) (l : List (Nat × Date)) : Book := l.foldl (fun b p => b.createRow p.1 p.2) b

/-- Nothing but rows has been written, with fresh codes. -/
structure RowsOnly (b b' : Book) : Prop where
  hmp : b'.hmp = b.hmp
  mail : b'.mail = b.mail
  bke : b'.bke = { b.bke with rows := b'.bke.rows }

section

variable {b b' : Book} (h : RowsOnly b b')
include h

theorem RowsOnly.horizon : b'.bke.horizon = b.bke.horizon := by rw [h.bke]

theorem RowsOnly.records : b'.bke.records = b.bke.records := by rw [h.bke]

theorem RowsOnly.rooms : b'.bke.rooms = b.bke.rooms := by rw [h.bke]

theorem RowsOnly.series : b'.bke.series = b.bke.series := by rw [h.bke]

theorem RowsOnly.draft : b'.bke.draft = b.bke.draft := by rw [h.bke]

end

theorem createAll_only (b : Book) (l : List (Nat × Date)) : RowsOnly b (b.createAll l) := by
  induction l generalizing b with
  | nil => exact ⟨rfl, rfl, rfl⟩
  | cons p l ih =>
    obtain ⟨hhmp, hmail, hbke⟩ := ih (b.createRow p.1 p.2)
    exact ⟨hhmp, hmail, hbke⟩

/-- The row that stands at a key is the last created there, or the one that stood. -/
theorem createAll_find (b : Book) (l : List (Nat × Date)) (k : Nat) :
    (b.createAll l).bke.rows.find k =
      ((l.reverse.find? fun p => rowKey p.1 p.2 == k).map fun p => Row.new p.1 p.2).or (b.bke.rows.find k) := by
  induction l generalizing b with
  | nil => rfl
  | cons p l ih =>
    refine (ih (b.createRow p.1 p.2)).trans ?_
    have hput : (b.createRow p.1 p.2).bke.rows.find k =
        if k = rowKey p.1 p.2 then some (Row.new p.1 p.2) else b.bke.rows.find k := Table.find_put ..
    rw [hput, List.reverse_cons, List.find?_append, List.find?_singleton]
    cases l.reverse.find? fun p => rowKey p.1 p.2 == k with
    | some q => rfl
    | none =>
      by_cases hk : rowKey p.1 p.2 = k
      · subst hk
        simp
      · simp [hk, Ne.symm hk]

/-- R18: each room-day has a new row, where no other of those given has its key. -/
theorem createAll_row {b : Book} {l : List (Nat × Date)} {x : Nat} {d : Date} (h : (x, d) ∈ l)
    (hkey : ∀ p ∈ l, rowKey p.1 p.2 = rowKey x d → p = (x, d)) : (b.createAll l).row x d = some (Row.new x d) := by
  refine (createAll_find b l (rowKey x d)).trans ?_
  cases hf : l.reverse.find? fun p => rowKey p.1 p.2 == rowKey x d with
  | none => simpa using List.find?_eq_none.mp hf (x, d) (List.mem_reverse.mpr h)
  | some p =>
    obtain rfl := hkey p (List.mem_reverse.mp (List.mem_of_find?_eq_some hf)) (by simpa using List.find?_some hf)
    rfl

/-- A row after the creation is a new one, or stood before. -/
theorem createAll_some {b : Book} {l : List (Nat × Date)} {k : Nat} {r : Row}
    (h : (b.createAll l).bke.rows.find k = some r) :
    (∃ p ∈ l, r = Row.new p.1 p.2) ∨ b.bke.rows.find k = some r := by
  rw [createAll_find] at h
  cases hf : l.reverse.find? fun p => rowKey p.1 p.2 == k with
  | none => exact .inr (by simpa [hf] using h)
  | some p => exact .inl ⟨p, List.mem_reverse.mp (List.mem_of_find?_eq_some hf), by simpa [hf] using h.symm⟩

/-- R18, R31: the BKE's copy of the horizon is replaced. -/
def Book.withHorizon (b : Book) (h : Horizon) : Book := b.withBke { b.bke with horizon := some h }

/-- R18: horizon open replaces the copy and creates rows alone. -/
theorem openHorizon_eq (b : Book) (h : Horizon) :
    b.openHorizon h =
      (b.withHorizon h).createAll (b.bke.rooms.keys.flatMap fun x => h.dates.map fun d => (x, d)) := by
  simp only [Book.openHorizon, Book.createAll, Book.createRows, List.foldl_flatMap, List.foldl_map]
  rfl

theorem openHorizon_only (b : Book) (h : Horizon) : RowsOnly (b.withHorizon h) (b.openHorizon h) :=
  openHorizon_eq b h ▸ createAll_only ..

/-- R18: the 14 rows of every room; the valid dates have keys of their own. -/
theorem openHorizon_row {b : Book} {h : Horizon} (hv : h.today.valid = true) {x k : Nat} (hx : x ∈ b.bke.rooms.keys)
    (hk : k < 14) : (b.openHorizon h).row x (h.today.after k) = some (Row.new x (h.today.after k)) := by
  rw [openHorizon_eq, Horizon.dates_eq]
  refine createAll_row ?_ fun p hp hkey => ?_
  · simp only [List.mem_flatMap, List.mem_map, List.mem_range]
    exact ⟨x, hx, _, ⟨k, hk, rfl⟩, rfl⟩
  · simp only [List.mem_flatMap, List.mem_map, List.mem_range] at hp
    obtain ⟨y, -, _, ⟨j, -, rfl⟩, rfl⟩ := hp
    obtain ⟨rfl, hd⟩ := rowKey_inj (Date.after_valid hv j) (Date.after_valid hv k) hkey
    exact Prod.ext rfl hd

theorem bkeHorizonOpen_eq {b : Book} {e : TimeEvent} {rest : List TimeEvent} {w : Weekday} {m : Nat} {slot : CurSlot}
    (h : b.mail.bkeEvents = e :: rest) (hk : e.kind = .horizonOpen w m slot) :
    b.bkeHorizonOpen = (b.popBke 1).openHorizon { today := e.date, weekday := w } := by
  simp [Book.bkeHorizonOpen, Book.bkeHead, h, hk]

/-! ## What day retire keeps -/

/-- R18: each row stands under the key of its room and date. -/
def RowsAtKeys (b : Book) : Prop := ∀ k r, b.bke.rows.find k = some r → k = rowKey r.room r.date

/-- What the reads and the removals of a day retire can do: no record comes to stand at a place, no series and no row
comes to stand, and no draft row changes its room-day. -/
structure Retiring (b b' : Book) : Prop where
  events : b'.mail.bkeEvents = b.mail.bkeEvents
  rooms : b'.bke.rooms = b.bke.rooms
  places : ∀ n x p, b'.slot n = some x → x.place = some p → ∃ y, b.slot n = some y ∧ y.place = some p
  series : ∀ k x, b'.bke.series.find k = some x → b.bke.series.find k = some x
  rows : RowsAtKeys b → ∀ k r', b'.bke.rows.find k = some r' →
    ∃ r, b.bke.rows.find k = some r ∧ r'.room = r.room ∧ r'.date = r.date
  drafts : ∀ p ∈ b'.bke.draft.rows.entries,
    ∃ z, (p.1, z) ∈ b.bke.draft.rows.entries ∧ p.2.room = z.room ∧ p.2.date = z.date

theorem Retiring.refl (b : Book) : Retiring b b :=
  ⟨rfl, rfl, fun _ x _ h hp => ⟨x, h, hp⟩, fun _ _ h => h, fun _ _ r h => ⟨r, h, rfl, rfl⟩,
    fun p h => ⟨p.2, h, rfl, rfl⟩⟩

theorem Retiring.rowsAtKeys {b b' : Book} (h : Retiring b b') (hb : RowsAtKeys b) : RowsAtKeys b' := by
  intro k r' hr'
  obtain ⟨r, hr, hroom, hdate⟩ := h.rows hb k r' hr'
  rw [hroom, hdate]
  exact hb k r hr

theorem Retiring.trans {a b c : Book} (h : Retiring a b) (k : Retiring b c) : Retiring a c where
  events := k.events.trans h.events
  rooms := k.rooms.trans h.rooms
  places n x p hx hp := by
    obtain ⟨y, hy, hyp⟩ := k.places n x p hx hp
    exact h.places n y p hy hyp
  series i x hx := h.series i x (k.series i x hx)
  rows ha i r hr := by
    obtain ⟨r₁, hr₁, hroom₁, hdate₁⟩ := k.rows (h.rowsAtKeys ha) i r hr
    obtain ⟨r₂, hr₂, hroom₂, hdate₂⟩ := h.rows ha i r₁ hr₁
    exact ⟨r₂, hr₂, hroom₁.trans hroom₂, hdate₁.trans hdate₂⟩
  drafts p hp := by
    obtain ⟨z₁, hz₁, hroom₁, hdate₁⟩ := k.drafts p hp
    obtain ⟨z₂, hz₂, hroom₂, hdate₂⟩ := h.drafts (p.1, z₁) hz₁
    exact ⟨z₂, hz₂, hroom₁.trans hroom₂, hdate₁.trans hdate₂⟩

theorem Retiring.foldl {α : Type} {f : Book → α → Book} (h : ∀ b a, Retiring b (f b a)) (l : List α) (b : Book) :
    Retiring b (l.foldl f b) := by
  induction l generalizing b with
  | nil => exact .refl b
  | cons a l ih => exact (h b a).trans (ih (f b a))

/-- A step that leaves the BKE and its events. -/
theorem Retiring.of_same {b b' : Book} (hm : b'.mail.bkeEvents = b.mail.bkeEvents) (hb : b'.bke = b.bke) :
    Retiring b b' := by
  have h := Retiring.refl b
  exact ⟨hm, by rw [hb], by unfold Book.slot; rw [hb]; exact h.places, by rw [hb]; exact h.series,
    by rw [hb]; exact h.rows, by rw [hb]; exact h.drafts⟩

theorem Retiring.ite {c : Prop} [Decidable c] {b x y : Book} (hx : Retiring b x) (hy : Retiring b y) :
    Retiring b (if c then x else y) := by
  split
  · exact hx
  · exact hy

theorem withBss_retiring (b : Book) (x : Bss) : Retiring b (b.withBss x) := .of_same rfl rfl

theorem postRowState_retiring (b : Book) (r : Row) (old : RowState) (cause : RowCause) (n : Option (Nat × Option Nat)) :
    Retiring b (b.postRowState r old cause n) := .of_same rfl rfl

theorem postStoreError_retiring (b : Book) (path : ReadPath) (kind : ItemKind) (place : Option (Nat × Date))
    (id slot : Option Nat) (effect : StoreEffect) : Retiring b (b.postStoreError path kind place id slot effect) :=
  .of_same rfl rfl

theorem tellRow_retiring (b : Book) (r : Row) : Retiring b (b.tellRow r) := .ite (.of_same rfl rfl) (.refl b)

/-! ## Reads that may find a record lost -/

theorem readItem_retiring (b : Book) (i : StoreItem) : Retiring b (b.readItem i).1 := by
  unfold Book.readItem
  split
  · exact .refl b
  · exact withBss_retiring b _

theorem putSlot_retiring {b : Book} {n : Nat} {x y : RecSlot} (hy : b.slot n = some y)
    (hp : ∀ p, x.place = some p → y.place = some p) : Retiring b (b.putSlot n x) :=
  { Retiring.refl b with
    places := fun m z p hz hzp => by
      by_cases hm : m = n
      · subst hm
        rw [Book.putSlot_self] at hz
        cases hz
        exact ⟨y, hy, hp p hzp⟩
      · exact ⟨z, (Table.find_put_ne _ _ _ _ hm).symm.trans hz, hzp⟩ }

theorem startRebuild_retiring (b : Book) (cause : RowCause) (room : Nat) (d : Date) :
    Retiring b (b.startRebuild cause room d) := by
  unfold Book.startRebuild
  split
  · exact .refl b
  · next r hr =>
    split
    · exact .refl b
    · have put : Retiring b (b.putRow { r with state := .rebuilding }) :=
        { Retiring.refl b with
          rows := fun hb k r' hr' => by
            rw [show (b.putRow { r with state := .rebuilding }).bke.rows.find k = _ from Table.find_put ..] at hr'
            split at hr'
            · next hk =>
              cases hr'
              exact ⟨r, by rw [hk, ← hb _ r hr]; exact hr, rfl, rfl⟩
            · exact ⟨r', hr', rfl, rfl⟩ }
      exact (put.trans (postRowState_retiring _ _ _ _ _)).trans (tellRow_retiring _ _)

theorem damage_retiring {b : Book} {n id : Nat} {r : Record} (hr : b.slot n = some (.sound r)) {x : Damaged}
    (hx : ∀ p, x.place = some p → p = (r.room, r.date)) : Retiring b (b.damage n id x) := by
  have put (y : Damaged) (hy : y.place = x.place) : Retiring b (b.putSlot n (.damaged y)) :=
    putSlot_retiring hr fun p hp => by rw [hx p (hy ▸ hp)]; rfl
  unfold Book.damage
  split
  · exact { put { x with listed := some id } rfl with }
  · exact put x rfl

theorem remainsOf_place {r : Record} {indexLost tagLost : Bool} (p : Nat × Date)
    (h : (remainsOf r indexLost tagLost).place = some p) : p = (r.room, r.date) := by
  cases indexLost <;> simp [remainsOf] at h
  exact h.symm

theorem recordLost_retiring (b : Book) (path : ReadPath) (n : Nat) (indexLost tagLost : Bool) :
    Retiring b (b.recordLost path n indexLost tagLost) := by
  unfold Book.recordLost
  split
  · next r hr =>
    have damaged := damage_retiring (id := r.id) hr (remainsOf_place (indexLost := indexLost) (tagLost := tagLost))
    have posted := fun kind slot => damaged.trans
      (postStoreError_retiring _ path kind (remainsOf r indexLost tagLost).place (remainsOf r indexLost tagLost).id slot
        .recordDamaged)
    exact .ite (posted _ _)
      ((posted _ _).trans (.foldl (fun b (p : Nat × Date) => startRebuild_retiring b .recordDamaged p.1 p.2) _ _))
  · exact .refl b

theorem readIndex_retiring (b : Book) (n : Nat) : Retiring b (b.readIndex n) := by
  unfold Book.readIndex
  split
  · have read := readItem_retiring b (.index n)
    exact .ite ((read.trans (withBss_retiring _ _)).trans (recordLost_retiring _ _ _ _ _)) read
  · exact .refl b

theorem readSlot_retiring (b : Book) (path : ReadPath) (n : Nat) : Retiring b (b.readSlot path n) := by
  unfold Book.readSlot
  split
  · have read := (readItem_retiring b (.index n)).trans (readItem_retiring _ (.record n))
    exact .ite ((read.trans (withBss_retiring _ _)).trans (recordLost_retiring _ _ _ _ _)) read
  · exact .refl b

/-! ## The removals -/

theorem retireSlot_slot (b : Book) (n i m : Nat) : (b.retireSlot n i).slot m = if m = n then none else b.slot m :=
  Table.find_drop ..

theorem retireSlot_retiring (b : Book) (n i : Nat) : Retiring b (b.retireSlot n i) :=
  { Retiring.refl b with
    places := fun m x p hx hp => by
      rw [retireSlot_slot] at hx
      split at hx
      · cases hx
      · exact ⟨x, hx, hp⟩
    drafts := fun p hp => by
      obtain ⟨q, hq, rfl⟩ := List.mem_map.mp (show p ∈ (b.bke.draft.unmark i).rows.entries from hp)
      exact ⟨q.2, hq, rfl, rfl⟩ }

theorem foldl_retireSlot_slot (b : Book) (l : List (Nat × RecSlot)) (m : Nat) :
    (l.foldl (fun b p => b.retireSlot p.1 p.2.own) b).slot m = if m ∈ l.map (·.1) then none else b.slot m := by
  induction l generalizing b with
  | nil => rfl
  | cons q l ih =>
    rw [List.foldl_cons, ih, retireSlot_slot]
    by_cases hm : m = q.1 <;> by_cases hl : m ∈ l.map (·.1) <;>
      simp only [List.map_cons, List.mem_cons, hm, hl, or_self, true_or, or_true, if_true, if_false, ite_self]

/-- R58: after the records of a date are retired none stands at that date. -/
theorem retireRecords_spec (b : Book) (d : Date) :
    Retiring b (b.retireRecords d) ∧
      ∀ n x p, (b.retireRecords d).slot n = some x → x.place = some p → p.2 ≠ d := by
  have read := Retiring.foldl readIndex_retiring b.bke.records.keys b
  unfold Book.retireRecords
  generalize b.bke.records.keys.foldl Book.readIndex b = c at read ⊢
  refine ⟨read.trans (.foldl (fun b (p : Nat × RecSlot) => retireSlot_retiring b p.1 p.2.own) _ _),
    fun n x p hx hp hd => ?_⟩
  rw [foldl_retireSlot_slot] at hx
  split at hx
  · cases hx
  · next hn =>
    refine hn (List.mem_map.mpr ⟨(n, x), List.mem_filter.mpr ⟨findKey_mem hx, ?_⟩, rfl⟩)
    simp [hp, hd]

theorem dropSeries_retiring (b : Book) (sid : Nat) : Retiring b (b.dropSeries sid) :=
  { Retiring.refl b with
    series := fun k x hx => by
      rw [show (b.dropSeries sid).bke.series.find k = _ from Table.find_drop ..] at hx
      split at hx
      · cases hx
      · exact hx }

theorem clearSeries_retiring (b : Book) (n : Nat) : Retiring b (b.clearSeries n) := by
  unfold Book.clearSeries Book.soundAt
  cases hn : b.slot n with
  | none => exact .refl b
  | some y =>
    cases y with
    | damaged y => exact .refl b
    | sound r =>
      exact (putSlot_retiring (x := .sound { r with series := none }) hn fun p hp => hp).trans (withBss_retiring _ _)

theorem retireSeries_retiring (b : Book) (d : Date) : Retiring b (b.retireSeries d) :=
  (Retiring.foldl dropSeries_retiring _ b).trans
    (.foldl (fun b (p : Nat × Record) => (readSlot_retiring b .demand p.1).trans (clearSeries_retiring _ p.1)) _ _)

theorem retireRow_rows (b : Book) (r : Row) : (b.retireRow r).bke.rows = b.bke.rows.drop (rowKey r.room r.date) := by
  unfold Book.retireRow
  dsimp only
  split <;> rfl

theorem dropRow_retiring (b : Book) (k : Nat) (i : StoreItem) :
    Retiring b ((b.withBke { b.bke with rows := b.bke.rows.drop k }).fresh i) :=
  { Retiring.refl b with
    rows := fun _ j r hr => by
      rw [show ((b.withBke { b.bke with rows := b.bke.rows.drop k }).fresh i).bke.rows.find j = _ from
        Table.find_drop ..] at hr
      split at hr
      · cases hr
      · exact ⟨r, hr, rfl, rfl⟩ }

theorem retireRow_retiring (b : Book) (r : Row) : Retiring b (b.retireRow r) :=
  (Retiring.ite (.refl b) (postRowState_retiring b _ _ _ _)).trans (dropRow_retiring _ _ _)

/-- R30: the rows of a date are cleared. -/
def Book.retireRows (b : Book) (d : Date) : Book :=
  (b.bke.rows.values.filter fun r => r.date == d).foldl Book.retireRow b

theorem foldl_retireRow_rows (b : Book) (l : List Row) :
    (l.foldl Book.retireRow b).bke.rows = b.bke.rows.dropAll (l.map fun r => rowKey r.room r.date) := by
  induction l generalizing b with
  | nil => rfl
  | cons r l ih => exact (ih _).trans (by rw [retireRow_rows]; rfl)

/-- R30: after the rows of a date are cleared none stands for that date. -/
theorem retireRows_spec {b : Book} (hb : RowsAtKeys b) (d : Date) :
    Retiring b (b.retireRows d) ∧ ∀ k r, (b.retireRows d).bke.rows.find k = some r → r.date ≠ d := by
  refine ⟨.foldl retireRow_retiring _ b, fun k r hr hd => ?_⟩
  rw [Book.retireRows, foldl_retireRow_rows, Table.find_dropAll] at hr
  split at hr
  · cases hr
  · next hk =>
    have listed : r ∈ b.bke.rows.values := List.mem_map.mpr ⟨(k, r), findKey_mem hr, rfl⟩
    exact hk (List.mem_map.mpr ⟨r, List.mem_filter.mpr ⟨listed, by simpa using hd⟩, (hb k r hr).symm⟩)

/-- R87: the draft rows of a date are freed. -/
def Book.dropDraftRows (b : Book) (d : Date) : Book :=
  (b.bke.draft.rows.values.filter fun r => r.date == d).foldl Book.dropDraftRow b

theorem dropDraftRow_rows (b : Book) (z : DraftRow) :
    (b.dropDraftRow z).bke.draft.rows = b.bke.draft.rows.drop (rowKey z.room z.date) := rfl

theorem dropDraftRow_retiring (b : Book) (z : DraftRow) : Retiring b (b.dropDraftRow z) :=
  { Retiring.refl b with
    drafts := fun p hp =>
      ⟨p.2, ((Table.mem_dropAll b.bke.draft.rows [rowKey z.room z.date] p).mp hp).1, rfl, rfl⟩ }

theorem foldl_dropDraftRow_rows (b : Book) (l : List DraftRow) :
    (l.foldl Book.dropDraftRow b).bke.draft.rows =
      b.bke.draft.rows.dropAll (l.map fun z => rowKey z.room z.date) := by
  induction l generalizing b with
  | nil => rfl
  | cons z l ih => exact (ih _).trans (by rw [dropDraftRow_rows]; rfl)

/-- R87: after the draft rows of a date are freed none stands at its key. -/
theorem dropDraftRows_spec (b : Book) (d : Date) :
    Retiring b (b.dropDraftRows d) ∧
      ∀ p ∈ (b.dropDraftRows d).bke.draft.rows.entries, p.2.date = d → p.1 ≠ rowKey p.2.room p.2.date := by
  refine ⟨.foldl dropDraftRow_retiring _ b, fun p hp hd hk => ?_⟩
  rw [Book.dropDraftRows, foldl_dropDraftRow_rows] at hp
  obtain ⟨hp, hnot⟩ := (Table.mem_dropAll ..).mp hp
  have listed : p.2 ∈ b.bke.draft.rows.values := List.mem_map.mpr ⟨p, hp, rfl⟩
  exact hnot (List.mem_map.mpr ⟨p.2, List.mem_filter.mpr ⟨listed, by simpa using hd⟩, hk.symm⟩)

theorem answerWaiters_retiring (b : Book) (p : Waiter → Bool) (a : Answer) : Retiring b (b.answerWaiters p a) :=
  (show Retiring b (b.withBke { b.bke with waiters := b.bke.waiters.filter fun w => !p w }) from
    { Retiring.refl b with }).trans
    (.foldl (fun b (w : Waiter) => .of_same (by rw [Book.reply_mail]) (Book.reply_bke b w.ctx a)) _ _)

/-- R30, R58, R87: nothing of the date stands. -/
structure DayGone (b : Book) (d : Date) : Prop where
  places : ∀ n x p, b.slot n = some x → x.place = some p → p.2 ≠ d
  rows : ∀ k r, b.bke.rows.find k = some r → r.date ≠ d
  drafts : ∀ p ∈ b.bke.draft.rows.entries, p.2.date = d → p.1 ≠ rowKey p.2.room p.2.date

theorem retireDay_eq (b : Book) (d : Date) :
    b.retireDay d =
      ((((b.retireRecords d).retireSeries d).retireRows d).dropDraftRows d).answerWaiters (fun w => w.date == d)
        (Answer.of .tooLate) := by
  simp only [Book.retireDay, Book.retireRows, Book.dropDraftRows]

/-- R30, R58, R67, R87, R175: what each part of a day retire drops the later parts leave dropped. -/
theorem retireDay_spec {b : Book} (hb : RowsAtKeys b) (d : Date) :
    Retiring b (b.retireDay d) ∧ DayGone (b.retireDay d) d := by
  rw [retireDay_eq]
  obtain ⟨records, noPlace⟩ := retireRecords_spec b d
  have series := retireSeries_retiring (b.retireRecords d) d
  have toSeries := records.trans series
  obtain ⟨rows, noRow⟩ := retireRows_spec (toSeries.rowsAtKeys hb) d
  have toRows := toSeries.trans rows
  obtain ⟨drafts, noDraft⟩ := dropDraftRows_spec (((b.retireRecords d).retireSeries d).retireRows d) d
  have waiters := answerWaiters_retiring ((((b.retireRecords d).retireSeries d).retireRows d).dropDraftRows d)
    (fun w => w.date == d) (Answer.of .tooLate)
  refine ⟨(toRows.trans drafts).trans waiters, fun n x p hx hp => ?_, fun k r hr => ?_, fun p hp hd => ?_⟩
  · obtain ⟨y, hy, hyp⟩ := (((series.trans rows).trans drafts).trans waiters).places n x p hx hp
    exact noPlace n y p hy hyp
  · obtain ⟨r', hr', -, hdate⟩ := (drafts.trans waiters).rows (toRows.rowsAtKeys hb) k r hr
    rw [hdate]
    exact noRow k r' hr'
  · obtain ⟨z, hz, hroom, hdate⟩ := waiters.drafts p hp
    rw [hroom, hdate]
    exact noDraft (p.1, z) hz (hdate ▸ hd)

/-! ## Day open -/

/-- R66: no series falls on the weekday. -/
def NoSeriesOn (w : Weekday) (b : Book) : Prop :=
  ∀ k x, b.bke.series.find k = some x → x.mask.contains w = false

/-- R66: where no series falls on the weekday of the date opened, a series visited can only be marked as at its end. -/
theorem visitSeries_quiet {b : Book} {w : Weekday} (h : NoSeriesOn w b) (t : Ctu) (day : Date) (sid : Nat) :
    ∃ x, b.visitSeries t day w sid = b.withBke { b.bke with series := x } ∧
      NoSeriesOn w (b.visitSeries t day w sid) := by
  unfold Book.visitSeries
  cases hs : b.bke.series.find sid with
  | none => exact ⟨_, rfl, h⟩
  | some s =>
    simp only [h sid s hs, Bool.false_eq_true, if_false]
    split
    · exact ⟨_, rfl, h⟩
    · split
      · refine ⟨_, rfl, fun k x hx => ?_⟩
        rw [show (b.putSeries { s with lastReached := true }).bke.series.find k = _ from Table.find_put ..] at hx
        split at hx
        · cases hx
          exact h sid s hs
        · exact h k x hx
      · exact ⟨_, rfl, h⟩

theorem materialiseDay_quiet {b : Book} {w : Weekday} (h : NoSeriesOn w b) (t : Ctu) (day : Date) :
    ∃ x, b.materialiseDay t day w = b.withBke { b.bke with series := x } := by
  unfold Book.materialiseDay
  generalize b.bke.series.keys = l
  induction l generalizing b with
  | nil => exact ⟨b.bke.series, rfl⟩
  | cons sid l ih =>
    obtain ⟨x, hx, hq⟩ := visitSeries_quiet h t day sid
    obtain ⟨y, hy⟩ := ih hq
    exact ⟨y, by rw [List.foldl_cons, hy, hx]; rfl⟩

/-- R31: the horizon and the rows of a day open, before any series is visited. -/
def Book.dayOpened (b : Book) (today opened : Date) (w : Weekday) : Book :=
  (b.withHorizon (Horizon.dayOpened today w)).createAll (b.bke.rooms.keys.map fun x => (x, opened))

theorem openDay_eq (b : Book) (t : Ctu) (today opened : Date) (w : Weekday) :
    b.openDay t today opened w = (b.dayOpened today opened w).materialiseDay t opened w := by
  simp only [Book.openDay, Book.dayOpened, Book.createAll, List.foldl_map]
  rfl

theorem dayOpened_only (b : Book) (today opened : Date) (w : Weekday) :
    RowsOnly (b.withHorizon (Horizon.dayOpened today w)) (b.dayOpened today opened w) :=
  createAll_only ..

theorem openDay_quiet {b : Book} {w : Weekday} (h : NoSeriesOn w b) (t : Ctu) (today opened : Date) :
    ∃ x, b.openDay t today opened w =
      (b.dayOpened today opened w).withBke { (b.dayOpened today opened w).bke with series := x } := by
  rw [openDay_eq]
  refine materialiseDay_quiet (fun k x hx => h k x ?_) t opened
  rw [(dayOpened_only b today opened w).series] at hx
  exact hx

/-- R31: every room has a free row for the date opened. -/
theorem dayOpened_row {b : Book} (today opened : Date) (w : Weekday) {x : Nat} (hx : x ∈ b.bke.rooms.keys) :
    (b.dayOpened today opened w).row x opened = some (Row.new x opened) := by
  refine createAll_row (List.mem_map.mpr ⟨x, hx, rfl⟩) fun p hp hkey => ?_
  obtain ⟨z, -, rfl⟩ := List.mem_map.mp hp
  obtain rfl : z = x := rowKey_left hkey
  rfl

/-- R30, R31: a day open of another date brings nothing of the retired date back. -/
theorem DayGone.dayOpened {b : Book} {d : Date} (h : DayGone b d) (today : Date) {opened : Date} (hne : d ≠ opened)
    (w : Weekday) : DayGone (b.dayOpened today opened w) d := by
  have only := dayOpened_only b today opened w
  refine ⟨fun n x p hx => h.places n x p ?_, fun k r hr => ?_, fun p hp => h.drafts p ?_⟩
  · rw [Book.slot, only.records] at hx
    exact hx
  · rcases createAll_some hr with ⟨p, hp, rfl⟩ | hr
    · obtain ⟨y, -, rfl⟩ := List.mem_map.mp hp
      exact hne.symm
    · exact h.rows k r hr
  · rw [only.draft] at hp
    exact hp

theorem bkeDayRetire_eq {b : Book} {e o : TimeEvent} {rest : List TimeEvent} {opened : Date} {w : Weekday}
    (h : b.mail.bkeEvents = e :: o :: rest) (he : e.kind = .dayRetire) (ho : o.kind = .dayOpen opened w) (t : Ctu) :
    b.bkeDayRetire t = ((b.popBke 2).retireDay e.date).openDay t o.date opened w := by
  simp [Book.bkeDayRetire, h, he, ho]

end Sys2Proof.Machine

/-! PROOFS. Horizon open, and day retire with day open (R18, R30, R31, R58). -/

namespace Sys2Proof.Machine

/-- Settles O31: horizon open by the keys of its dates; day retire by what each of its parts drops and no later part
brings back (`Retiring`, `DayGone`). -/
theorem horizonOpenAndDayRetire : Obligations.HorizonOpenAndDayRetire := by
  refine ⟨fun s e w m slot rest hev hk hvalid => ?_, fun s e o opened w rest hev he ho hkeys hne hmask => ?_⟩
  · refine ⟨{ s with book := s.book.bkeHorizonOpen }, rfl, ?_⟩
    rw [bkeHorizonOpen_eq hev hk]
    have only := openHorizon_only (s.book.popBke 1) { today := e.date, weekday := w }
    refine ⟨?_, only.hmp, only.horizon, only.records, only.rooms, fun x hx k hk => openHorizon_row hvalid hx hk⟩
    rw [only.mail]
    exact congrArg (List.drop 1) hev
  · refine ⟨{ s with book := s.book.bkeDayRetire s.ctu }, rfl, ?_⟩
    rw [bkeDayRetire_eq hev he ho]
    obtain ⟨kept, gone⟩ := retireDay_spec (b := s.book.popBke 2) hkeys e.date
    generalize (s.book.popBke 2).retireDay e.date = b at kept gone ⊢
    have quiet : NoSeriesOn w b := fun k x hx => hmask (k, x) (findKey_mem (kept.series k x hx))
    obtain ⟨x, hopen⟩ := openDay_quiet quiet s.ctu o.date opened
    have only := dayOpened_only b o.date opened w
    have left := gone.dayOpened o.date hne w
    rw [hopen]
    refine ⟨?_, only.horizon, left.places, left.rows, left.drafts, fun y hy => dayOpened_row _ _ _ (kept.rooms ▸ hy)⟩
    rw [Book.withBke_mail, only.mail]
    exact kept.events.trans (congrArg (List.drop 2) hev)

end Sys2Proof.Machine

/-! SUPPORT. A free booking id and an empty record slot are found wherever the table is not full (R32, R34). -/

namespace Sys2Proof

variable {α : Type}

theorem findKey_eq_none (k : Nat) (l : List (Nat × α)) : findKey k l = none ↔ k ∉ l.map (·.1) := by
  induction l with
  | nil => simp [findKey]
  | cons e l ih =>
    obtain ⟨i, x⟩ := e
    by_cases hk : i = k
    · simp [findKey, hk]
    · simp [findKey, hk, Ne.symm hk, ih]

theorem Table.find_eq_none (t : Table α) (k : Nat) : t.find k = none ↔ k ∉ t.keys := findKey_eq_none k t.entries

end Sys2Proof

namespace Sys2Proof.Machine

/-! ## The lowest number not in use -/

/-- The search passes numbers in use until it finds one that is free, or has looked at all that it may. -/
theorem firstFree_finds (used : List Nat) (n fuel : Nat) :
    (∀ m, n ≤ m → m < n + fuel → m ∈ used) ∨
      (n ≤ firstFree used n fuel ∧ firstFree used n fuel < n + fuel ∧ firstFree used n fuel ∉ used ∧
        ∀ m, n ≤ m → m < firstFree used n fuel → m ∈ used) := by
  induction fuel generalizing n with
  | zero => exact .inl fun m hm hlt => absurd hlt (by omega)
  | succ fuel ih =>
    unfold firstFree
    by_cases hn : n ∈ used
    · rw [if_pos (by simpa using hn)]
      rcases ih (n + 1) with hall | ⟨hlow, hlt, hfree, hbelow⟩
      · refine .inl fun m hm hlt => ?_
        rcases Nat.eq_or_lt_of_le hm with rfl | hm
        · exact hn
        · exact hall m hm (by omega)
      · refine .inr ⟨by omega, by omega, hfree, fun m hm hlt => ?_⟩
        rcases Nat.eq_or_lt_of_le hm with rfl | hm
        · exact hn
        · exact hbelow m hm hlt
    · rw [if_neg (by simpa using hn)]
      exact .inr ⟨le_rfl, by omega, hn, fun m hm hlt => absurd hlt (by omega)⟩

/-- A list of numbers leaves one free among the first of its length and one more. -/
theorem firstFree_free (used : List Nat) :
    firstFree used 0 (used.length + 1) ≤ used.length ∧ firstFree used 0 (used.length + 1) ∉ used ∧
      ∀ m, m < firstFree used 0 (used.length + 1) → m ∈ used := by
  rcases firstFree_finds used 0 (used.length + 1) with hall | ⟨-, hlt, hfree, hbelow⟩
  · have hsub : List.range (used.length + 1) ⊆ used := fun m hm => hall m (Nat.zero_le m) (by simpa using hm)
    have hle := (List.subperm_of_subset List.nodup_range hsub).length_le
    simp at hle
  · exact ⟨by omega, hfree, fun m => hbelow m (Nat.zero_le m)⟩

/-- R32: the new slot is the lowest empty one. -/
theorem newSlot_lowest (b : Book) :
    b.slot b.newSlot = none ∧ b.newSlot ≤ b.bke.records.size ∧ ∀ m, m < b.newSlot → b.slot m ≠ none := by
  have hlen : b.bke.records.keys.length = b.bke.records.size := List.length_map ..
  obtain ⟨hle, hfree, hbelow⟩ := firstFree_free b.bke.records.keys
  rw [hlen] at hle hfree hbelow
  exact ⟨(Table.find_eq_none ..).mpr hfree, hle, fun m hm hn => (Table.find_eq_none ..).mp hn (hbelow m hm)⟩

/-! ## The next id -/

/-- R34: the id that stands `j` places after the one that follows `last`. -/
def idAfter (last j : Nat) : Nat := ((if last < 65535 then last else 0) + j) % 65535 + 1

theorem idAfter_bounds (last j : Nat) : 1 ≤ idAfter last j ∧ idAfter last j ≤ 65535 := by
  unfold idAfter; omega

theorem idAfter_zero (last : Nat) : idAfter last 0 = if last < 65535 then last + 1 else 1 := by
  unfold idAfter; split <;> omega

theorem idAfter_succ (last j : Nat) : idAfter (idAfter last 0) j = idAfter last (j + 1) := by
  unfold idAfter; split <;> split <;> omega

theorem idAfter_inj {last i j : Nat} (hi : i < 65535) (hj : j < 65535) (h : idAfter last i = idAfter last j) : i = j := by
  unfold idAfter at h; split at h <;> omega

/-- The search passes ids in use until it finds one that is free, or has none left to look at. -/
theorem nextId_finds (used : List Nat) (last fuel : Nat) :
    ∃ j, j ≤ fuel ∧ nextId used 65535 last fuel = idAfter last j ∧ (∀ i, i < j → idAfter last i ∈ used) ∧
      (j < fuel → idAfter last j ∉ used) := by
  induction fuel generalizing last with
  | zero => exact ⟨0, le_rfl, (idAfter_zero last).symm, fun i hi => absurd hi (by omega), fun h => absurd h (by omega)⟩
  | succ fuel ih =>
    unfold nextId
    simp only [← idAfter_zero]
    by_cases hn : idAfter last 0 ∈ used
    · rw [if_pos (by simpa using hn)]
      obtain ⟨j, hj, heq, hbelow, hfree⟩ := ih (idAfter last 0)
      simp only [idAfter_succ] at heq hbelow hfree
      refine ⟨j + 1, by omega, heq, fun i hi => ?_, fun hlt => hfree (by omega)⟩
      cases i with
      | zero => exact hn
      | succ i => exact hbelow i (by omega)
    · rw [if_neg (by simpa using hn)]
      exact ⟨0, by omega, rfl, fun i hi => absurd hi (by omega), fun _ => hn⟩

/-- R34: where fewer ids are in use than there are, the id found is free. -/
theorem nextId_free {used : List Nat} (last : Nat) (h : used.length < 65535) :
    nextId used 65535 last used.length ∉ used := by
  obtain ⟨j, hj, heq, hbelow, hfree⟩ := nextId_finds used last used.length
  rw [heq]
  rcases Nat.eq_or_lt_of_le hj with rfl | hlt
  · intro hin
    have hsub : (List.range (used.length + 1)).map (idAfter last) ⊆ used := by
      intro x hx
      obtain ⟨i, hi, rfl⟩ := List.mem_map.mp hx
      rcases Nat.eq_or_lt_of_le (Nat.le_of_lt_succ (List.mem_range.mp hi)) with rfl | hi
      · exact hin
      · exact hbelow i hi
    have hnodup : ((List.range (used.length + 1)).map (idAfter last)).Nodup := by
      refine List.Nodup.map_on (fun i hi j hj => idAfter_inj ?_ ?_) List.nodup_range
      · exact lt_of_le_of_lt (Nat.le_of_lt_succ (List.mem_range.mp hi)) h
      · exact lt_of_le_of_lt (Nat.le_of_lt_succ (List.mem_range.mp hj)) h
    have hle := (List.subperm_of_subset hnodup hsub).length_le
    simp at hle
  · exact hfree hlt

theorem tableFull_size {b : Book} (h : b.tableFull = false) : b.bke.records.size < 4096 := by
  exact Nat.lt_of_not_le (of_decide_eq_false h)

theorem usedIds_length (b : Book) : b.usedIds.length = b.bke.records.size := by
  simp [Book.usedIds, Table.values, Table.size]

/-- R34: the next booking id is one that no record has. -/
theorem newId_free {b : Book} (h : b.tableFull = false) : b.newId ∉ b.usedIds := by
  have hsize := tableFull_size h
  have hfree := nextId_free (used := b.usedIds) b.bke.lastId (by rw [usedIds_length]; omega)
  rwa [usedIds_length] at hfree

theorem newId_bounds (b : Book) : 1 ≤ b.newId ∧ b.newId ≤ 65535 := by
  obtain ⟨j, -, heq, -⟩ := nextId_finds b.usedIds b.bke.lastId b.bke.records.size
  unfold Book.newId
  exact heq ▸ idAfter_bounds ..

end Sys2Proof.Machine

/-! PROOFS. New ids and slots (R32, R34). -/

namespace Sys2Proof.Machine

/-- Settles O21: the ids searched are all different and more than the ids in use; so are the slots. -/
theorem newIdsAndSlotsAreFree : Obligations.NewIdsAndSlotsAreFree := by
  intro b hfull
  obtain ⟨hlow, hhigh⟩ := newId_bounds b
  obtain ⟨hempty, hle, hbelow⟩ := newSlot_lowest b
  exact ⟨⟨hlow, hhigh, newId_free hfull⟩, hempty, lt_of_le_of_lt hle (tableFull_size hfull), hbelow⟩

end Sys2Proof.Machine

/-! SUPPORT. What a live claim writes (R18 to R22): the rows of a family in whatever state they stand, cell by cell; and what
a claim that ends with a book leaves of the state. -/

namespace Sys2Proof.Machine

/-! ## Painting rows that stand -/

/-- R18: the rows of the rooms stand on the date under their own keys, with 64 cells. -/
def RowsStandIn (t : Table Row) (l : List Nat) (d : Date) : Prop :=
  ∀ x ∈ l, ∃ r, t.find (rowKey x d) = some r ∧ r.room = x ∧ r.date = d ∧ r.cells.length = 64

/-- R22: a GOOD row takes the cells that `f` gives, any other stays. -/
structure RowBecomes (f : Nat → Cell → Cell) (r r' : Row) : Prop where
  place : r'.room = r.room ∧ r'.date = r.date
  version : r'.version = r.version
  length : r'.cells.length = r.cells.length
  kept : r.state ≠ .good → r' = r
  written : r.state = .good → r'.state = .good ∧ ∀ k, k < 64 → cellAt r'.cells k = f k (cellAt r.cells k)

theorem RowBecomes.trans {f g : Nat → Cell → Cell} {r r' r'' : Row} (h : RowBecomes f r r') (h' : RowBecomes g r' r'') :
    RowBecomes (fun k c => g k (f k c)) r r'' where
  place := ⟨h'.place.1.trans h.place.1, h'.place.2.trans h.place.2⟩
  version := h'.version.trans h.version
  length := h'.length.trans h.length
  kept := fun hb => by rw [h'.kept (by rwa [h.kept hb]), h.kept hb]
  written := fun hg => by
    obtain ⟨hg', hw⟩ := h.written hg
    obtain ⟨hg'', hw'⟩ := h'.written hg'
    exact ⟨hg'', fun k hk => by rw [hw' k hk, hw k hk]⟩

theorem RowBecomes.congr {f g : Nat → Cell → Cell} {r r' : Row} (h : RowBecomes f r r')
    (hfg : ∀ k, k < 64 → ∀ c, f k c = g k c) : RowBecomes g r r' where
  place := h.place
  version := h.version
  length := h.length
  kept := h.kept
  written := fun hg => by
    obtain ⟨hg', hw⟩ := h.written hg
    exact ⟨hg', fun k hk => by rw [hw k hk, hfg k hk]⟩

/-- R20: the rows of the rooms have become what `f` gives on the date. -/
def RowsBecome (t t' : Table Row) (l : List Nat) (d : Date) (f : Nat → Nat → Cell → Cell) : Prop :=
  ∀ x ∈ l, ∀ r, t.find (rowKey x d) = some r → ∃ r', t'.find (rowKey x d) = some r' ∧ RowBecomes (f x) r r'

/-- R20: so they have, and every other row stands as it was. -/
structure RowsPainted (t t' : Table Row) (l : List Nat) (d : Date) (f : Nat → Nat → Cell → Cell) : Prop where
  painted : RowsBecome t t' l d f
  others : ∀ k, (∀ x ∈ l, rowKey x d ≠ k) → t'.find k = t.find k

theorem RowsBecome.stand {t t' : Table Row} {l : List Nat} {d : Date} {f : Nat → Nat → Cell → Cell}
    (h : RowsBecome t t' l d f) (ht : RowsStandIn t l d) : RowsStandIn t' l d := by
  intro x hx
  obtain ⟨r, hr, hroom, hdate, hlen⟩ := ht x hx
  obtain ⟨r', hr', hb⟩ := h x hx r hr
  exact ⟨r', hr', hb.place.1.trans hroom, hb.place.2.trans hdate, hb.length.trans hlen⟩

theorem RowsPainted.stand {t t' : Table Row} {l : List Nat} {d : Date} {f : Nat → Nat → Cell → Cell}
    (h : RowsPainted t t' l d f) (ht : RowsStandIn t l d) : RowsStandIn t' l d := h.painted.stand ht

theorem RowsPainted.trans {t t' t'' : Table Row} {l : List Nat} {d : Date} {f g : Nat → Nat → Cell → Cell}
    (h : RowsPainted t t' l d f) (h' : RowsPainted t' t'' l d g) :
    RowsPainted t t'' l d fun x k c => g x k (f x k c) where
  painted := fun x hx r hr => by
    obtain ⟨r', hr', hb⟩ := h.painted x hx r hr
    obtain ⟨r'', hr'', hb'⟩ := h'.painted x hx r' hr'
    exact ⟨r'', hr'', hb.trans hb'⟩
  others := fun k hk => (h'.others k hk).trans (h.others k hk)

theorem RowsPainted.congr {t t' : Table Row} {l : List Nat} {d : Date} {f g : Nat → Nat → Cell → Cell}
    (h : RowsPainted t t' l d f) (hfg : ∀ x ∈ l, ∀ k, k < 64 → ∀ c, f x k c = g x k c) : RowsPainted t t' l d g where
  painted := fun x hx r hr => by
    obtain ⟨r', hr', hb⟩ := h.painted x hx r hr
    exact ⟨r', hr', hb.congr (hfg x hx)⟩
  others := h.others

/-- Rows that nothing is written to. -/
theorem RowsPainted.refl (t : Table Row) (l : List Nat) (d : Date) : RowsPainted t t l d cellKept where
  painted := fun _ _ r hr =>
    ⟨r, hr, ⟨rfl, rfl⟩, rfl, rfl, fun _ => rfl, fun hg => ⟨hg, fun _ _ => rfl⟩⟩
  others := fun _ _ => rfl

/-- A row in which a claim sets the cells: only when it is GOOD. -/
def Row.paintedBy (f : List Cell → List Cell) (r : Row) : Row := if r.state = .good then { r with cells := f r.cells } else r

theorem paintTable_find {t : Table Row} {x : Nat} {d : Date} {r : Row} (h : t.find (rowKey x d) = some r)
    (hroom : r.room = x) (hdate : r.date = d) (f : List Cell → List Cell) (k : Nat) :
    (paintTable t x d f).find k = if k = rowKey x d then some (r.paintedBy f) else t.find k := by
  subst hroom hdate
  unfold paintTable Row.paintedBy
  simp only [h]
  split
  · exact Table.find_put ..
  · split
    · next hk => rw [hk, h]
    · rfl

theorem paintedBy_becomes {r : Row} {f : List Cell → List Cell} {g : Nat → Cell → Cell} (hr : r.cells.length = 64)
    (hlen : ∀ c, (f c).length = c.length)
    (hcell : ∀ c k, c.length = 64 → k < 64 → cellAt (f c) k = g k (cellAt c k)) : RowBecomes g r (r.paintedBy f) := by
  unfold Row.paintedBy
  by_cases hg : r.state = .good
  · rw [if_pos hg]
    exact ⟨⟨rfl, rfl⟩, rfl, hlen _, fun h => absurd hg h, fun _ => ⟨hg, fun k hk => hcell _ k hr hk⟩⟩
  · rw [if_neg hg]
    exact ⟨⟨rfl, rfl⟩, rfl, rfl, fun _ => rfl, fun h => absurd h hg⟩

/-- R20, R22: what writing a family does, its rows standing in whatever state. -/
theorem paintRows_painted {l : List Nat} {d : Date} {f : Nat → List Cell → List Cell} {g : Nat → Nat → Cell → Cell}
    (hlen : ∀ x c, (f x c).length = c.length)
    (hcell : ∀ x c k, c.length = 64 → k < 64 → cellAt (f x c) k = g x k (cellAt c k))
    (hid : ∀ x k c, g x k (g x k c) = g x k c) (t : Table Row) (ht : RowsStandIn t l d) :
    RowsPainted t (paintRows t l d f) l d g := by
  induction l generalizing t with
  | nil => exact ⟨fun x hx => absurd hx List.not_mem_nil, fun _ _ => rfl⟩
  | cons y l ih =>
    obtain ⟨ry, hy, hroom, hdate, hcells⟩ := ht y List.mem_cons_self
    have hfind := paintTable_find hy hroom hdate (f y)
    have hbecomes := paintedBy_becomes (g := g y) hcells (hlen y) (hcell y)
    have hfirst : RowsPainted t (paintTable t y d (f y)) [y] d g := by
      refine ⟨fun x hx r hr => ?_, fun k hk => ?_⟩
      · obtain rfl := List.mem_singleton.mp hx
        obtain rfl : ry = r := Option.some.inj (hy.symm.trans hr)
        exact ⟨_, by rw [hfind, if_pos rfl], hbecomes⟩
      · rw [hfind, if_neg (Ne.symm (hk y List.mem_cons_self))]
    have hother : ∀ x, x ≠ y → (paintTable t y d (f y)).find (rowKey x d) = t.find (rowKey x d) := fun x hx =>
      hfirst.others _ fun z hz e => hx (by rw [← rowKey_left e]; exact List.mem_singleton.mp hz)
    have hstand : RowsStandIn (paintTable t y d (f y)) l d := by
      intro x hx
      by_cases hxy : x = y
      · subst hxy
        exact hfirst.stand (fun z hz => List.mem_singleton.mp hz ▸ ht x List.mem_cons_self) x List.mem_cons_self
      · rw [hother x hxy]
        exact ht x (List.mem_cons_of_mem y hx)
    have hrest := ih (paintTable t y d (f y)) hstand
    refine ⟨fun x hx r hr => ?_, fun k hk => ?_⟩
    · by_cases hxy : x = y
      · subst hxy
        obtain ⟨r', hr', hb⟩ := hfirst.painted x List.mem_cons_self r hr
        by_cases hl : x ∈ l
        · obtain ⟨r'', hr'', hb'⟩ := hrest.painted x hl r' hr'
          exact ⟨r'', hr'', (hb.trans hb').congr fun k _ c => hid x k c⟩
        · refine ⟨r', ?_, hb⟩
          rw [← hr']
          exact hrest.others _ fun z hz e => hl (rowKey_left e ▸ hz)
      · exact hrest.painted x ((List.mem_cons.mp hx).resolve_left hxy) r ((hother x hxy).trans hr)
    · rw [← hfirst.others k fun z hz => hk z (List.mem_singleton.mp hz ▸ List.mem_cons_self)]
      exact hrest.others k fun z hz => hk z (List.mem_cons_of_mem y hz)

section

variable {t : Table Row} {l : List Nat}

/-- R20: the rows after the cover of `r` is written. -/
theorem cover_painted (r : Record) (ht : RowsStandIn t l r.date) :
    RowsPainted t (paintRows t l r.date fun x => applyPatches (r.patches x)) l r.date r.written := by
  refine paintRows_painted (fun x c => applyPatches_length _ c) (fun x c k hc hk => cellAt_cover r x k c (hc ▸ hk))
    (fun x k c => ?_) t ht
  unfold Record.written
  split
  · rfl
  · split <;> rfl

/-- R20: the rows after the cover of `r` is freed. -/
theorem uncover_painted (r : Record) (ht : RowsStandIn t l r.date) :
    RowsPainted t (paintRows t l r.date fun x => freePatches (r.patches x)) l r.date fun _ => r.cleared := by
  refine paintRows_painted (fun x c => freePatches_length _ c) (fun x c k hc hk => cellAt_uncover r x k c (hc ▸ hk))
    (fun x k c => ?_) t ht
  unfold Record.cleared
  split
  · rfl
  · split <;> rfl

/-- R51: cell `k` after the buffer of `r` is freed. -/
def Record.bufferCleared (r : Record) (k : Nat) (old : Cell) : Cell :=
  if r.bufState = .reserved ∧ r.start + r.count ≤ k ∧ k < r.start + r.count + r.bufSlots then .free else old

theorem cellAt_bufferCleared (r : Record) (k : Nat) (c : List Cell) (hk : k < c.length) :
    cellAt (freePatches r.bufferPatch c) k = r.bufferCleared k (cellAt c k) := by
  by_cases hb : r.bufState = .reserved <;>
    simp [Record.bufferPatch, freePatches, Record.bufferCleared, cellAt_paint, hb, hk]

/-- R51: the rows after the buffer of `r` is freed. -/
theorem uncoverBuffer_painted (r : Record) (ht : RowsStandIn t l r.date) :
    RowsPainted t (paintRows t l r.date fun _ => freePatches r.bufferPatch) l r.date fun _ => r.bufferCleared := by
  refine paintRows_painted (fun x c => freePatches_length _ c) (fun x c k hc hk => cellAt_bufferCleared r k c (hc ▸ hk))
    (fun x k c => ?_) t ht
  unfold Record.bufferCleared
  split <;> rfl

end

/-- R20: an active record writes its span and its buffer. -/
theorem Record.written_eq {r : Record} (ha : r.state.active = true) (x k : Nat) (c : Cell) :
    r.written x k c =
      if r.start ≤ k ∧ k < r.start + r.count then r.spanCell x
      else if r.start + r.count ≤ k ∧ k < r.start + r.count + heldBuffer r then .buffer else c := by
  by_cases hb : r.bufState = .reserved <;> simp only [Record.written, heldBuffer, ha, hb, true_and, false_and, if_true, if_false] <;>
    grind

/-- R20: what an active record covers is freed. -/
theorem Record.cleared_eq {r : Record} (ha : r.state.active = true) (x k : Nat) (c : Cell) :
    r.cleared k c = spanCleared r x k c := by
  by_cases hb : r.bufState = .reserved <;> simp only [Record.cleared, spanCleared, heldBuffer, ha, hb, true_and, false_and, if_true, if_false] <;>
    grind

/-- R20: the cells of a meeting that has left HELD. -/
theorem Record.written_booked {r : Record} (ha : r.state.active = true) (hk : r.kind = .meeting) (hh : r.state ≠ .held)
    (x k : Nat) (c : Cell) :
    r.written x k c = spanWritten r.room r.start r.count (heldBuffer r) .booked x k c := by
  simp only [Record.written_eq ha, spanWritten, Record.spanCell, hk, hh, if_false, reduceCtorEq, ite_not]

/-- R20, R37: the cells of a HELD meeting. -/
theorem Record.written_held {r : Record} (hk : r.kind = .meeting) (hh : r.state = .held) (x k : Nat) (c : Cell) :
    r.written x k c = spanWritten r.room r.start r.count (heldBuffer r) .held x k c := by
  simp only [Record.written_eq (r := r) (by rw [hh]; rfl), spanWritten, Record.spanCell, hk, hh, if_true, if_false,
    reduceCtorEq, ite_not]

/-- R24, R33: a buffer that fits the state it is given is held whole. -/
theorem heldBuffer_fitted {r : Record} (h : r.bufState = bufStateOf r.bufSlots) : heldBuffer r = r.bufSlots := by
  unfold heldBuffer
  rw [h]
  unfold bufStateOf
  split
  · next hz => rw [hz]; rfl
  · rfl

theorem RowsOpen.stand {b : Book} {room : Nat} {d : Date} {start n : Nat} (h : RowsOpen b room d start n) :
    RowsStandIn b.bke.rows (rowFamily b.bke.rooms room) d := by
  intro x hx
  obtain ⟨r, hr, hroom, hdate, -, hlen, -⟩ := h x hx
  exact ⟨r, hr, hroom, hdate, hlen⟩

/-! ## What a claim leaves -/

/-- The claim has changed no more than the record in slot `n`, the rows, the hold list, the last id, the runs and what is
handed to other blocks. -/
structure ClaimOnly (b b' : Book) (n : Nat) : Prop where
  hmp : b'.hmp = b.hmp
  cfs : b'.cfs = b.cfs
  csc : b'.csc = b.csc
  bss : b'.bss = b.bss
  bke : b'.bke =
    { b.bke with
      records := b'.bke.records, rows := b'.bke.rows, holds := b'.bke.holds, lastId := b'.bke.lastId }
  slots : ∀ k, k ≠ n → b'.slot k = b.slot k
  requests : b'.mail.requests = b.mail.requests

theorem ClaimOnly.refl (b : Book) (n : Nat) : ClaimOnly b b n := ⟨rfl, rfl, rfl, rfl, rfl, fun _ _ => rfl, rfl⟩

theorem ClaimOnly.trans {a b c : Book} {n : Nat} (h : ClaimOnly a b n) (k : ClaimOnly b c n) : ClaimOnly a c n where
  hmp := k.hmp.trans h.hmp
  cfs := k.cfs.trans h.cfs
  csc := k.csc.trans h.csc
  bss := k.bss.trans h.bss
  bke := by rw [k.bke, h.bke]
  slots := fun m hm => (k.slots m hm).trans (h.slots m hm)
  requests := k.requests.trans h.requests

theorem RecordOnly.claim {b b' : Book} {n : Nat} (h : RecordOnly b b' n) : ClaimOnly b b' n where
  hmp := h.hmp
  cfs := h.cfs
  csc := h.csc
  bss := h.bss
  bke := by rw [h.bke]
  slots := h.slots
  requests := h.requests

section

variable {b b' : Book} {n : Nat} (h : ClaimOnly b b' n)
include h

theorem ClaimOnly.sound (hs : StoreSound b) : StoreSound b' := by unfold StoreSound; rw [h.bss]; exact hs

theorem ClaimOnly.rooms : b'.bke.rooms = b.bke.rooms := by rw [h.bke]

theorem ClaimOnly.room (x : Nat) : b'.room x = b.room x := by unfold Book.room; rw [h.rooms]

theorem ClaimOnly.code (x : Nat) : b'.code x = b.code x := by unfold Book.code; rw [h.rooms]

theorem ClaimOnly.placed (r : Record) : b'.placed r = b.placed r := by unfold Book.placed; rw [h.code]

theorem ClaimOnly.begun (t : Ctu) (d : Date) (x : Nat) : b'.begun t d x = b.begun t d x := by
  unfold Book.begun Book.isToday; rw [h.bke]

end

/-- A live claim on the record in slot `n` that writes the cells `f` gives in the rows of one room-day's family. -/
structure LiveClaim (b b' : Book) (n room : Nat) (d : Date) (f : Nat → Nat → Cell → Cell) : Prop where
  only : ClaimOnly b b' n
  painted : RowsPainted b.bke.rows b'.bke.rows (rowFamily b.bke.rooms room) d f

/-- A claim goes on with changes that write no cell. -/
theorem LiveClaim.record {b b' b'' : Book} {n room : Nat} {d : Date} {f : Nat → Nat → Cell → Cell}
    (h : LiveClaim b b' n room d f) (k : RecordOnly b' b'' n) : LiveClaim b b'' n room d f where
  only := h.only.trans k.claim
  painted := k.rows.symm ▸ h.painted

theorem withRows_only (b : Book) (t : Table Row) (n : Nat) : ClaimOnly b (b.withRows t) n :=
  ⟨rfl, rfl, rfl, rfl, rfl, fun _ _ => rfl, rfl⟩

theorem dropHold_only (b : Book) (id n : Nat) : ClaimOnly b (b.dropHold id) n :=
  ⟨rfl, rfl, rfl, rfl, rfl, fun _ _ => rfl, rfl⟩

theorem Book.dropSlot_sound {b : Book} (hs : StoreSound b) (n : Nat) :
    b.dropSlot n = b.withBke { b.bke with records := b.bke.records.drop n } := by
  have hb : StoreSound (b.withBke { b.bke with records := b.bke.records.drop n }) := hs
  unfold Book.dropSlot
  rw [Book.fresh_sound hb, Book.fresh_sound hb]

theorem dropSlot_only {b : Book} (hs : StoreSound b) (n : Nat) : ClaimOnly b (b.dropSlot n) n := by
  rw [Book.dropSlot_sound hs]
  exact ⟨rfl, rfl, rfl, rfl, rfl, fun _ hk => Table.find_drop_ne _ _ _ hk, rfl⟩

theorem Book.addNew_sound {b : Book} (hs : StoreSound b) (r : Record) :
    b.addNew r = (b.withBke { b.bke with lastId := b.newId }).putSlot b.newSlot (.sound r) :=
  Book.putIndexed_sound (by exact hs) _ _

theorem addNew_only {b : Book} (hs : StoreSound b) (r : Record) : ClaimOnly b (b.addNew r) b.newSlot := by
  rw [Book.addNew_sound hs]
  exact ⟨rfl, rfl, rfl, rfl, rfl, fun _ hk => Table.find_put_ne _ _ _ _ hk, rfl⟩

theorem addNew_slot {b : Book} (hs : StoreSound b) (r : Record) : (b.addNew r).slot b.newSlot = some (.sound r) := by
  rw [Book.addNew_sound hs]
  exact Book.putSlot_self ..

theorem cover_only {b : Book} (hs : StoreSound b) (r : Record) (n : Nat) : ClaimOnly b (b.cover .live r) n := by
  rw [Book.cover_sound hs]
  exact withRows_only ..

theorem uncover_only {b : Book} (hs : StoreSound b) (r : Record) (n : Nat) : ClaimOnly b (b.uncover .live r) n := by
  rw [Book.uncover_sound hs]
  exact withRows_only ..

/-! ## The state after a claim -/

/-- The claim that ended with the book `b` has been taken in `s`, and leaves `t`. -/
structure Taken (s t : State) (b : Book) : Prop where
  bke : t.book.bke = (b.bumpRows s.book.bke.rows).bke
  bss : t.book.bss = b.bss
  squ : t.book.squ = b.squ
  csc : t.book.csc = b.csc
  mail : t.book.mail = { b.mail with bkeToPanel := t.book.mail.bkeToPanel }
  site : b.cfs = s.book.cfs → SameSite s t

section

variable {s t : State} {b : Book} (h : Taken s t b)
include h

theorem Taken.slot (n : Nat) : t.book.slot n = b.slot n := by unfold Book.slot; rw [h.bke]; rfl

theorem Taken.holds : t.book.bke.holds = b.bke.holds := by rw [h.bke]; rfl

theorem Taken.lastId : t.book.bke.lastId = b.bke.lastId := by rw [h.bke]; rfl

theorem Taken.row (x : Nat) (d : Date) : t.book.row x d = (b.bumpRows s.book.bke.rows).row x d := by
  unfold Book.row; rw [h.bke]

/-- R21: a row that the claim left stands as it was. -/
theorem Taken.row_kept {x : Nat} {d : Date} (hr : b.row x d = s.book.row x d) : t.book.row x d = s.book.row x d := by
  rw [h.row]
  refine (Book.bumpRows_find ..).trans ?_
  show (b.row x d).map _ = _
  rw [hr]
  unfold Book.row
  cases s.book.bke.rows.find (rowKey x d) <;> simp

/-- Spec 95: what a claim keeps. -/
theorem Taken.keeps {m : Mail} {n : Nat} {room : Nat} {d : Date} {f : Nat → Nat → Cell → Cell}
    (hl : LiveClaim (s.book.withMail m) b n room d f) : ClaimKeeps s t n room d where
  bss := h.bss.trans hl.only.bss
  site := h.site hl.only.cfs
  rooms := by rw [h.bke]; exact hl.only.rooms
  horizon := by rw [h.bke]; show b.bke.horizon = _; rw [hl.only.bke]; rfl
  series := by rw [h.bke]; show b.bke.series = _; rw [hl.only.bke]; rfl
  editions := by
    rw [h.bke]
    show b.bke.readEdition = _ ∧ b.bke.writeEdition = _
    rw [hl.only.bke]
    exact ⟨rfl, rfl⟩
  draft := by rw [h.bke]; show b.bke.draft = _; rw [hl.only.bke]; rfl
  slots := fun m hm => (h.slot m).trans (hl.only.slots m hm)
  rows := fun x e hk => h.row_kept (hl.painted.others _ hk)

/-- R21: the rows written, each with its version raised where its cells differ. -/
theorem Taken.goodRows {room : Nat} {d : Date} {f : Nat → Nat → Cell → Cell} (hs : RowsStand s.book room d)
    (hp : RowsBecome s.book.bke.rows b.bke.rows (rowFamily s.book.bke.rooms room) d f) :
    GoodRowsWritten s t room d f := by
  intro x hx
  obtain ⟨r, hr, -⟩ := hs x hx
  obtain ⟨r', hr', hb⟩ := hp x hx r hr
  refine ⟨r, if r.cells = r'.cells then r' else { r' with version := r'.version + 1 }, hr, ?_, fun hn => ?_, fun hg => ?_⟩
  · rw [h.row]
    refine (Book.bumpRows_find ..).trans ?_
    have hfind : s.book.bke.rows.find (rowKey x d) = some r := hr
    simp only [hr', hfind, Option.map_some]
  · rw [hb.kept hn, if_pos rfl]
  · obtain ⟨hg', hw⟩ := hb.written hg
    by_cases hc : r.cells = r'.cells
    · rw [if_pos hc, if_pos hc.symm]
      exact ⟨hg', hb.version, hw⟩
    · rw [if_neg hc, if_neg (Ne.symm hc)]
      exact ⟨hg', congrArg (· + 1) hb.version, hw⟩

theorem Taken.rows {room : Nat} {d : Date} {f : Nat → Nat → Cell → Cell} {start n : Nat}
    (hs : RowsOpen s.book room d start n)
    (hp : RowsBecome s.book.bke.rows b.bke.rows (rowFamily s.book.bke.rooms room) d f) : RowsWritten s t room d f := by
  intro x hx
  obtain ⟨r, r', hr, hr', -, hw⟩ := h.goodRows hs.stand hp x hx
  obtain ⟨y, hy, -, -, hg, -⟩ := hs x hx
  obtain rfl : r = y := Option.some.inj (hr.symm.trans hy)
  obtain ⟨hst, hv, hc⟩ := hw hg
  exact ⟨r, r', hr, hr', hst.trans hg.symm, hv, hc⟩

end

/-- R21, R185: the state after a request whose claim ends with the book `b` and the answer `a`. -/
def State.answered (s : State) (b : Book) (c : Ctx) (a : Answer) : State :=
  { s with book := (b.bumpRows s.book.bke.rows).reply c a }

theorem State.answered_taken (s : State) (b : Book) (c : Ctx) (a : Answer) : Taken s (s.answered b c a) b where
  bke := Book.reply_bke ..
  bss := Book.reply_bss ..
  squ := Book.reply_squ ..
  csc := Book.reply_csc ..
  mail := by rw [show (s.answered b c a).book.mail = b.mail from Book.reply_mail ..]
  site := fun hc =>
    ⟨(Book.reply_committed ..).trans (congrArg Cfs.committed hc), (Book.reply_complete ..).trans (congrArg Cfs.complete hc),
      (Book.reply_number ..).trans (congrArg Cfs.commitNumber hc), (Book.reply_valid ..).trans (congrArg Cfs.valid hc),
      (Book.reply_commit ..).trans (congrArg Cfs.commit hc)⟩

@[simp] theorem State.answered_mail (s : State) (b : Book) (c : Ctx) (a : Answer) : (s.answered b c a).book.mail = b.mail :=
  Book.reply_mail ..

theorem State.answered_replied {s : State} {b : Book} (c : Ctx) (a : Answer) (h : b.hmp = s.book.hmp) :
    Replied s (s.answered b c a) c a :=
  Book.reply_replied s _ (b.bumpRows s.book.bke.rows) c a rfl (congrArg Hmp.out h)

/-- R185: a request whose owner takes it next is answered with what its claim ends with. -/
theorem Asks.runs_claim {i : Instr} {s : State} {c : Ctx} {q : Request} {rest : List Handed} {b : Book} {a : Answer}
    {f : Request → Ctx → Book → Option Book} {op : Book → Attempt (Book × Answer)} (h : Asks s c q rest)
    (hi : exec i s = .next { s with book := s.book.serve q.owner f })
    (hf : f q c (s.book.withRequests rest) = some ((s.book.withRequests rest).answerClaim c op))
    (ho : op (s.book.withRequests rest) = .ok (b, a)) : Runs i s (s.answered b c a) := by
  unfold Runs
  rw [hi, h.serve hf]
  unfold Book.answerClaim State.answered
  rw [ho]
  rfl

/-- R25, R185: a request whose claim refuses with the book as it was is answered, and changes nothing. -/
theorem Asks.runs_refused {i : Instr} {s : State} {c : Ctx} {q : Request} {rest : List Handed} {a : Answer}
    {f : Request → Ctx → Book → Option Book} {op : Book → Attempt (Book × Answer)} (h : Asks s c q rest)
    (hi : exec i s = .next { s with book := s.book.serve q.owner f })
    (hf : f q c (s.book.withRequests rest) = some ((s.book.withRequests rest).answerClaim c op))
    (ho : op (s.book.withRequests rest) = .error (s.book.withRequests rest, a)) :
    ∃ t, Runs i s t ∧ ClaimRefused s t c rest a := by
  rw [h.serve hf] at hi
  exact ⟨_, hi, .of_claim ho rfl⟩

/-- R21, R54, R125: the state after a panel claim that comes to the book `b` and the result `x`. -/
def State.panelAnswered (s : State) (b : Book) (c : PanelClaim) (x : PanelResult) : State :=
  { s with
    book :=
      (b.bumpRows s.book.bke.rows).withMail
        { b.mail with
          bkeToPanel := b.mail.bkeToPanel ++
            [{ claim := c, status := x.answer.toPanel.status, detail := x.answer.toPanel.detail, subject := x.subject,
               placed := x.placed }] } }

theorem State.panelAnswered_taken (s : State) (b : Book) (c : PanelClaim) (x : PanelResult) :
    Taken s (s.panelAnswered b c x) b :=
  ⟨rfl, rfl, rfl, rfl, rfl, fun h => ⟨congrArg Cfs.committed h, congrArg Cfs.complete h, congrArg Cfs.commitNumber h,
    congrArg Cfs.valid h, congrArg Cfs.commit h⟩⟩

/-- R54: the book in which the panel claim at the head has been taken. -/
def Book.withPanelClaims (b : Book) (rest : List PanelClaim) : Book := b.withMail { b.mail with ppuToBke := rest }

theorem panelClaim_eq {s : State} {c : PanelClaim} {rest : List PanelClaim} {b : Book} {x : PanelResult}
    {f : PanelClaim → Book → Option (Book × PanelResult)} (hm : s.book.mail.ppuToBke = c :: rest)
    (hf : f c (s.book.withPanelClaims rest) = some (b, x)) :
    { s with book := s.book.panelClaim f } = s.panelAnswered b c x := by
  unfold Book.panelClaim State.panelAnswered
  simp only [hm, show f c (s.book.withMail { s.book.mail with ppuToBke := rest }) = some (b, x) from hf]
  rfl

/-- R125: the outcome is handed to the PPU where the claim left the hand-overs to panels as they were. -/
theorem State.panelAnswered_answered {s : State} {b : Book} {c : PanelClaim} {x : PanelResult} {rest : List PanelClaim}
    (hr : b.mail.ppuToBke = rest) (hh : b.hmp = s.book.hmp) (hp : b.mail.bkeToPanel = s.book.mail.bkeToPanel) :
    PanelAnswered s (s.panelAnswered b c x) c rest x.answer.toPanel x.subject x.placed :=
  ⟨hr, hh, congrArg (· ++ _) hp⟩

/-- R21: the state after a claim without an answer that ends with the book `b`. -/
def State.settled (s : State) (b : Book) : State := { s with book := b.bumpRows s.book.bke.rows }

theorem State.settled_taken (s : State) (b : Book) : Taken s (s.settled b) b :=
  ⟨rfl, rfl, rfl, rfl, rfl, fun h => ⟨congrArg Cfs.committed h, congrArg Cfs.complete h, congrArg Cfs.commitNumber h,
    congrArg Cfs.valid h, congrArg Cfs.commit h⟩⟩

end Sys2Proof.Machine

/-! SUPPORT. A meeting's first moments (R37, R40, R42, R47): the record made with its cells, the start, and the state CONFIRMED
reached. -/

namespace Sys2Proof.Machine

/-! ## The start of a meeting (R47) -/

section

variable (r : Record) (checkin : Bool) (grace m : Nat)

/-- R47: a start sets the state, the mark and the grace expiry, and no other field. -/
theorem Record.started_kept :
    r.started checkin grace m =
      { r with
        state := (r.started checkin grace m).state, check := (r.started checkin grace m).check
        graceExpiry := (r.started checkin grace m).graceExpiry } := by
  unfold Record.started
  split
  · rfl
  · split <;> rfl

theorem Record.started_state : (r.started checkin grace m).state.started = true := by
  unfold Record.started
  split
  · rfl
  · split <;> rfl

theorem Record.started_check :
    (r.started checkin grace m).check = if r.check = .early then .done else r.check := by
  unfold Record.started
  split
  · rfl
  · split <;> rfl

variable {r}

theorem Record.started_awaits (h : r.check ≠ .early) :
    r.started true grace m = { r with state := .awaitingCheckin, graceExpiry := some (min 1439 (m + grace)) } := if_neg h

theorem Record.started_direct (h : r.check ≠ .early) : r.started false grace m = { r with state := .inProgress } := if_neg h

end

/-! ## A record made with its cells -/

/-- R32, R34, R40: a new record in the lowest empty slot, and its cells. -/
def Book.made (b : Book) (r : Record) : Book := (b.addNew r).cover .live r

section

variable {b : Book} (hs : StoreSound b) (r : Record)
include hs

theorem made_eq :
    b.made r =
      ((b.withBke { b.bke with lastId := b.newId }).putSlot b.newSlot (.sound r)).withRows
        (paintRows b.bke.rows (rowFamily b.bke.rooms r.room) r.date fun x => applyPatches (r.patches x)) := by
  unfold Book.made
  rw [Book.cover_sound ((addNew_only hs r).sound hs), Book.addNew_sound hs]
  rfl

theorem made_slot : (b.made r).slot b.newSlot = some (.sound r) := by
  rw [made_eq hs]
  exact Book.putSlot_self (b.withBke _) _ _

theorem made_only : ClaimOnly b (b.made r) b.newSlot :=
  (addNew_only hs r).trans (cover_only ((addNew_only hs r).sound hs) r _)

/-- R20: the cells a new record covers. -/
theorem made_claim (ht : RowsStandIn b.bke.rows (rowFamily b.bke.rooms r.room) r.date) :
    LiveClaim b (b.made r) b.newSlot r.room r.date r.written := by
  refine ⟨made_only hs r, ?_⟩
  rw [made_eq hs]
  exact cover_painted r ht

/-- R20, R40: the cells of a meeting made in a state past HELD. -/
theorem made_booked {r : Record} (ht : RowsStandIn b.bke.rows (rowFamily b.bke.rooms r.room) r.date)
    (ha : r.state.active = true) (hk : r.kind = .meeting) (hh : r.state ≠ .held) :
    LiveClaim b (b.made r) b.newSlot r.room r.date (spanWritten r.room r.start r.count (heldBuffer r) .booked) :=
  ⟨made_only hs r, (made_claim hs r ht).painted.congr fun x _ k _ c => Record.written_booked ha hk hh x k c⟩

theorem made_lastId : (b.made r).bke.lastId = b.newId := by rw [made_eq hs]; rfl
theorem made_holds : (b.made r).bke.holds = b.bke.holds := by rw [made_eq hs]; rfl
theorem made_squ : (b.made r).squ = b.squ := by rw [made_eq hs]; rfl
theorem made_mail : (b.made r).mail = b.mail := by rw [made_eq hs]; rfl

end

/-! ## CONFIRMED reached (R42, R47) -/

/-- R42, R47: the meeting with this state, check-in mark, grace expiry and run. -/
def Record.reaching (r : Record) (st : BState) (ck : CheckMark) (g run : Option Nat) : Record :=
  { r with state := st, check := ck, graceExpiry := g, run := run }

/-- R47: what a meeting of state `st`, check-in mark `ck` and grace expiry `g` has become of the CONFIRMED meeting `r`, whose
start is taken at once where its start slot has begun. -/
structure StartsAtOnce (b : Book) (t : Ctu) (r : Record) (st : BState) (ck : CheckMark) (g : Option Nat) : Prop where
  later : b.begun t r.date r.start = false → st = .confirmed ∧ ck = r.check ∧ g = r.graceExpiry
  begun : b.begun t r.date r.start = true → st.started = true ∧ ck = if r.check = .early then .done else r.check
  direct : b.begun t r.date r.start = true → r.check ≠ .early → ∀ rm, b.room r.room = some rm → rm.checkin = false →
    st = .inProgress
  awaits : b.begun t r.date r.start = true → r.check ≠ .early → ∀ rm, b.room r.room = some rm → rm.checkin = true →
    st = .awaitingCheckin ∧ g = some (min 1439 (max (360 + 15 * r.start) t.minute + rm.grace))

/-- The start at once, over a book with the same horizon and the same rooms. -/
theorem StartsAtOnce.of_claim {b b' : Book} {n : Nat} {t : Ctu} {r : Record} {st : BState} {ck : CheckMark} {g : Option Nat}
    (h : StartsAtOnce b' t r st ck g) (ho : ClaimOnly b b' n) : StartsAtOnce b t r st ck g := by
  obtain ⟨later, begun, direct, awaits⟩ := h
  simp only [ho.begun, ho.room] at later begun direct awaits
  exact ⟨later, begun, direct, awaits⟩

theorem StartsAtOnce.check {b : Book} {t : Ctu} {r : Record} {st : BState} {ck : CheckMark} {g : Option Nat}
    (h : StartsAtOnce b t r st ck g) (he : r.check ≠ .early) : ck = r.check := by
  cases hb : b.begun t r.date r.start with
  | false => exact (h.later hb).2.1
  | true => exact (h.begun hb).2.trans (if_neg he)

/-- R47: the start at once, by whether the start slot has begun. -/
theorem startsAtOnce (b : Book) (t : Ctu) {r : Record} (hst : r.state = .confirmed) :
    ∃ st ck g,
      (if r.state = .confirmed ∧ b.begun t r.date r.start then
          r.started ((b.room r.room).any fun rm => rm.checkin) (((b.room r.room).map fun rm => rm.grace).getD 0)
            (t.startNow r.start)
        else r) = r.reaching st ck g r.run ∧ StartsAtOnce b t r st ck g := by
  by_cases hb : b.begun t r.date r.start = true
  · rw [if_pos ⟨hst, hb⟩]
    refine ⟨_, _, _, Record.started_kept .., fun h => absurd (hb.symm.trans h) (by decide),
      fun _ => ⟨Record.started_state .., Record.started_check ..⟩, fun _ he rm hrm hc => ?_, fun _ he rm hrm hc => ?_⟩
    · simp only [hrm, Option.any_some, hc, Record.started_direct _ _ he]
    · simp only [hrm, Option.any_some, Option.map_some, Option.getD_some, hc, Record.started_awaits _ _ he, true_and]
      rfl
  · rw [if_neg fun h => hb h.2]
    exact ⟨_, _, _, rfl, fun _ => ⟨hst, rfl, rfl⟩, fun h => absurd h hb, fun h => absurd h hb, fun h => absurd h hb⟩

/-- R42, R43, R47: the record of a meeting that has reached CONFIRMED. -/
theorem confirmed_reaches {b : Book} {n : Nat} {r : Record} (hs : StoreSound b) (hr : b.slot n = some (.sound r))
    (t : Ctu) (hst : r.state = .confirmed) :
    RecordOnly b (b.confirmed t n) n ∧
      ∃ st ck g run,
        (b.confirmed t n).slot n = some (.sound (r.reaching st ck g run)) ∧
        StartsAtOnce b t r st ck g ∧
        ∀ rm, b.room r.room = some rm →
          run = if (b.squ.templateOf rm).isSome then some b.squ.newRunId else r.run := by
  obtain ⟨only, run, hslot, hrun⟩ := confirmed_spec hs hr t
  obtain ⟨st, ck, g, heq, hstart⟩ := startsAtOnce b t (r := { r with run := run }) hst
  refine ⟨only, st, ck, g, run, ?_, ⟨hstart.later, hstart.begun, hstart.direct, hstart.awaits⟩, hrun⟩
  rw [hslot]
  exact congrArg (fun x => some (RecSlot.sound x)) heq

/-! ## BOOK (R40) -/

theorem spanCheck_of {t : Ctu} {b : Book} {d : Date} {start count : Nat} (h : SpanPasses t b d start count) {bad : Bool}
    (hb : bad = false) : b.spanCheck t d start count bad = none := hb ▸ h.check

theorem FieldsOk.bad {f : BookFields} (h : FieldsOk f) : bookBad f = false := h

theorem bookedReply_slot {b : Book} {n : Nat} {r : Record} (h : b.slot n = some (.sound r)) :
    b.bookedReply n = Answer.ok (.booked (b.placed r) r.state r.run) := by
  simp only [Book.bookedReply, Book.soundAt, h]

section

variable {t : Ctu} {b : Book} {f : BookFields} {rm : Room}

theorem bookLive_passes (hs : StoreSound b) (hf : FieldsOk f) (hspan : SpanPasses t b f.date f.start f.count)
    (hroom : RoomTakes b f.room f.attendees rm) (htab : TablesOpen b rm)
    (hopen : RowsOpen b f.room f.date f.start (f.count + clipBuffer (f.start + f.count) (b.squ.bufferOf rm))) :
    let r := bookRecord f b.newId (clipBuffer (f.start + f.count) (b.squ.bufferOf rm)) .live .host .confirmed
    let b' := (b.made r).confirmed t b.newSlot
    Book.bookLive t f b = .ok (b', b'.bookedReply b.newSlot) := by
  intro r b'
  unfold Book.bookLive
  simp only [spanCheck_of hspan hf, hroom.bookable, hopen.conflict hs, htab.1, htab.2, refuseWith, refuseIf, firstFail, bind,
    Except.bind, pure, Except.pure]
  rfl

/-- R40, R42, R47: what BOOK makes where its checks pass. -/
theorem bookLive_makes (hs : StoreSound b) (hf : FieldsOk f) (hspan : SpanPasses t b f.date f.start f.count)
    (hroom : RoomTakes b f.room f.attendees rm) (htab : TablesOpen b rm)
    (hopen : RowsOpen b f.room f.date f.start (f.count + clipBuffer (f.start + f.count) (b.squ.bufferOf rm))) :
    let buf := clipBuffer (f.start + f.count) (b.squ.bufferOf rm)
    let r := bookRecord f b.newId buf .live .host .confirmed
    ∃ b' st ck g x,
      Book.bookLive t f b = .ok (b', Answer.ok (.booked (b.placed (r.reaching st ck g x)) st x)) ∧
      b'.slot b.newSlot = some (.sound (r.reaching st ck g x)) ∧ StartsAtOnce b t r st ck g ∧
      x = (if (b.squ.templateOf rm).isSome then some b.squ.newRunId else none) ∧
      LiveClaim b b' b.newSlot f.room f.date (spanWritten f.room f.start f.count buf .booked) ∧
      b'.bke.lastId = b.newId ∧ b'.bke.holds = b.bke.holds := by
  intro buf r
  have made := made_booked hs (r := r) hopen.stand rfl rfl (fun h => by cases h)
  rw [heldBuffer_fitted (r := r) rfl] at made
  obtain ⟨only, st, ck, g, x, hslot, starts, hrun⟩ := confirmed_reaches (made.only.sound hs) (made_slot hs r) t rfl
  have claim := made.record only
  refine ⟨_, st, ck, g, x, ?_, hslot, starts.of_claim made.only, ?_, claim, ?_, ?_⟩
  · rw [bookLive_passes hs hf hspan hroom htab hopen, bookedReply_slot hslot, claim.only.placed]
    rfl
  · rw [hrun rm ((made.only.room _).trans hroom.1), made_squ hs]
    rfl
  · rw [only.bke]; exact made_lastId hs r
  · rw [only.bke]; exact made_holds hs r

end

end Sys2Proof.Machine

/-! PROOFS. BOOK (R40, R42, R47) and the conflict test (R24, R25). -/

namespace Sys2Proof.Machine

theorem bookRequest_live {t : Ctu} {b : Book} (f : BookFields) (h : b.bke.writeEdition = .live) :
    Book.bookRequest t f b = Book.bookLive t f b := if_neg (by rw [h]; decide)

theorem bookRequest_draft {t : Ctu} {b : Book} (f : BookFields) (h : b.bke.writeEdition = .draft) :
    Book.bookRequest t f b = Book.bookDraft t f b := if_pos h

theorem trySoundDraft_sound {b : Book} (h : b.bke.draft.damaged = false) : b.trySoundDraft = .ok () := by
  unfold Book.trySoundDraft
  rw [h]
  rfl

/-- R25: a BOOK that the conflict test refuses ends with its outcome, in either edition. -/
theorem bookRequest_refused {t : Ctu} {b : Book} {f : BookFields} {rm : Room} {a : Answer}
    (hb : TestReady b b.bke.writeEdition f.room f.date) (hf : FieldsOk f)
    (hspan : SpanPasses t b f.date f.start f.count) (hroom : RoomTakes b f.room f.attendees rm)
    (ha : TestRefuses b b.bke.writeEdition f.room f.date f.start f.count
      (clipBuffer (f.start + f.count) (b.squ.bufferOf rm)) none a) :
    Book.bookRequest t f b = .error (b, a) := by
  have hrefused := ha.refused hb
  cases he : b.bke.writeEdition with
  | live =>
    rw [he] at hrefused
    rw [bookRequest_live f he]
    simp only [Book.bookLive, spanCheck_of hspan hf, hroom.bookable, hrefused, refuseWith, bind, Except.bind]
  | draft =>
    rw [he] at hrefused
    rw [bookRequest_draft f he]
    simp only [Book.bookDraft, trySoundDraft_sound (hb.draft he), spanCheck_of hspan hf, hroom.bookable, hrefused,
      refuseWith, bind, Except.bind]

/-- Settles O22: BOOK by the record it makes and the state it reaches at once; the conflict test by its outcomes. -/
theorem bookMakesAConfirmedMeeting : Obligations.BookMakesAConfirmedMeeting := by
  refine ⟨fun s c f rest rm hq hlive hs hf hspan hroom htab => ?_,
    fun s c f rest rm a hq hb hf hspan hroom ha => hq.runs_refused (i := .book) rfl rfl
      (bookRequest_refused (hb.taken _) hf hspan hroom (ha.taken _)),
    fun b ed room d start count buf excl hd => ⟨conflict_passes hd start count buf excl, fun hw a ha => ha.answer hw hd⟩⟩
  intro buf hopen
  obtain ⟨b', st, ck, g, x, hbook, hslot, starts, hrun, claim, hlast, hholds⟩ :=
    bookLive_makes (b := s.book.withRequests rest) hs hf hspan hroom htab hopen
  have run := hq.runs_claim (i := .book) rfl rfl ((bookRequest_live (b := s.book.withRequests rest) f hlive).trans hbook)
  have taken := s.answered_taken b' c
  have fresh : (bookRecord f s.book.newId buf .live .host .confirmed).check ≠ .early := fun h => by cases h
  exact ⟨_, _, run, ((taken _).slot _).trans hslot, rfl, rfl, rfl, rfl, rfl, rfl, rfl, rfl, rfl, rfl, rfl, rfl, rfl,
    starts.check fresh, hrun, fun h => ⟨(starts.later h).1, (starts.later h).2.2⟩, fun h => starts.direct h fresh rm hroom.1,
    fun h => starts.awaits h fresh rm hroom.1, (taken _).lastId.trans hlast,
    (taken _).holds.trans hholds, (congrArg Mail.requests (s.answered_mail b' c _)).trans claim.only.requests,
    s.answered_replied c _ claim.only.hmp, (taken _).rows hopen claim.painted.painted, (taken _).keeps claim, (taken _).csc.trans claim.only.csc⟩

end Sys2Proof.Machine

/-! SUPPORT. HOLD and CONFIRM (R36, R37, R39): what each makes where its checks pass, and that the conflict test refuses it. -/

namespace Sys2Proof.Machine

/-! ## Cells written behind changes that write none -/

section

variable {b b' : Book} {n : Nat} (h : ClaimOnly b b' n) (hrows : b'.bke.rows = b.bke.rows) (hs : StoreSound b) (r : Record)
  (ht : RowsStandIn b.bke.rows (rowFamily b.bke.rooms r.room) r.date)
include h hrows hs ht

theorem ClaimOnly.covered : LiveClaim b (b'.cover .live r) n r.room r.date r.written := by
  refine ⟨h.trans (cover_only (h.sound hs) r n), ?_⟩
  rw [Book.cover_sound (h.sound hs), hrows, h.rooms]
  exact cover_painted r ht

theorem ClaimOnly.uncovered : LiveClaim b (b'.uncover .live r) n r.room r.date fun _ => r.cleared := by
  refine ⟨h.trans (uncover_only (h.sound hs) r n), ?_⟩
  rw [Book.uncover_sound (h.sound hs), hrows, h.rooms]
  exact uncover_painted r ht

end

theorem LiveClaim.congr {b b' : Book} {n room : Nat} {d : Date} {f g : Nat → Nat → Cell → Cell}
    (h : LiveClaim b b' n room d f) (hfg : ∀ x ∈ rowFamily b.bke.rooms room, ∀ k, k < 64 → ∀ c, f x k c = g x k c) :
    LiveClaim b b' n room d g := ⟨h.only, h.painted.congr hfg⟩

section

variable {b : Book} (hs : StoreSound b) (r : Record)
include hs

theorem cover_slot (n : Nat) : (b.cover .live r).slot n = b.slot n := by rw [Book.cover_sound hs]; rfl
theorem cover_squ : (b.cover .live r).squ = b.squ := by rw [Book.cover_sound hs]; rfl
theorem cover_holds : (b.cover .live r).bke.holds = b.bke.holds := by rw [Book.cover_sound hs]; rfl

end

/-! ## HOLD (R37) -/

theorem tryWriteLive_live {b : Book} (h : b.bke.writeEdition = .live) : b.tryWriteLive = .ok () := by
  unfold Book.tryWriteLive
  rw [h]
  rfl

/-- R37: the record of a HOLD. -/
def holdRecord (f : BookFields) (id buf expiry : Nat) : Record :=
  { bookRecord f id buf .live .host .held with holdExpiry := some expiry }

/-- R36, R37: the hold list with a new entry. -/
def Book.withHold (b : Book) (e : HoldEntry) : Book := b.withBke { b.bke with holds := insertBy (·.expiry) e b.bke.holds }

theorem withHold_only (b : Book) (e : HoldEntry) (n : Nat) : ClaimOnly b (b.withHold e) n :=
  ⟨rfl, rfl, rfl, rfl, rfl, fun _ _ => rfl, rfl⟩

section

variable {t : Ctu} {b : Book} {f : BookFields} {asked : Option Nat} {rm : Room}

/-- R37: the expiry minute of a HOLD. -/
def holdExpiry (t : Ctu) (b : Book) (asked : Option Nat) : Nat :=
  min 1439 (t.minute + if asked.getD 0 = 0 then b.bke.holdMinutes else asked.getD 0)

theorem hold_bad (hf : FieldsOk f) (ha : asked.getD 0 ≤ 30) : (bookBad f || decide (30 < asked.getD 0)) = false := by
  rw [hf.bad, decide_eq_false (Nat.not_lt.mpr ha)]
  rfl

theorem hold_passes (hs : StoreSound b) (hlive : b.bke.writeEdition = .live) (hf : FieldsOk f) (ha : asked.getD 0 ≤ 30)
    (hspan : SpanPasses t b f.date f.start f.count) (hroom : RoomTakes b f.room f.attendees rm)
    (hfull : b.tableFull = false) (hholds : b.bke.holds.length < 64)
    (hopen : RowsOpen b f.room f.date f.start (f.count + clipBuffer (f.start + f.count) (b.squ.bufferOf rm))) :
    let r := holdRecord f b.newId (clipBuffer (f.start + f.count) (b.squ.bufferOf rm)) (holdExpiry t b asked)
    let b' :=
      (((b.addNew r).withHold { id := r.id, expiry := holdExpiry t b asked, spent := t.minute == 1439 }).cover .live r).news
        .holdCreated r
    Book.hold t f asked b = .ok (b', Answer.ok (.hold (b'.placed r) (holdExpiry t b asked))) := by
  have hroomy : decide (Config.maxHolds ≤ b.bke.holds.length) = false := decide_eq_false (Nat.not_le.mpr hholds)
  unfold Book.hold
  simp only [tryWriteLive_live hlive, spanCheck_of hspan (hold_bad hf ha), hroom.bookable, hopen.conflict hs, hfull, hroomy,
    refuseWith, refuseIf, firstFail, bind, Except.bind, pure, Except.pure]
  rfl

/-- R36, R37: what HOLD makes where its checks pass. -/
theorem hold_makes (hs : StoreSound b) (hlive : b.bke.writeEdition = .live) (hf : FieldsOk f) (ha : asked.getD 0 ≤ 30)
    (hspan : SpanPasses t b f.date f.start f.count) (hroom : RoomTakes b f.room f.attendees rm)
    (hfull : b.tableFull = false) (hholds : b.bke.holds.length < 64)
    (hopen : RowsOpen b f.room f.date f.start (f.count + clipBuffer (f.start + f.count) (b.squ.bufferOf rm))) :
    let buf := clipBuffer (f.start + f.count) (b.squ.bufferOf rm)
    let expiry := holdExpiry t b asked
    let r := holdRecord f b.newId buf expiry
    ∃ b', Book.hold t f asked b = .ok (b', Answer.ok (.hold (b.placed r) expiry)) ∧
      b'.slot b.newSlot = some (.sound r) ∧
      LiveClaim b b' b.newSlot f.room f.date (spanWritten f.room f.start f.count buf .held) ∧
      b'.bke.holds =
        insertBy (·.expiry) { id := r.id, expiry := expiry, spent := t.minute == 1439 } b.bke.holds ∧
      b'.squ = b.squ := by
  intro buf expiry r
  generalize hentry : ({ id := r.id, expiry := expiry, spent := t.minute == 1439 } : HoldEntry) = e
  have only := (addNew_only hs r).trans (withHold_only (b.addNew r) e b.newSlot)
  have hsound := only.sound hs
  have covered := only.covered (by rw [Book.addNew_sound hs]; rfl) hs r hopen.stand
  have claim := (covered.congr fun x _ k _ c => Record.written_held (r := r) rfl rfl x k c).record
    (news_only _ b.newSlot .holdCreated r none)
  rw [heldBuffer_fitted (r := r) rfl] at claim
  refine ⟨_, ?_, ?_, claim, ?_, ?_⟩
  · rw [hold_passes hs hlive hf ha hspan hroom hfull hholds hopen, ← claim.only.placed, ← hentry]
  · exact (cover_slot hsound r _).trans (addNew_slot hs r)
  · exact (cover_holds hsound r).trans (by rw [Book.addNew_sound hs]; rfl)
  · exact (cover_squ hsound r).trans (by rw [Book.addNew_sound hs]; rfl)

/-- R25: a HOLD that the conflict test refuses ends with its outcome. -/
theorem hold_refused {a : Answer} (hb : TestReady b .live f.room f.date) (hlive : b.bke.writeEdition = .live)
    (hf : FieldsOk f) (ha : asked.getD 0 ≤ 30) (hspan : SpanPasses t b f.date f.start f.count)
    (hroom : RoomTakes b f.room f.attendees rm)
    (hr : TestRefuses b .live f.room f.date f.start f.count (clipBuffer (f.start + f.count) (b.squ.bufferOf rm)) none a) :
    Book.hold t f asked b = .error (b, a) := by
  simp only [Book.hold, tryWriteLive_live hlive, spanCheck_of hspan (hold_bad hf ha), hroom.bookable, hr.refused hb,
    refuseWith, bind, Except.bind]

end

/-! ## The run of a meeting (R42, R155) -/

section

variable {b : Book} {n : Nat} {r : Record}

/-- R42: a room without a template, or no room of the directory, asks for no run. -/
theorem makeRun_none (hr : b.slot n = some (.sound r)) (h : ∀ rm, b.room r.room = some rm → (b.squ.templateOf rm).isSome = false)
    (m : Option Nat) : b.makeRun n m = b := by
  unfold Book.makeRun
  simp only [Book.soundAt, hr]
  cases hrm : b.room r.room with
  | none => rfl
  | some rm => simp only [h rm hrm, Bool.false_eq_true, if_false]

/-- R42, R155: a room with a template has the run created, behind the reports handed before. -/
theorem makeRun_some (hr : b.slot n = some (.sound r)) {rm : Room} (hrm : b.room r.room = some rm)
    (h : (b.squ.templateOf rm).isSome = true) (m : Option Nat) :
    b.makeRun n m =
      (b.inClaim fun q =>
        { q.create b.squ.newRunId r.id r.room rm r.date r.start r.count m with lastRun := b.squ.newRunId }).putRecord n
          { r with run := some b.squ.newRunId } := by
  unfold Book.makeRun
  simp only [Book.soundAt, hr, hrm, h, if_true]

theorem startIfBegun_squ (b : Book) (t : Ctu) (n : Nat) : (b.startIfBegun t n).squ = b.squ := by
  unfold Book.startIfBegun
  cases b.soundAt n with
  | none => rfl
  | some r =>
    dsimp only
    split
    · unfold Book.startMeeting Book.anchorEarly
      cases b.soundAt n with
      | none => rfl
      | some r => dsimp only; split <;> rfl
    · rfl

/-- R42: the runs after a meeting has reached CONFIRMED are those after its own is made. -/
theorem confirmed_squ (hr : b.slot n = some (.sound r)) (t : Ctu) :
    (b.confirmed t n).squ = (b.makeRun n r.earlyMinute).squ := by
  unfold Book.confirmed
  simp only [Book.soundAt, hr, startIfBegun_squ]
  rfl

/-- R42, R155: the run of a meeting that has reached CONFIRMED, by whether its room has a template. -/
theorem confirmed_run (hr : b.slot n = some (.sound r)) (t : Ctu) {rm : Room} (hrm : b.room r.room = some rm) :
    ((b.squ.templateOf rm).isSome = false → (b.confirmed t n).squ = b.squ) ∧
      ((b.squ.templateOf rm).isSome = true →
        ∃ x, (b.confirmed t n).squ.runs.find b.squ.newRunId = some x ∧ x.booking = r.id ∧ x.room = r.room ∧
          x.date = r.date ∧ x.state = .armed ∧ x.startMinute = 360 + 15 * r.start ∧
          x.endMinute = 360 + 15 * (r.start + r.count)) := by
  rw [confirmed_squ hr t]
  refine ⟨fun h => ?_, fun h => ?_⟩
  · rw [makeRun_none hr fun y hy => by rwa [← Option.some.inj (hrm.symm.trans hy)]]
  · obtain ⟨⟨k, x⟩, hk⟩ := Option.isSome_iff_exists.mp h
    have hk' : b.squTaken.templateOf rm = some (k, x) := by
      unfold Squ.templateOf
      rw [(squTaken_same b).templates]
      exact hk
    obtain ⟨z, hz, hfresh, -⟩ :=
      create_spec hk' b.squ.newRunId r.id r.room r.date r.start r.count r.earlyMinute
    rw [makeRun_some hr hrm h]
    obtain ⟨hroom, hdate, hstart, hstop⟩ := hfresh.place
    exact ⟨z, hz.found, hfresh.ids.2.1, hroom, hdate, hfresh.basis.2.2, hstart, hstop⟩

end

/-! ## CONFIRM (R39) -/

theorem closureRefusal_meeting {r : Record} (h : r.kind = .meeting) :
    closureRefusal r = (false, Answer.because .refused .closure) := by
  unfold closureRefusal
  rw [h]
  rfl

theorem reachedReply_slot {b : Book} {n : Nat} {r : Record} (h : b.slot n = some (.sound r)) :
    b.reachedReply n = Answer.ok (.reached r.id r.state r.run) := by
  simp only [Book.reachedReply, Book.soundAt, h]

/-- R39: a hold as it is confirmed. -/
def Record.heldConfirmed (r : Record) : Record := { r with state := .confirmed, holdExpiry := none }

section

variable {t : Ctu} {b : Book} {n : Nat} {r : Record}

/-- R39: the hold with its new state and its cells, off the hold list. -/
def Book.holdConfirmed (b : Book) (n : Nat) (r : Record) : Book :=
  ((b.putRecord n r.heldConfirmed).dropHold r.id).cover .live r.heldConfirmed

theorem confirm_passes (hs : StoreSound b) (hh : b.bke.horizon ≠ none) (hr : HoldsLive b n r) (hk : r.kind = .meeting)
    (hst : r.state = .held) (hopen : RowsOpen b r.room r.date r.start 0)
    (hruns : ∀ rm, b.room r.room = some rm → b.runsShort rm = false) :
    let b' := (b.holdConfirmed n r).confirmed t n
    Book.confirm t r.id b = .ok (b', b'.reachedReply n) := by
  have hshort : (b.room r.room).any b.runsShort = false := by
    cases hrm : b.room r.room with
    | none => rfl
    | some rm => simp [hruns rm hrm]
  have htest : b.tryConflict .live r.room r.date r.start 0 0 none = .ok b := hopen.conflict hs
  have hheld : (r.state != .held) = false := by rw [hst]; rfl
  unfold Book.confirm
  simp only [Book.tryHorizon_open hh, hr.tryLive hs, htest, hshort, closureRefusal_meeting hk, hheld, refuseIf, firstFail,
    bind, Except.bind, pure, Except.pure]
  rfl

/-- R39, R42, R47: what CONFIRM makes of a hold where its checks pass. -/
theorem confirm_makes (hs : StoreSound b) (hh : b.bke.horizon ≠ none) (hr : HoldsLive b n r) (hk : r.kind = .meeting)
    (hst : r.state = .held) (hopen : RowsOpen b r.room r.date r.start 0)
    (hruns : ∀ rm, b.room r.room = some rm → b.runsShort rm = false) :
    ∃ b' st ck g x,
      Book.confirm t r.id b = .ok (b', Answer.ok (.reached r.id st x)) ∧
      b'.slot n = some (.sound (r.heldConfirmed.reaching st ck g x)) ∧ StartsAtOnce b t r.heldConfirmed st ck g ∧
      LiveClaim b b' n r.room r.date (spanWritten r.room r.start r.count (heldBuffer r) .booked) ∧
      b'.bke.holds = b.bke.holds.filter (fun h => h.id != r.id) ∧
      (∀ rm, b.room r.room = some rm →
        ((b.squ.templateOf rm).isSome = false → x = r.run ∧ b'.squ = b.squ) ∧
        ((b.squ.templateOf rm).isSome = true →
          x = some b.squ.newRunId ∧
            ∃ y, b'.squ.runs.find b.squ.newRunId = some y ∧ y.booking = r.id ∧ y.room = r.room ∧ y.date = r.date ∧
              y.state = .armed ∧ y.startMinute = 360 + 15 * r.start ∧ y.endMinute = 360 + 15 * (r.start + r.count))) := by
  have put := (putRecord_only hs n r.heldConfirmed).claim
  have only := put.trans (dropHold_only (b.putRecord n r.heldConfirmed) r.id n)
  have hsound := only.sound hs
  have claim : LiveClaim b (b.holdConfirmed n r) n r.room r.date
      (spanWritten r.room r.start r.count (heldBuffer r) .booked) :=
    (only.covered (by rw [Book.putRecord_sound hs]; rfl) hs r.heldConfirmed hopen.stand).congr
    fun x _ k _ c => Record.written_booked (r := r.heldConfirmed) rfl hk (fun h => by cases h) x k c
  have hslot : (b.holdConfirmed n r).slot n = some (.sound r.heldConfirmed) :=
    (cover_slot hsound _ n).trans (putRecord_slot hs n _)
  have hsqu : (b.holdConfirmed n r).squ = b.squ := (cover_squ hsound _).trans (by rw [Book.putRecord_sound hs]; rfl)
  obtain ⟨last, st, ck, g, x, hslot', starts, hrun⟩ := confirmed_reaches (claim.only.sound hs) hslot t rfl
  refine ⟨_, st, ck, g, x, ?_, hslot', starts.of_claim claim.only, claim.record last, ?_, fun rm hrm => ?_⟩
  · rw [confirm_passes hs hh hr hk hst hopen hruns, reachedReply_slot hslot']
    rfl
  · rw [last.bke]
    exact (cover_holds hsound _).trans (by rw [Book.putRecord_sound hs]; rfl)
  · have hrm' := (claim.only.room _).trans hrm
    obtain ⟨without, having⟩ := confirmed_run hslot t hrm'
    have hx := hrun rm hrm'
    rw [hsqu] at without having hx
    exact ⟨fun h => ⟨hx.trans (if_neg (by rw [h]; decide)), without h⟩, fun h => ⟨hx.trans (if_pos h), having h⟩⟩

/-- R25, R39: a CONFIRM over a row that is not GOOD ends with the outcome of the test. -/
theorem confirm_refused {a : Answer} (hb : TestReady b .live r.room r.date) (hh : b.bke.horizon ≠ none)
    (hr : HoldsLive b n r) (hk : r.kind = .meeting) (hst : r.state = .held)
    (ha : TestRefuses b .live r.room r.date r.start 0 0 none a) : Book.confirm t r.id b = .error (b, a) := by
  have hheld : (r.state != .held) = false := by rw [hst]; rfl
  unfold Book.confirm
  simp only [Book.tryHorizon_open hh, hr.tryLive hb.sound, ha.refused hb, closureRefusal_meeting hk, hheld, refuseIf,
    firstFail, bind, Except.bind]

end

end Sys2Proof.Machine

/-! PROOFS. HOLD and CONFIRM (R36, R37, R39, R42). -/

namespace Sys2Proof.Machine

/-- Settles O23: HOLD and CONFIRM by what each makes; both refused as the conflict test refuses them. -/
theorem holdAndConfirm : Obligations.HoldAndConfirm := by
  refine ⟨fun s c f asked rest rm hq hlive hs hf ha hspan hroom hfull hholds => ?_,
    fun s c n r rest hq hs hh hr hk hst hopen hruns => ?_,
    fun s c f asked rest rm a hq hlive hb hf ha hspan hroom hr => hq.runs_refused (i := .hold) rfl rfl
      (hold_refused (hb.taken _) hlive hf ha hspan hroom (hr.taken _)),
    fun s c n r rest a hq hb hh hr hk hst ha => hq.runs_refused (i := .confirm) rfl rfl
      (confirm_refused (hb.taken _) hh hr hk hst (ha.taken _))⟩
  · intro buf minutes expiry hopen
    obtain ⟨b', hhold, hslot, claim, hlist, hsqu⟩ :=
      hold_makes (b := s.book.withRequests rest) hs hlive hf ha hspan hroom hfull hholds hopen
    have run := hq.runs_claim (i := .hold) rfl rfl hhold
    have taken := s.answered_taken b' c
    have hmem : ∀ x, x ∈ b'.bke.holds ↔ x = _ ∨ x ∈ s.book.bke.holds := fun x => by
      rw [hlist]
      exact mem_insertBy ..
    exact ⟨_, _, run, ((taken _).slot _).trans hslot, rfl, rfl, rfl, rfl, rfl, rfl, rfl, rfl, rfl, rfl, rfl, rfl, rfl, rfl,
      rfl, rfl, rfl, ⟨_, (taken _).holds ▸ (hmem _).mpr (.inl rfl), rfl, rfl⟩, fun e he => (taken _).holds ▸ (hmem _).mpr (.inr he),
      (taken _).squ.trans hsqu, (taken _).csc.trans claim.only.csc,
      (congrArg Mail.requests (s.answered_mail b' c _)).trans claim.only.requests, s.answered_replied c _ claim.only.hmp,
      (taken _).rows hopen claim.painted.painted, (taken _).keeps claim⟩
  · obtain ⟨b', st, ck, g, x, hconfirm, hslot, starts, claim, hholds, hrun⟩ :=
      confirm_makes (t := s.ctu) (b := s.book.withRequests rest) hs hh hr hk hst hopen hruns
    have run := hq.runs_claim (i := .confirm) rfl rfl hconfirm
    have taken := s.answered_taken b' c (Answer.ok (.reached r.id st x))
    have hholds' : ∀ e, e ∈ (s.answered b' c (Answer.ok (.reached r.id st x))).book.bke.holds ↔
        e ∈ s.book.bke.holds ∧ e.id ≠ r.id := fun e => by
      rw [taken.holds, hholds]
      simp
    exact ⟨_, _, run, (taken.slot _).trans hslot, rfl, rfl, rfl, rfl, rfl, rfl, fun h => (starts.later h).1,
      fun h => (starts.begun h).1, fun e he => ((hholds' e).mp he).2, fun e he hne => (hholds' e).mpr ⟨he, hne⟩,
      (congrArg Mail.requests (s.answered_mail b' c _)).trans claim.only.requests, s.answered_replied c _ claim.only.hmp,
      fun rm hrm => ⟨fun h => ⟨((hrun rm hrm).1 h).1, taken.squ.trans ((hrun rm hrm).1 h).2⟩,
        fun h => ⟨((hrun rm hrm).2 h).1, taken.squ ▸ ((hrun rm hrm).2 h).2⟩⟩,
      taken.rows hopen claim.painted.painted, taken.keeps claim⟩

end Sys2Proof.Machine

/-! SUPPORT. LOAD (R41) and CLOSE_CELLS in the write edition LIVE (R26): what each makes where its checks pass, and that the
conflict test refuses it. -/

namespace Sys2Proof.Machine

/-! ## LOAD (R41) -/

/-- R41: the record of a LOAD. -/
def loadRecord (f : BookFields) (id buf : Nat) (st : LoadState) : Record :=
  { bookRecord f id buf .live .load ((loadStateOf st).getD .confirmed) with
    check := if st = .checkedIn then .done else .none }

/-- R41: what the state given makes of the record. -/
theorem loadState_reaches {t : Ctu} {b : Book} {n : Nat} {r : Record} (hs : StoreSound b)
    (hr : b.slot n = some (.sound r)) (hst : r.state = .confirmed ∨ r.state = .checkedIn ∨ r.state = .inProgress)
    (past : Bool) :
    RecordOnly b (b.loadState t n r past) n ∧
      ∃ st ck g x,
        (b.loadState t n r past).slot n = some (.sound (r.reaching st ck g x)) ∧
        (r.state ≠ .confirmed → st = r.state ∧ ck = r.check) ∧
        (r.state = .confirmed → past = false → st = .confirmed) ∧
        (r.state = .confirmed → past = true → r.check ≠ .early → ∀ rm, b.room r.room = some rm →
          (rm.checkin = true → st = .awaitingCheckin) ∧ (rm.checkin = false → st = .inProgress)) := by
  have reported (m : Option Nat) : RecordOnly b ((b.makeRun n m).news .confirmed r) n ∧
      ∃ x, ((b.makeRun n m).news .confirmed r).slot n = some (.sound { r with run := x }) := by
    obtain ⟨only, x, hx, -⟩ := makeRun_spec hs hr m
    exact ⟨only.trans (news_only _ n _ r none), x, hx⟩
  unfold Book.loadState
  rcases hst with h | h | h
  · rw [h]
    obtain ⟨only, x, hx⟩ := reported none
    cases past with
    | false => exact ⟨only, _, _, _, x, hx, fun hn => absurd rfl hn, fun _ _ => h, nofun⟩
    | true =>
      obtain ⟨only', hslot⟩ := startMeeting_spec (r := { r with run := x }) (only.sound hs) hx (t.startNow r.start)
      refine ⟨only.trans only', _, _, _, _, hslot.trans (congrArg (fun y => some (RecSlot.sound y))
        (Record.started_kept ..)), fun hn => absurd rfl hn, nofun, fun _ _ he rm hrm => ⟨fun hc => ?_, fun hc => ?_⟩⟩ <;>
        rw [(only.room _).trans hrm]
      · simp only [Option.any_some, hc, Record.started_awaits (r := { r with run := x }) _ _ he]
      · simp only [Option.any_some, hc, Record.started_direct (r := { r with run := x }) _ _ he]
  all_goals
    rw [h]
    obtain ⟨only, x, hx⟩ := reported _
    exact ⟨only, _, _, _, x, hx, fun _ => ⟨h, rfl⟩, nofun, nofun⟩

section

variable {t : Ctu} {b : Book} {f : BookFields} {id : Nat} {st : LoadState} {rm : Room}

/-- R41: the checks of a LOAD before the conflict test pass. -/
structure LoadReaches (t : Ctu) (b : Book) (f : BookFields) (id : Nat) (st : LoadState) (rm : Room) : Prop where
  live : b.bke.writeEdition = .live
  fields : FieldsOk f
  ids : 1 ≤ id ∧ id ≤ 65535 ∧ id ∉ b.usedIds
  horizon : b.bke.horizon.isSome = true ∧ (b.offset f.date).isSome = true
  span : spanInDay f.start f.count = true
  late : b.isToday f.date = true → t.passed (f.start + f.count) = false
  room : RoomTakes b f.room f.attendees rm
  state : st = .confirmed ∨ (b.startPast t f.date f.start = true ∧ (st = .checkedIn ∨ st = .inProgress))

theorem LoadReaches.bad (h : LoadReaches t b f id st rm) :
    (bookBad f || id == 0 || decide (65535 < id) || (loadStateOf st).isNone) = false := by
  obtain ⟨h1, h2, -⟩ := h.ids
  have hid : (id == 0) = false := beq_eq_false_iff_ne.mpr (by omega)
  have hst : (loadStateOf st).isNone = false := by
    rcases h.state with rfl | ⟨-, rfl | rfl⟩ <;> rfl
  rw [h.fields.bad, hid, hst, decide_eq_false (by omega)]
  rfl

theorem LoadReaches.spanCheck (h : LoadReaches t b f id st rm) :
    b.spanCheckWith f.date f.start f.count
      (bookBad f || id == 0 || decide (65535 < id) || (loadStateOf st).isNone) (t.passed (f.start + f.count)) = none := by
  have hh : b.bke.horizon.isNone = false := by rw [Option.isNone_eq_false_iff]; exact h.horizon.1
  have ho : (b.offset f.date).isNone = false := by rw [Option.isNone_eq_false_iff]; exact h.horizon.2
  have hl : (b.isToday f.date && t.passed (f.start + f.count)) = false := by
    cases ht : b.isToday f.date with
    | false => rfl
    | true => exact h.late ht
  unfold Book.spanCheckWith
  rw [h.bad, hh, ho, h.span, hl]
  rfl

theorem LoadReaches.early (h : LoadReaches t b f id st rm) : (st != .confirmed && !b.startPast t f.date f.start) = false := by
  rcases h.state with rfl | ⟨hp, -⟩
  · rfl
  · rw [hp, Bool.not_true, Bool.and_false]

theorem LoadReaches.fresh (h : LoadReaches t b f id st rm) : b.usedIds.contains id = false := by
  simpa using h.ids.2.2

theorem loadRecord_eq (f : BookFields) (id buf : Nat) (st : LoadState) :
    (let r := bookRecord f id buf .live .load ((loadStateOf st).getD .confirmed)
     if r.state = .checkedIn then { r with check := .done } else r) = loadRecord f id buf st := by
  cases st <;> rfl

theorem load_passes (hs : StoreSound b) (h : LoadReaches t b f id st rm) (htab : TablesOpen b rm)
    (hopen : RowsOpen b f.room f.date f.start (f.count + clipBuffer (f.start + f.count) (b.squ.bufferOf rm))) :
    let r := loadRecord f id (clipBuffer (f.start + f.count) (b.squ.bufferOf rm)) st
    let b' := ((b.addRecord r).cover .live r).loadState t b.newSlot r (b.startPast t f.date f.start)
    Book.load t f id st b = .ok (b', b'.reachedReply b.newSlot) := by
  intro r b'
  have hr := loadRecord_eq f id (clipBuffer (f.start + f.count) (b.squ.bufferOf rm)) st
  dsimp only at hr
  unfold Book.load
  simp only [tryWriteLive_live h.live, h.spanCheck, h.early, h.fresh, h.room.bookable, hopen.conflict hs, htab.1, htab.2, hr,
    refuseWith, refuseIf, firstFail, bind, Except.bind, pure, Except.pure]
  rfl

/-- R41: what LOAD makes where its checks pass. -/
theorem load_makes (hs : StoreSound b) (h : LoadReaches t b f id st rm) (htab : TablesOpen b rm)
    (hopen : RowsOpen b f.room f.date f.start (f.count + clipBuffer (f.start + f.count) (b.squ.bufferOf rm))) :
    let buf := clipBuffer (f.start + f.count) (b.squ.bufferOf rm)
    let past := b.startPast t f.date f.start
    ∃ b' bst ck g x,
      let r := (loadRecord f id buf st).reaching bst ck g x
      Book.load t f id st b = .ok (b', Answer.ok (.reached id bst x)) ∧ b'.slot b.newSlot = some (.sound r) ∧
      b'.bke.lastId = b.bke.lastId ∧
      (st = .checkedIn → bst = .checkedIn ∧ ck = .done) ∧ (st = .inProgress → bst = .inProgress) ∧
      (st = .confirmed → past = false → bst = .confirmed) ∧
      (st = .confirmed → past = true → rm.checkin = true → bst = .awaitingCheckin) ∧
      (st = .confirmed → past = true → rm.checkin = false → bst = .inProgress) ∧
      LiveClaim b b' b.newSlot f.room f.date (spanWritten f.room f.start f.count buf .booked) := by
  intro buf past
  generalize hr : loadRecord f id buf st = r
  have hconfirmed : st = .confirmed → r.state = .confirmed ∧ r.check = .none := by rintro rfl; subst hr; exact ⟨rfl, rfl⟩
  have hchecked : st = .checkedIn → r.state = .checkedIn ∧ r.check = .done := by rintro rfl; subst hr; exact ⟨rfl, rfl⟩
  have hprogress : st = .inProgress → r.state = .inProgress := by rintro rfl; subst hr; rfl
  have hthree : r.state = .confirmed ∨ r.state = .checkedIn ∨ r.state = .inProgress :=
    h.state.imp (fun e => (hconfirmed e).1) fun e => e.2.imp (fun e => (hchecked e).1) hprogress
  have hactive : r.state.active = true ∧ r.state ≠ .held := by
    rcases hthree with e | e | e <;> rw [e] <;> exact ⟨rfl, fun h => by cases h⟩
  have hadd : b.addRecord r = b.putSlot b.newSlot (.sound r) := Book.putIndexed_sound hs _ _
  have only : ClaimOnly b (b.addRecord r) b.newSlot := hadd ▸ (putSlot_only b b.newSlot _).claim
  have claim : LiveClaim b ((b.addRecord r).cover .live r) b.newSlot f.room f.date
      (spanWritten f.room f.start f.count buf .booked) := by
    have covered := only.covered (by rw [hadd]; rfl) hs r (by subst hr; exact hopen.stand)
    have booked := covered.congr fun x _ k _ c =>
      Record.written_booked hactive.1 (by subst hr; rfl) hactive.2 x k c
    subst hr
    rwa [heldBuffer_fitted rfl] at booked
  obtain ⟨last, bst, ck, g, x, hslot, hgiven, hlater, hpast⟩ := loadState_reaches (t := t) (claim.only.sound hs)
    ((cover_slot (only.sound hs) r _).trans (hadd ▸ Book.putSlot_self ..)) hthree past
  have hroom : ((b.addRecord r).cover .live r).room r.room = some rm :=
    (claim.only.room _).trans (by subst hr; exact h.room.1)
  have hmark : st = .confirmed → r.check ≠ .early := fun e => by rw [(hconfirmed e).2]; decide
  refine ⟨_, bst, ck, g, x, ?_, hslot, ?_, fun e => ?_, fun e => ?_, fun e hp => hlater (hconfirmed e).1 hp,
    fun e hp => (hpast (hconfirmed e).1 hp (hmark e) rm hroom).1,
    fun e hp => (hpast (hconfirmed e).1 hp (hmark e) rm hroom).2, claim.record last⟩
  · rw [load_passes hs h htab hopen]
    subst hr
    rw [reachedReply_slot hslot]
    rfl
  · rw [last.bke, Book.cover_sound (only.sound hs), hadd]
    rfl
  · obtain ⟨hstate, hcheck⟩ := hchecked e
    rw [hstate, hcheck] at hgiven
    exact hgiven (by decide)
  · have hstate := hprogress e
    rw [hstate] at hgiven
    exact (hgiven (by decide)).1

/-- R25: a LOAD that the conflict test refuses ends with its outcome. -/
theorem load_refused {a : Answer} (h : LoadReaches t b f id st rm) (hb : TestReady b .live f.room f.date)
    (ha : TestRefuses b .live f.room f.date f.start f.count (clipBuffer (f.start + f.count) (b.squ.bufferOf rm)) none a) :
    Book.load t f id st b = .error (b, a) := by
  simp only [Book.load, tryWriteLive_live h.live, h.spanCheck, h.early, h.fresh, h.room.bookable, ha.refused hb, refuseWith,
    refuseIf, firstFail, bind, Except.bind]

end

/-! ## CLOSE_CELLS (R26) -/

/-- R20, R26: the cells of a closure. -/
theorem Record.written_closed {r : Record} (ha : r.state.active = true) (hk : r.kind = .closure) (hb : r.bufState = .none)
    (x k : Nat) (c : Cell) : r.written x k c = if r.start ≤ k ∧ k < r.start + r.count then .closed else c := by
  simp only [Record.written, Record.spanCell, ha, hk, hb, reduceCtorEq, false_and, true_and, if_true, if_false]

section

variable {t : Ctu} {b : Book} {f : CloseFields} {rm : Room}

/-- R26: the checks of a CLOSE_CELLS before the conflict test pass. -/
structure CloseReaches (t : Ctu) (b : Book) (f : CloseFields) (rm : Room) : Prop where
  index : f.room ≤ 383
  label : labelBad f.label = false
  span : SpanPasses t b f.date f.start f.count
  room : b.room f.room = some rm
  guard : b.bke.guard.contains f.room = false

theorem CloseReaches.spanCheck (h : CloseReaches t b f rm) : b.closeSpan t f = none := by
  refine spanCheck_of h.span ?_
  rw [h.label, decide_eq_false (Nat.not_lt.mpr h.index)]
  rfl

theorem CloseReaches.tryRoom (h : CloseReaches t b f rm) : b.tryRoom f.room = .ok rm := by
  unfold Book.tryRoom
  simp only [h.room, h.guard]
  rfl

theorem closeRequest_live (f : CloseFields) (h : b.bke.writeEdition = .live) :
    Book.closeRequest t f b = Book.closeLive t f b := if_neg (by rw [h]; decide)

theorem closeRequest_draft (f : CloseFields) (h : b.bke.writeEdition = .draft) :
    Book.closeRequest t f b = Book.closeDraft t f b := if_pos h

/-- R26: what CLOSE_CELLS makes in the write edition LIVE where its checks pass. -/
theorem closeLive_makes (hs : StoreSound b) (h : CloseReaches t b f rm) (hfull : b.tableFull = false)
    (hopen : RowsOpen b f.room f.date f.start f.count) :
    let r := closeRecord f b.newId .live
    ∃ b', Book.closeLive t f b = .ok (b', Answer.ok (.closed (b.placed r))) ∧ b'.slot b.newSlot = some (.sound r) ∧
      LiveClaim b b' b.newSlot f.room f.date
        (fun _ k old => if f.start ≤ k ∧ k < f.start + f.count then .closed else old) ∧
      b'.squ = b.squ := by
  intro r
  have claim := ((made_claim hs r hopen.stand).congr fun x _ k _ c => Record.written_closed (r := r) rfl rfl rfl x k c).record
    (news_only _ b.newSlot .closure r none)
  refine ⟨(b.made r).news .closure r, ?_, made_slot hs r, claim, made_squ hs r⟩
  rw [← claim.only.placed]
  unfold Book.closeLive
  simp only [h.spanCheck, h.tryRoom, RowsOpen.conflict (buf := 0) hopen hs, hfull, refuseWith, refuseIf, firstFail, bind,
    Except.bind, pure, Except.pure]
  rfl

/-- R25: a CLOSE_CELLS that the conflict test refuses ends with its outcome, in either edition. -/
theorem closeRequest_refused {a : Answer} (h : CloseReaches t b f rm)
    (hb : TestReady b b.bke.writeEdition f.room f.date)
    (ha : TestRefuses b b.bke.writeEdition f.room f.date f.start f.count 0 none a) :
    Book.closeRequest t f b = .error (b, a) := by
  have hrefused := ha.refused hb
  cases he : b.bke.writeEdition with
  | live =>
    rw [he] at hrefused
    rw [closeRequest_live f he]
    simp only [Book.closeLive, h.spanCheck, h.tryRoom, hrefused, refuseWith, bind, Except.bind]
  | draft =>
    rw [he] at hrefused
    rw [closeRequest_draft f he]
    simp only [Book.closeDraft, trySoundDraft_sound (hb.draft he), h.spanCheck, h.tryRoom, hrefused, refuseWith, bind,
      Except.bind]

end

end Sys2Proof.Machine

/-! SUPPORT. Draft writes over a store without errors (R74, R75, R77): the copies they work on, the cells they write in them, and
what they leave of the book. -/

namespace Sys2Proof.Machine

/-! ## Draft rows -/

/-- The draft index with the draft rows given. -/
def Book.withDraftRows (b : Book) (t : Table DraftRow) : Book := b.withDraft { b.bke.draft with rows := t }

/-- R75: the draft row of a room-day stands undamaged under its own key, with the base version that it had or was copied with
and the cells that `g` gives of those that it had or was copied with. -/
structure DraftRowIs (b : Book) (t : Table DraftRow) (x : Nat) (d : Date) (g : Nat → Cell → Cell) (cells : List Cell)
    (base : Half) (z : DraftRow) : Prop where
  start : draftStart b x d = some (cells, base)
  found : t.find (rowKey x d) = some z
  place : z.room = x ∧ z.date = d
  whole : z.damaged = false
  base : z.base = base
  length : cells.length = 64 ∧ z.cells.length = 64
  cells : ∀ k, k < 64 → cellAt z.cells k = g k (cellAt cells k)

/-- R75: there is such a draft row. -/
def DraftHolds (b : Book) (t : Table DraftRow) (x : Nat) (d : Date) (g : Nat → Cell → Cell) : Prop :=
  ∃ cells base z, DraftRowIs b t x d g cells base z

theorem DraftHolds.congr {b : Book} {t : Table DraftRow} {x : Nat} {d : Date} {g h : Nat → Cell → Cell}
    (hd : DraftHolds b t x d g) (hgh : ∀ k, k < 64 → ∀ c, g k c = h k c) : DraftHolds b t x d h := by
  obtain ⟨cells, base, z, hz⟩ := hd
  exact ⟨cells, base, z, hz.start, hz.found, hz.place, hz.whole, hz.base, hz.length,
    fun k hk => (hz.cells k hk).trans (hgh k hk _)⟩

/-- What a change of one draft row leaves of the others: their room-days have other keys. -/
theorem DraftRowIs.put_other {b : Book} {t : Table DraftRow} {x y : Nat} {d e : Date} {g h : Nat → Cell → Cell}
    {cells cells' : List Cell} {base base' : Half} {z w : DraftRow} (hz : DraftRowIs b t x d g cells base z)
    (hw : DraftRowIs b t y e h cells' base' w) (hne : ¬(e = d ∧ y = x)) (z' : DraftRow) :
    DraftRowIs b (t.put (rowKey x d) z') y e h cells' base' w := by
  refine { hw with found := ?_ }
  rw [Table.find_put_ne _ _ _ _ fun hk => ?_]
  · exact hw.found
  · have hf := hw.found
    rw [hk, hz.found] at hf
    obtain rfl := Option.some.inj hf
    exact hne ⟨hw.place.2.symm.trans hz.place.2, hw.place.1.symm.trans hz.place.1⟩

/-- R75: the cells of a draft row are written. -/
theorem DraftRowIs.paint {b : Book} {t : Table DraftRow} {x : Nat} {d : Date} {g h : Nat → Cell → Cell}
    {cells : List Cell} {base : Half} {z : DraftRow} (hz : DraftRowIs b t x d g cells base z) {f : List Cell → List Cell}
    (hlen : ∀ c, (f c).length = c.length)
    (hcell : ∀ c k, c.length = 64 → k < 64 → cellAt (f c) k = h k (cellAt c k)) :
    DraftRowIs b (t.put (rowKey x d) { z with cells := f z.cells }) x d (fun k c => h k (g k c)) cells base
      { z with cells := f z.cells } :=
  ⟨hz.start, Table.find_put_self .., hz.place, hz.whole, hz.base, ⟨hz.length.1, (hlen _).trans hz.length.2⟩,
    fun k hk => (hcell _ k hz.length.2 hk).trans (congrArg (h k) (hz.cells k hk))⟩

theorem paintDraft_sound {b b₀ : Book} (hs : StoreSound b) {x : Nat} {d : Date} {g : Nat → Cell → Cell} {cells : List Cell}
    {base : Half} {z : DraftRow} (hz : DraftRowIs b₀ b.bke.draft.rows x d g cells base z) (f : List Cell → List Cell) :
    b.paintRow .draft x d f =
      b.withDraftRows (b.bke.draft.rows.put (rowKey x d) { z with cells := f z.cells }) := by
  have hfound : b.draftRow x d = some z := hz.found
  show b.paintDraft x d f = _
  unfold Book.paintDraft
  rw [Book.readDraft_sound hs]
  simp only [hfound, hz.whole, Bool.false_eq_true, if_false]
  obtain ⟨rfl, rfl⟩ := hz.place
  exact Book.fresh_sound (by exact hs) _

/-- R20, R75: what writing the draft rows of a family does. -/
theorem paintDrafts_holds {b₀ : Book} {f : Nat → List Cell → List Cell} {h : Nat → Nat → Cell → Cell}
    (hlen : ∀ x c, (f x c).length = c.length)
    (hcell : ∀ x c k, c.length = 64 → k < 64 → cellAt (f x c) k = h x k (cellAt c k))
    (hid : ∀ x k c, h x k (h x k c) = h x k c) (l : List Nat) (d : Date) {b : Book} (hs : StoreSound b)
    (hl : ∀ x ∈ l, ∃ g, DraftHolds b₀ b.bke.draft.rows x d g) :
    ∃ t, l.foldl (fun b x => b.paintRow .draft x d (f x)) b = b.withDraftRows t ∧
      ∀ y e g, DraftHolds b₀ b.bke.draft.rows y e g →
        DraftHolds b₀ t y e fun k c => if e = d ∧ y ∈ l then h y k (g k c) else g k c := by
  induction l generalizing b with
  | nil => exact ⟨b.bke.draft.rows, rfl, fun y e g hg => hg.congr fun k _ c => by simp⟩
  | cons x l ih =>
    obtain ⟨gx, cells, base, z, hz⟩ := hl x List.mem_cons_self
    have painted := hz.paint (h := h x) (hlen x) (hcell x)
    have step : ∀ y e g, DraftHolds b₀ b.bke.draft.rows y e g →
        DraftHolds b₀ (b.bke.draft.rows.put (rowKey x d) { z with cells := f x z.cells }) y e
          fun k c => if e = d ∧ y = x then h y k (g k c) else g k c := by
      rintro y e g ⟨cells', base', w, hw⟩
      by_cases hne : e = d ∧ y = x
      · obtain ⟨rfl, rfl⟩ := hne
        obtain rfl : z = w := Option.some.inj (hz.found.symm.trans hw.found)
        exact DraftHolds.congr ⟨cells', base', _, hw.paint (h := h y) (hlen y) (hcell y)⟩ fun k _ c => by simp
      · exact DraftHolds.congr ⟨cells', base', w, hz.put_other hw hne _⟩ fun k _ c => (if_neg hne).symm
    obtain ⟨t, ht, hrest⟩ := ih (b := b.withDraftRows (b.bke.draft.rows.put (rowKey x d) { z with cells := f x z.cells }))
      hs fun y hy => by
        obtain ⟨g, hg⟩ := hl y (List.mem_cons_of_mem x hy)
        exact ⟨_, step y d g hg⟩
    refine ⟨t, ?_, fun y e g hg => (hrest y e _ (step y e g hg)).congr fun k _ c => ?_⟩
    · rw [List.foldl_cons, paintDraft_sound hs hz]
      exact ht
    · by_cases he : e = d <;> by_cases hx : y = x <;> by_cases hl : y ∈ l <;> simp [he, hx, hl, hid]

/-- R20, R75: the draft rows after the cover of `r` is written. -/
theorem coverDraft_holds {b b₀ : Book} (hs : StoreSound b) (r : Record)
    (hl : ∀ x ∈ rowFamily b.bke.rooms r.room, ∃ g, DraftHolds b₀ b.bke.draft.rows x r.date g) :
    ∃ t, b.cover .draft r = b.withDraftRows t ∧
      ∀ y e g, DraftHolds b₀ b.bke.draft.rows y e g →
        DraftHolds b₀ t y e fun k c =>
          if e = r.date ∧ y ∈ rowFamily b.bke.rooms r.room then r.written y k (g k c) else g k c := by
  refine paintDrafts_holds (fun x c => applyPatches_length _ c) (fun x c k hc hk => cellAt_cover r x k c (hc ▸ hk))
    (fun x k c => ?_) _ _ hs hl
  unfold Record.written
  split
  · rfl
  · split <;> rfl

/-- R20, R75: the draft rows after the cover of `r` is freed. -/
theorem uncoverDraft_holds {b b₀ : Book} (hs : StoreSound b) (r : Record)
    (hl : ∀ x ∈ rowFamily b.bke.rooms r.room, ∃ g, DraftHolds b₀ b.bke.draft.rows x r.date g) :
    ∃ t, b.uncover .draft r = b.withDraftRows t ∧
      ∀ y e g, DraftHolds b₀ b.bke.draft.rows y e g →
        DraftHolds b₀ t y e fun k c =>
          if e = r.date ∧ y ∈ rowFamily b.bke.rooms r.room then r.cleared k (g k c) else g k c := by
  refine paintDrafts_holds (h := fun _ => r.cleared) (fun x c => freePatches_length _ c)
    (fun x c k hc hk => cellAt_uncover r x k c (hc ▸ hk)) (fun x k c => ?_) _ _ hs hl
  unfold Record.cleared
  split
  · rfl
  · split <;> rfl

/-! ## The copies (R75) -/

section

variable {b : Book} {l : List (Nat × Date)} (h : DraftReady b l)
include h

/-- The room-days a draft write is for have keys of their own. -/
theorem DraftReady.key {p q : Nat × Date} (hp : p ∈ l) (hq : q ∈ l) (hk : rowKey p.1 p.2 = rowKey q.1 q.2) : p = q := by
  have draftEq : b.draftRow p.1 p.2 = b.draftRow q.1 q.2 := congrArg b.bke.draft.rows.find hk
  have rowEq : b.row p.1 p.2 = b.row q.1 q.2 := congrArg b.bke.rows.find hk
  rcases h.rows p hp with ⟨z, hz, hroom, hdate, -⟩ | ⟨hnone, y, hy, hroom, hdate, -⟩ <;>
    rcases h.rows q hq with ⟨w, hw, hroom', hdate', -⟩ | ⟨hnone', w, hw, hroom', hdate', -⟩
  · obtain rfl : z = w := Option.some.inj (hz.symm.trans (draftEq.trans hw))
    exact Prod.ext (hroom.symm.trans hroom') (hdate.symm.trans hdate')
  · rw [draftEq, hnone'] at hz
    cases hz
  · rw [← draftEq, hnone] at hw
    cases hw
  · obtain rfl : y = w := Option.some.inj (hy.symm.trans (rowEq.trans hw))
    exact Prod.ext (hroom.symm.trans hroom') (hdate.symm.trans hdate')

/-- R75: a GOOD live row is copied into a draft row. -/
theorem copyRow_holds {c : Book} (hs : StoreSound c) (hrows : c.bke.rows = b.bke.rows) {p : Nat × Date} (hp : p ∈ l)
    (hnone : b.draftRow p.1 p.2 = none) :
    ∃ t, c.copyRow p = c.withDraftRows t ∧ DraftHolds b t p.1 p.2 (fun _ c => c) ∧
      ∀ q ∈ l, DraftHolds b c.bke.draft.rows q.1 q.2 (fun _ c => c) → DraftHolds b t q.1 q.2 fun _ c => c := by
  rcases h.rows p hp with ⟨z, hz, -⟩ | ⟨-, y, hy, hroom, hdate, hgood, hlen⟩
  · rw [hnone] at hz
    cases hz
  have hy' : c.row p.1 p.2 = some y := by unfold Book.row; rw [hrows]; exact hy
  obtain ⟨z, hz, hcells, hbase, hzroom, hzdate, hwhole⟩ :
      ∃ z : DraftRow, c.copyRow p = c.withDraftRows (c.bke.draft.rows.put (rowKey p.1 p.2) z) ∧ z.cells = y.cells ∧
        z.base = y.version ∧ z.room = p.1 ∧ z.date = p.2 ∧ z.damaged = false := by
    unfold Book.copyRow
    simp only [hy']
    exact ⟨_, Book.fresh_sound (by exact hs) _, rfl, rfl, rfl, rfl, rfl⟩
  have hstart : draftStart b p.1 p.2 = some (y.cells, y.version) := by
    unfold draftStart
    simp only [hnone, hy, Option.map_some]
  have held : DraftHolds b (c.bke.draft.rows.put (rowKey p.1 p.2) z) p.1 p.2 fun _ c => c :=
    ⟨y.cells, y.version, z, hstart, Table.find_put_self .., ⟨hzroom, hzdate⟩, hwhole, hbase, ⟨hlen, hcells ▸ hlen⟩,
      fun k _ => by rw [hcells]⟩
  refine ⟨_, hz, held, fun q hq hheld => ?_⟩
  by_cases hpq : q = p
  · rwa [hpq]
  · obtain ⟨cells, base, w, hw⟩ := hheld
    refine ⟨cells, base, w, { hw with found := ?_ }⟩
    rw [Table.find_put_ne _ _ _ _ fun hk => hpq (h.key hq hp hk)]
    exact hw.found

theorem copyRows_hold (need : List (Nat × Date)) (hneed : ∀ p ∈ need, p ∈ l ∧ b.draftRow p.1 p.2 = none) {c : Book}
    (hs : StoreSound c) (hrows : c.bke.rows = b.bke.rows) :
    ∃ t, need.foldl Book.copyRow c = c.withDraftRows t ∧ (∀ p ∈ need, DraftHolds b t p.1 p.2 fun _ c => c) ∧
      ∀ q ∈ l, DraftHolds b c.bke.draft.rows q.1 q.2 (fun _ c => c) → DraftHolds b t q.1 q.2 fun _ c => c := by
  induction need generalizing c with
  | nil => exact ⟨c.bke.draft.rows, rfl, fun p hp => absurd hp List.not_mem_nil, fun _ _ hq => hq⟩
  | cons p need ih =>
    obtain ⟨hp, hnone⟩ := hneed p List.mem_cons_self
    obtain ⟨t, ht, hheld, hkept⟩ := copyRow_holds h hs hrows hp hnone
    obtain ⟨t', ht', hcopied, hkept'⟩ := ih (fun q hq => hneed q (List.mem_cons_of_mem p hq)) (c := c.withDraftRows t) hs hrows
    refine ⟨t', ?_, fun q hq => ?_, fun q hq hold => hkept' q hq (hkept q hq hold)⟩
    · rw [List.foldl_cons, ht, ht']
      rfl
    · rcases List.mem_cons.mp hq with rfl | hq
      · exact hkept' q hp hheld
      · exact hcopied q hq

end

theorem length_eraseDups_le {α : Type} [BEq α] [LawfulBEq α] (l : List α) : l.eraseDups.length ≤ l.length := by
  induction hn : l.length using Nat.strong_induction_on generalizing l with
  | _ n ih =>
    cases l with
    | nil => simp
    | cons a l =>
      have hlt := List.length_filter_le (fun b => !b == a) l
      have := ih _ (by simp at hn; omega) (l.filter fun b => !b == a) rfl
      rw [List.eraseDups_cons]
      simp at hn ⊢
      omega

theorem readDrafts_sound {b : Book} (hs : StoreSound b) (l : List (Nat × Date)) :
    l.foldl (fun b p => b.readDraft .demand p.1 p.2) b = b := by
  induction l with
  | nil => rfl
  | cons p l ih => rw [List.foldl_cons, Book.readDraft_sound hs, ih]

theorem readLives_sound {b : Book} (hs : StoreSound b) (l : List (Nat × Date)) :
    l.foldl (fun b p => b.readLive .demand p.1 p.2) b = b := by
  induction l with
  | nil => rfl
  | cons p l ih => rw [List.foldl_cons, Book.readLive_sound hs, ih]

/-- R75: every draft row that the room-days need is there, copied where it was not. -/
theorem tryDraftRows_ready {b : Book} (hs : StoreSound b) {l : List (Nat × Date)} (h : DraftReady b l) :
    ∃ t, b.tryDraftRows l = .ok (b.withDraftRows t) ∧ ∀ p ∈ l, DraftHolds b t p.1 p.2 fun _ c => c := by
  have hneed : ∀ p ∈ b.missingDraft l, p ∈ l ∧ b.draftRow p.1 p.2 = none := fun p hp => by
    simpa [Book.missingDraft] using hp
  have hroom : decide (Config.maxDraftRows < b.bke.draft.rows.size + (b.missingDraft l).length) = false := by
    have h1 := length_eraseDups_le (l.filter fun p => (b.draftRow p.1 p.2).isNone)
    have h2 := List.length_filter_le (fun p => (b.draftRow p.1 p.2).isNone) l
    have h3 := h.places
    refine decide_eq_false (Nat.not_lt.mpr ?_)
    unfold Book.missingDraft
    exact le_trans (by omega) h3
  have hgood : b.copyRefusal (b.missingDraft l) = none := by
    have hfind : ((b.missingDraft l).filterMap fun p => b.row p.1 p.2).find? (fun r => r.state != .good) = none := by
      rw [List.find?_eq_none]
      intro y hy
      obtain ⟨p, hp, hrow⟩ := List.mem_filterMap.mp hy
      obtain ⟨hpl, hnone⟩ := hneed p hp
      rcases h.rows p hpl with ⟨z, hz, -⟩ | ⟨-, w, hw, -, -, hgood, -⟩
      · rw [hnone] at hz
        cases hz
      · obtain rfl : w = y := Option.some.inj (hw.symm.trans hrow)
        simp [hgood]
    simp only [Book.copyRefusal, hfind]
  obtain ⟨t, ht, hcopied, hkept⟩ := copyRows_hold h (b.missingDraft l) hneed hs rfl
  refine ⟨t, ?_, fun p hp => ?_⟩
  · unfold Book.tryDraftRows
    simp only [readDrafts_sound hs, trySoundDraft_sound h.sound, hroom, readLives_sound hs, hgood, ht, refuseIf, firstFail,
      refuseWith, bind, Except.bind, pure, Except.pure]
  · rcases h.rows p hp with ⟨z, hz, hroom, hdate, hwhole, hlen⟩ | ⟨hnone, -⟩
    · refine hkept p hp ⟨z.cells, z.base, z, ?_, hz, ⟨hroom, hdate⟩, hwhole, rfl, ⟨hlen, hlen⟩, fun _ _ => rfl⟩
      unfold draftStart
      simp only [hz]
    · exact hcopied p (by simp [Book.missingDraft, hp, hnone])

end Sys2Proof.Machine

/-! SUPPORT. What a draft claim leaves of the book, and the draft records it makes (R74, R77, R81). -/

namespace Sys2Proof.Machine

/-- R77, R81: the claim has changed no more than the records, the last id and the draft. -/
structure DraftClaim (b b' : Book) : Prop where
  hmp : b'.hmp = b.hmp
  mail : b'.mail = b.mail
  squ : b'.squ = b.squ
  csc : b'.csc = b.csc
  bss : b'.bss = b.bss
  bke : b'.bke = { b.bke with records := b'.bke.records, lastId := b'.bke.lastId, draft := b'.bke.draft }

theorem DraftClaim.refl (b : Book) : DraftClaim b b := ⟨rfl, rfl, rfl, rfl, rfl, rfl⟩

theorem DraftClaim.trans {a b c : Book} (h : DraftClaim a b) (k : DraftClaim b c) : DraftClaim a c where
  hmp := k.hmp.trans h.hmp
  mail := k.mail.trans h.mail
  squ := k.squ.trans h.squ
  csc := k.csc.trans h.csc
  bss := k.bss.trans h.bss
  bke := by rw [k.bke, h.bke]

section

variable {b b' : Book} (h : DraftClaim b b')
include h

theorem DraftClaim.sound (hs : StoreSound b) : StoreSound b' := by unfold StoreSound; rw [h.bss]; exact hs

theorem DraftClaim.rooms : b'.bke.rooms = b.bke.rooms := by rw [h.bke]

theorem DraftClaim.rows : b'.bke.rows = b.bke.rows := by rw [h.bke]

theorem DraftClaim.placed (r : Record) : b'.placed r = b.placed r := by unfold Book.placed Book.code; rw [h.rooms]

end

theorem withDraft_claim (b : Book) (d : Draft) : DraftClaim b (b.withDraft d) := ⟨rfl, rfl, rfl, rfl, rfl, rfl⟩

/-- R77, R81: what the state keeps under a draft write. -/
theorem Taken.draftOnly {s t : State} {b' : Book} (h : Taken s t b') {rest : List Handed}
    (hc : DraftClaim (s.book.withRequests rest) b') (hm : t.book.mail = b'.mail) : DraftOnly s t rest where
  rows := fun x d => h.row_kept (congrArg (fun y : Table Row => y.find (rowKey x d)) hc.rows)
  squ := h.squ.trans hc.squ
  csc := h.csc.trans hc.csc
  mail := hm.trans hc.mail
  editions := by
    rw [h.bke]
    show b'.bke.readEdition = _ ∧ b'.bke.writeEdition = _
    rw [hc.bke]
    exact ⟨rfl, rfl⟩

theorem Taken.draft {s t : State} {b' : Book} (h : Taken s t b') : t.book.bke.draft = b'.bke.draft := by rw [h.bke]; rfl

/-- R20, R75: the draft rows of a family that a claim has written. -/
theorem Taken.drafts {s t : State} {b' : Book} (h : Taken s t b') {m : Mail} {room : Nat} {d : Date}
    {f : Nat → Nat → Cell → Cell}
    (hd : ∀ x ∈ rowFamily s.book.bke.rooms room, DraftHolds (s.book.withMail m) b'.bke.draft.rows x d (f x)) :
    DraftWritten s t room d f := by
  intro x hx
  obtain ⟨cells, base, z, hz⟩ := hd x hx
  refine ⟨z, cells, base, hz.start, ?_, hz.base, hz.cells⟩
  unfold Book.draftRow
  rw [h.draft]
  exact hz.found

/-- A claim that leaves the book as it was leaves the BKE as it was. -/
theorem Taken.sameBke {s t : State} {m : Mail} (h : Taken s t (s.book.withMail m)) : SameBke s t :=
  ⟨by rw [h.bke]; rfl, fun _ _ => h.row_kept rfl⟩

/-- R74, R77: a draft record in the lowest empty slot, listed, without its cells. -/
def Book.listDraft (b : Book) (r : Record) : Book :=
  (b.addNew r).withDraft { b.bke.draft with records := b.bke.draft.records ++ [r.id] }

section

variable {b : Book} (hs : StoreSound b) (r : Record)
include hs

theorem addDraft_eq : b.addDraft r = (b.listDraft r).cover .draft r := by
  unfold Book.addDraft Book.listDraft
  rw [Book.addNew_sound hs]
  rfl

theorem listDraft_claim : DraftClaim b (b.listDraft r) := by
  unfold Book.listDraft
  rw [Book.addNew_sound hs]
  exact ⟨rfl, rfl, rfl, rfl, rfl, rfl⟩

theorem listDraft_slot (m : Nat) : (b.listDraft r).slot m = if m = b.newSlot then some (.sound r) else b.slot m := by
  unfold Book.listDraft
  rw [Book.addNew_sound hs]
  exact Table.find_put ..

/-- R77: what a new draft record makes: it, its entry in the draft record list, and its cells in the draft rows. -/
theorem addDraft_makes {b₀ : Book}
    (hl : ∀ x ∈ rowFamily b.bke.rooms r.room, ∃ g, DraftHolds b₀ b.bke.draft.rows x r.date g) :
    DraftClaim b (b.addDraft r) ∧
      (∀ m, (b.addDraft r).slot m = if m = b.newSlot then some (.sound r) else b.slot m) ∧
      (b.addDraft r).bke.draft.records = b.bke.draft.records ++ [r.id] ∧
      (b.addDraft r).bke.draft.marked = b.bke.draft.marked ∧
      ∀ y e g, DraftHolds b₀ b.bke.draft.rows y e g →
        DraftHolds b₀ (b.addDraft r).bke.draft.rows y e fun k c =>
          if e = r.date ∧ y ∈ rowFamily b.bke.rooms r.room then r.written y k (g k c) else g k c := by
  have listed := listDraft_claim hs r
  obtain ⟨t, ht, hheld⟩ := coverDraft_holds (b₀ := b₀) (listed.sound hs) r (by rw [listed.rooms]; exact hl)
  rw [addDraft_eq hs, ht]
  rw [listed.rooms] at hheld
  exact ⟨listed.trans (withDraft_claim _ _), listDraft_slot hs r, rfl, rfl, hheld⟩

end

theorem DraftReady.taken {b : Book} {l : List (Nat × Date)} (h : DraftReady b l) (m : Mail) : DraftReady (b.withMail m) l :=
  ⟨h.sound, h.places, h.rows⟩

/-! ## CLOSE_CELLS in the write edition DRAFT (R77) -/

theorem mem_familyDays {b : Book} {room x : Nat} {d e : Date} :
    (x, e) ∈ b.familyDays room d ↔ e = d ∧ x ∈ rowFamily b.bke.rooms room := by
  simp [Book.familyDays, and_comm, eq_comm]

/-- R24, R25: over a sound store a conflict test that passes leaves the book as it was. -/
theorem tryConflict_passes {b : Book} (hs : StoreSound b) {ed : Edition} {room : Nat} {d : Date} {start count buf : Nat}
    {excl : Option Record} (h : b.conflict ed room d start count buf excl = none) :
    b.tryConflict ed room d start count buf excl = .ok b := by
  unfold Book.tryConflict
  simp only [Book.readFamily_sound hs, h]

theorem draftListFull_short {b : Book} (h : b.bke.draft.records.length < 512) : b.draftListFull = false :=
  decide_eq_false (Nat.not_le.mpr h)

/-- R77: what CLOSE_CELLS makes in the write edition DRAFT where its checks pass. -/
theorem closeDraft_makes {t : Ctu} {b : Book} {f : CloseFields} {rm : Room} (hs : StoreSound b) (h : CloseReaches t b f rm)
    (hfull : b.tableFull = false) (hlist : b.bke.draft.records.length < 512)
    (hready : DraftReady b (b.familyDays f.room f.date))
    (htest : b.conflict .draft f.room f.date f.start f.count 0 none = none) :
    let r := closeRecord f b.newId .draft
    ∃ b', Book.closeDraft t f b = .ok (b', Answer.ok (.closed (b.placed r))) ∧ DraftClaim b b' ∧
      (∀ m, b'.slot m = if m = b.newSlot then some (.sound r) else b.slot m) ∧
      b'.bke.draft.records = b.bke.draft.records ++ [r.id] ∧ b'.bke.draft.marked = b.bke.draft.marked ∧
      ∀ x ∈ rowFamily b.bke.rooms f.room, DraftHolds b b'.bke.draft.rows x f.date
        fun k old => if f.start ≤ k ∧ k < f.start + f.count then .closed else old := by
  intro r
  obtain ⟨rows, hrows, hheld⟩ := tryDraftRows_ready hs hready
  have hheld' : ∀ x ∈ rowFamily b.bke.rooms f.room, DraftHolds b rows x f.date fun _ c => c := fun x hx =>
    hheld (x, f.date) (mem_familyDays.mpr ⟨rfl, hx⟩)
  obtain ⟨claim, hslot, hrecords, hmarked, hwritten⟩ := addDraft_makes (b := b.withDraftRows rows) (b₀ := b) hs r
    fun x hx => ⟨_, hheld' x hx⟩
  have claim := (withDraft_claim b _).trans claim
  refine ⟨_, ?_, claim, hslot, hrecords, hmarked, fun x hx => (hwritten x f.date _ (hheld' x hx)).congr fun k _ c => ?_⟩
  · rw [← claim.placed]
    unfold Book.closeDraft
    simp only [trySoundDraft_sound hready.sound, h.spanCheck, h.tryRoom, tryConflict_passes hs htest, hfull,
      draftListFull_short hlist, hrows, refuseWith, refuseIf, firstFail, bind, Except.bind, pure, Except.pure]
    rfl
  · rw [if_pos ⟨rfl, hx⟩]
    exact Record.written_closed (r := r) rfl rfl rfl x k c

end Sys2Proof.Machine

/-! PROOFS. LOAD (R41) and CLOSE_CELLS in either write edition (R26, R77). -/

namespace Sys2Proof.Machine

/-- Settles O24: LOAD by the state given; CLOSE_CELLS by the write edition; both refused as the conflict test refuses them. -/
theorem loadAndCloseCells : Obligations.LoadAndCloseCells := by
  refine ⟨fun s c f id st rest rm hq hlive hs hf h1 h65535 hid hh ho hspan hlate hroom htab => ?_,
    fun s c f rest rm hq hlive hs hindex hlabel hspan hroom hguard hfull hopen => ?_,
    fun s c f rest rm hq hdraft hs hindex hlabel hspan hroom hguard hfull hlist hready htest => ?_,
    fun s c f id st rest rm a hq hlive hb hf h1 h65535 hid hh ho hspan hlate hroom hst ha => ?_,
    fun s c f rest rm a hq hb hindex hlabel hspan hroom hguard ha => ?_⟩
  · intro buf hopen past hst
    obtain ⟨b', bst, ck, g, x, hload, hslot, hlast, hchecked, hprogress, hlater, hawaits, hdirect, claim⟩ :=
      load_makes (t := s.ctu) (b := s.book.withRequests rest) hs
        ⟨hlive, hf, ⟨h1, h65535, hid⟩, ⟨hh, ho⟩, hspan, hlate, hroom, hst⟩ htab hopen
    have run := hq.runs_claim (i := .load) rfl rfl hload
    have taken := s.answered_taken b' c (Answer.ok (.reached id bst x))
    exact ⟨_, _, run, (taken.slot _).trans hslot, rfl, rfl, rfl, rfl, rfl, rfl, rfl, rfl, rfl, taken.lastId.trans hlast,
      hchecked, hprogress, hlater, hawaits, hdirect,
      (congrArg Mail.requests (s.answered_mail b' c _)).trans claim.only.requests, s.answered_replied c _ claim.only.hmp,
      taken.rows hopen claim.painted.painted, taken.keeps claim⟩
  · obtain ⟨b', hclose, hslot, claim, hsqu⟩ := closeLive_makes (b := s.book.withRequests rest) hs
      ⟨hindex, hlabel, hspan, hroom, hguard⟩ hfull hopen
    have run := hq.runs_claim (i := .closeCells) rfl rfl
      ((closeRequest_live (b := s.book.withRequests rest) f hlive).trans hclose)
    have taken := s.answered_taken b' c (Answer.ok (.closed (s.book.placed (closeRecord f s.book.newId .live))))
    exact ⟨_, _, run, (taken.slot _).trans hslot, rfl, rfl, rfl, rfl, rfl, rfl, rfl, rfl, rfl, rfl, rfl,
      taken.squ.trans hsqu, taken.csc.trans claim.only.csc,
      (congrArg Mail.requests (s.answered_mail b' c _)).trans claim.only.requests, s.answered_replied c _ claim.only.hmp,
      taken.rows hopen claim.painted.painted, taken.keeps claim⟩
  · obtain ⟨b', hclose, claim, hslot, hrecords, hmarked, hwritten⟩ :=
      closeDraft_makes (b := s.book.withRequests rest) hs ⟨hindex, hlabel, hspan, hroom, hguard⟩ hfull hlist (hready.taken _)
        htest
    have run := hq.runs_claim (i := .closeCells) rfl rfl
      ((closeRequest_draft (b := s.book.withRequests rest) f hdraft).trans hclose)
    have taken := s.answered_taken b' c (Answer.ok (.closed (s.book.placed (closeRecord f s.book.newId .draft))))
    exact ⟨_, _, run, taken.draftOnly claim (s.answered_mail ..), (taken.slot _).trans ((hslot _).trans (if_pos rfl)), rfl,
      rfl, rfl, rfl, rfl, rfl, rfl, rfl, rfl, rfl, fun m hm => (taken.slot m).trans ((hslot m).trans (if_neg hm)),
      (congrArg Draft.records taken.draft).trans hrecords, (congrArg Draft.marked taken.draft).trans hmarked,
      s.answered_replied c _ claim.hmp, taken.drafts hwritten⟩
  · exact hq.runs_refused (i := .load) rfl rfl (load_refused (t := s.ctu) (b := s.book.withRequests rest)
      ⟨hlive, hf, ⟨h1, h65535, hid⟩, ⟨hh, ho⟩, hspan, hlate, hroom, hst⟩ (hb.taken _) (ha.taken _))
  · exact hq.runs_refused (i := .closeCells) rfl rfl (closeRequest_refused (t := s.ctu) (b := s.book.withRequests rest)
      ⟨hindex, hlabel, hspan, hroom, hguard⟩ (hb.taken _) (ha.taken _))

end Sys2Proof.Machine

/-! SUPPORT. What ends a record's place in the live book (R38, R44, R49, R51): removal, CANCELLED, the no-show, the buffer; and
what a claim that writes one family leaves of the state. -/

namespace Sys2Proof.Machine

/-! ## A claim on one family -/

/-- A request's claim on the record in slot `n` and the rows of one family has ended with the book `b`, and is answered. -/
structure Claimed (s t : State) (c : Ctx) (rest : List Handed) (b : Book) (a : Answer) (n room : Nat) (d : Date)
    (f : Nat → Nat → Cell → Cell) : Prop where
  taken : Taken s t b
  mail : t.book.mail = b.mail
  requests : t.book.mail.requests = rest
  replied : Replied s t c a
  csc : t.book.csc = s.book.csc
  keeps : ClaimKeeps s t n room d
  rows : ∀ start m, RowsOpen s.book room d start m → RowsWritten s t room d f

/-- The state after the request of an owner whose claim is `op`. -/
def State.afterClaim (s : State) (rest : List Handed) (c : Ctx) (op : Book → Attempt (Book × Answer)) : State :=
  s.answered (op (s.book.withRequests rest)).ends.1 c (op (s.book.withRequests rest)).ends.2

theorem Asks.runs_afterClaim {i : Instr} {s : State} {c : Ctx} {q : Request} {rest : List Handed}
    {f : Request → Ctx → Book → Option Book} {op : Book → Attempt (Book × Answer)} (h : Asks s c q rest)
    (hi : exec i s = .next { s with book := s.book.serve q.owner f })
    (hf : f q c (s.book.withRequests rest) = some ((s.book.withRequests rest).answerClaim c op)) :
    Runs i s (s.afterClaim rest c op) := by
  unfold Runs
  rw [hi, h.serve hf]
  rfl

theorem State.afterClaim_claimed (s : State) {rest : List Handed} (c : Ctx) {op : Book → Attempt (Book × Answer)} {b : Book}
    {a : Answer} {n room : Nat} {d : Date} {f : Nat → Nat → Cell → Cell}
    (ho : (op (s.book.withRequests rest)).ends = (b, a)) (hl : LiveClaim (s.book.withRequests rest) b n room d f) :
    Claimed s (s.afterClaim rest c op) c rest b a n room d f := by
  unfold State.afterClaim
  rw [ho]
  have taken := s.answered_taken b c a
  exact ⟨taken, s.answered_mail b c a, (congrArg Mail.requests (s.answered_mail b c a)).trans hl.only.requests,
    s.answered_replied c a hl.only.hmp, taken.csc.trans hl.only.csc, taken.keeps hl, fun _ _ ho => taken.rows ho hl.painted.painted⟩

theorem State.afterClaim_ok (s : State) {rest : List Handed} (c : Ctx) {op : Book → Attempt (Book × Answer)} {b : Book}
    {a : Answer} {n room : Nat} {d : Date} {f : Nat → Nat → Cell → Cell} (ho : op (s.book.withRequests rest) = .ok (b, a))
    (hl : LiveClaim (s.book.withRequests rest) b n room d f) : Claimed s (s.afterClaim rest c op) c rest b a n room d f :=
  s.afterClaim_claimed c (congrArg Attempt.ends ho) hl

/-- A claim that leaves the book as it was. -/
theorem LiveClaim.refl (b : Book) (n room : Nat) (d : Date) : LiveClaim b b n room d cellKept :=
  ⟨.refl b n, .refl _ _ d⟩

/-! ## Records that leave their cells -/

/-- R20: what an active record covers is freed, in every row of the family. -/
theorem Record.cleared_span {r : Record} (ha : r.state.active = true) : (fun _ => r.cleared) = spanCleared r :=
  funext fun x => funext fun k => funext fun c => Record.cleared_eq ha x k c

/-- R20: the cells of `r` are freed, the SQU takes a change behind the reports handed before, and the record becomes `r'`. -/
def Book.replaced (b : Book) (n : Nat) (r r' : Record) (f : Squ → Squ) : Book :=
  ((b.uncover .live r).inClaim f).putRecord n r'

section

variable {b : Book} (hs : StoreSound b) (n : Nat) (r r' : Record)
include hs

theorem uncover_squTaken : (b.uncover .live r).squTaken = b.squTaken := by rw [Book.uncover_sound hs]; rfl

theorem uncover_mail : (b.uncover .live r).mail = b.mail := by rw [Book.uncover_sound hs]; rfl

theorem uncover_holds : (b.uncover .live r).bke.holds = b.bke.holds := by rw [Book.uncover_sound hs]; rfl

theorem uncovered_claim (ht : RowsStandIn b.bke.rows (rowFamily b.bke.rooms r.room) r.date) :
    LiveClaim b (b.uncover .live r) n r.room r.date fun _ => r.cleared := (ClaimOnly.refl b n).uncovered rfl hs r ht

theorem replaced_claim (f : Squ → Squ) (ht : RowsStandIn b.bke.rows (rowFamily b.bke.rooms r.room) r.date) :
    LiveClaim b (b.replaced n r r' f) n r.room r.date fun _ => r.cleared :=
  ((uncovered_claim hs n r ht).record (inClaim_only _ n f)).record
    (putRecord_only (b := (b.uncover .live r).inClaim f) ((uncover_only hs r n).sound hs) n r')

theorem replaced_slot (f : Squ → Squ) : (b.replaced n r r' f).slot n = some (.sound r') :=
  putRecord_slot ((uncover_only hs r n).sound hs) n r'

theorem replaced_squ (f : Squ → Squ) : (b.replaced n r r' f).squ = f b.squTaken := congrArg f (uncover_squTaken hs r)

theorem replaced_mail (f : Squ → Squ) : (b.replaced n r r' f).mail = { b.mail with bkeToSqu := [] } := by
  show ({ (b.uncover .live r).mail with bkeToSqu := [] } : Mail) = _
  rw [uncover_mail hs]

/-! ## A hold removed (R38, R44) -/

theorem removeHeld_claim (ht : RowsStandIn b.bke.rows (rowFamily b.bke.rooms r.room) r.date) :
    LiveClaim b (b.removeHeld n r) n r.room r.date fun _ => r.cleared := by
  have cleared := uncovered_claim hs n r ht
  have hsound := cleared.only.sound hs
  have dropped := dropSlot_only (b := (b.uncover .live r).dropHold r.id) hsound n
  refine (LiveClaim.mk ((cleared.only.trans (dropHold_only _ r.id n)).trans dropped) ?_).record (news_only _ n .lapsed r none)
  rw [Book.dropSlot_sound (by exact hsound)]
  exact cleared.painted

theorem removeHeld_slot : (b.removeHeld n r).slot n = none := by
  unfold Book.removeHeld
  rw [Book.dropSlot_sound (b := (b.uncover .live r).dropHold r.id) ((uncover_only hs r n).sound hs)]
  exact Table.find_drop_self ..

theorem removeHeld_holds : (b.removeHeld n r).bke.holds = b.bke.holds.filter fun h => h.id != r.id := by
  unfold Book.removeHeld
  rw [Book.dropSlot_sound (b := (b.uncover .live r).dropHold r.id) ((uncover_only hs r n).sound hs)]
  exact congrArg _ (uncover_holds hs r)

end

theorem mem_dropped {l : List HoldEntry} {id : Nat} (e : HoldEntry) :
    e ∈ l.filter (fun h => h.id != id) ↔ e ∈ l ∧ e.id ≠ id := by simp

/-! ## CANCELLED (R44) -/

/-- R44: a meeting as it goes to CANCELLED. -/
def Record.cancelled (r : Record) : Record := { r with state := .cancelled, bufState := r.bufState.freed, run := none }

theorem BState.started_of_inactive {x : BState} (h : x.active = false) : x.started = false := by
  revert h
  cases x <;> decide

theorem BState.active_of_started {x : BState} (h : x.started = true) : x.active = true ∧ x ≠ .held ∧ x ≠ .confirmed := by
  revert h
  cases x <;> decide

theorem BufState.freed_eq (x : BufState) : x.freed = if x = .reserved then .released else x := by cases x <;> rfl

/-- R44, R49: a meeting leaves its cells as `r'`, its run is aborted, and the PPU and the CSC are told. -/
def Book.leaves (b : Book) (n : Nat) (r r' : Record) (kind : ChangeKind) (told : CscChange) : Book :=
  ((b.replaced n r r' fun q => q.abort r).news kind r').tellCsc r.id told

section

variable {b : Book} (hs : StoreSound b) (n : Nat) (r r' : Record) (kind : ChangeKind) (told : CscChange)
include hs

theorem leaves_claim (ht : RowsStandIn b.bke.rows (rowFamily b.bke.rooms r.room) r.date) :
    LiveClaim b (b.leaves n r r' kind told) n r.room r.date fun _ => r.cleared :=
  ((replaced_claim hs n r _ _ ht).record (news_only _ n _ _ none)).record (tellCsc_only _ n r.id _)

theorem leaves_slot : (b.leaves n r r' kind told).slot n = some (.sound r') := replaced_slot hs n r r' _

theorem leaves_handed :
    (b.leaves n r r' kind told).squ = b.squTaken.abort r ∧ (b.leaves n r r' kind told).mail.bkeToSqu = [] ∧
      (b.leaves n r r' kind told).mail.bkeToCsc = b.mail.bkeToCsc ++ [{ booking := r.id, change := told }] := by
  have hm := replaced_mail hs n r r' fun q => q.abort r
  refine ⟨replaced_squ hs n r r' fun q => q.abort r, congrArg Mail.bkeToSqu hm, ?_⟩
  show (b.replaced n r r' fun q => q.abort r).mail.bkeToCsc ++ _ = _
  rw [hm]

end

theorem cancelMeeting_eq (b : Book) (n : Nat) (r : Record) :
    b.cancelMeeting n r = b.leaves n r r.cancelled .cancelled .cancelled := rfl

theorem cancelClosure_claim {b : Book} (hs : StoreSound b) (n : Nat) (r : Record)
    (ht : RowsStandIn b.bke.rows (rowFamily b.bke.rooms r.room) r.date) :
    LiveClaim b (b.cancelClosure n r) n r.room r.date fun _ => r.cleared := by
  have cleared := uncovered_claim hs n r ht
  exact (cleared.record (putRecord_only (cleared.only.sound hs) n _)).record (news_only _ n _ _ none)

theorem cancelClosure_slot {b : Book} (hs : StoreSound b) (n : Nat) (r : Record) :
    (b.cancelClosure n r).slot n = some (.sound { r with state := .cancelled }) :=
  putRecord_slot ((uncover_only hs r n).sound hs) n _

/-! ## CANCEL in the write edition LIVE, by the state of what it names (R44) -/

section

variable {b : Book} {n : Nat} {r : Record} (hs : StoreSound b) (hh : b.bke.horizon ≠ none) (hr : HoldsLive b n r)
include hs hh hr

theorem cancelLive_eq :
    Book.cancelLive r.id b = (do
      refuseIf b [(r.kind == .meeting && r.state.started, Answer.because .refused .started), terminalRefusal r]
      if r.kind = .closure then
        return (b.cancelClosure n r, Answer.ok (.cancelled r.id (some .cancelled)))
      else if r.state = .held then
        return (b.removeHeld n r, Answer.ok (.cancelled r.id none))
      else
        return (b.cancelMeeting n r, Answer.ok (.cancelled r.id (some .cancelled)))) := by
  unfold Book.cancelLive
  simp only [Book.tryHorizon_open hh, hr.tryLive hs, bind, Except.bind]

theorem cancelLive_started (hk : r.kind = .meeting) (hst : r.state.started = true) :
    (Book.cancelLive r.id b).ends = (b, Answer.because .refused .started) := by
  rw [cancelLive_eq hs hh hr]
  simp [hk, hst, refuseIf, firstFail, bind, Except.bind, Attempt.ends]

theorem cancelLive_terminal (hst : r.state.active = false) :
    (Book.cancelLive r.id b).ends = (b, Answer.because .refused .terminal) := by
  have hstarted := BState.started_of_inactive hst
  rw [cancelLive_eq hs hh hr]
  simp [hst, hstarted, terminalRefusal, refuseIf, firstFail, bind, Except.bind, Attempt.ends]

theorem cancelLive_closure (hk : r.kind = .closure) (hst : r.state.active = true) :
    (Book.cancelLive r.id b).ends = (b.cancelClosure n r, Answer.ok (.cancelled r.id (some .cancelled))) := by
  have notMeeting : (RecKind.closure == RecKind.meeting) = false := rfl
  rw [cancelLive_eq hs hh hr]
  simp [hk, notMeeting, hst, terminalRefusal, refuseIf, firstFail, bind, Except.bind, Attempt.ends, pure, Except.pure]

theorem cancelLive_held (hk : r.kind = .meeting) (hst : r.state = .held) :
    (Book.cancelLive r.id b).ends = (b.removeHeld n r, Answer.ok (.cancelled r.id none)) := by
  rw [cancelLive_eq hs hh hr]
  simp [hk, hst, terminalRefusal, refuseIf, firstFail, bind, Except.bind, Attempt.ends, pure, Except.pure, BState.started,
    BState.active]

theorem cancelLive_confirmed (hk : r.kind = .meeting) (hst : r.state = .confirmed) :
    (Book.cancelLive r.id b).ends = (b.leaves n r r.cancelled .cancelled .cancelled, Answer.ok (.cancelled r.id (some .cancelled))) := by
  rw [← cancelMeeting_eq, cancelLive_eq hs hh hr]
  simp [hk, hst, terminalRefusal, refuseIf, firstFail, bind, Except.bind, Attempt.ends, pure, Except.pure, BState.started,
    BState.active]

/-- R44: whatever the state, a CANCEL works on the record and the cells it covers. -/
theorem cancelLive_claim (ht : RowsStandIn b.bke.rows (rowFamily b.bke.rooms r.room) r.date) :
    ∃ b' a f, (Book.cancelLive r.id b).ends = (b', a) ∧ LiveClaim b b' n r.room r.date f := by
  cases hst : r.state.active with
  | false => exact ⟨_, _, _, cancelLive_terminal hs hh hr hst, .refl ..⟩
  | true =>
    cases hk : r.kind with
    | closure => exact ⟨_, _, _, cancelLive_closure hs hh hr hk hst, cancelClosure_claim hs n r ht⟩
    | meeting =>
      cases h : r.state with
      | held => exact ⟨_, _, _, cancelLive_held hs hh hr hk h, removeHeld_claim hs n r ht⟩
      | confirmed => exact ⟨_, _, _, cancelLive_confirmed hs hh hr hk h, leaves_claim hs n r _ _ _ ht⟩
      | awaitingCheckin | checkedIn | inProgress =>
        exact ⟨_, _, _, cancelLive_started hs hh hr hk (by rw [h]; rfl), .refl ..⟩
      | ended | released | cancelled => rw [h] at hst; cases hst

end

end Sys2Proof.Machine

/-! SUPPORT. CANCEL in the write edition DRAFT (R78): the draft record that goes, the live record that is marked, and what is
refused. -/

namespace Sys2Proof.Machine

/-! ## Room-days noted as freed (R81) -/

theorem DraftHolds.noted {b₀ : Book} {t : Table DraftRow} {y : Nat} {e : Date} {g : Nat → Cell → Cell}
    (h : DraftHolds b₀ t y e g) (id k : Nat) :
    DraftHolds b₀ (t.modify k fun x => { x with freed := x.freed ++ [id] }) y e g := by
  obtain ⟨cells, base, z, hz⟩ := h
  by_cases hk : rowKey y e = k
  · refine ⟨cells, base, { z with freed := z.freed ++ [id] },
      ⟨hz.start, ?_, hz.place, hz.whole, hz.base, hz.length, hz.cells⟩⟩
    rw [Table.find_modify, if_pos hk, ← hk, hz.found]
    rfl
  · exact ⟨cells, base, z, { hz with found := by rw [Table.find_modify, if_neg hk]; exact hz.found }⟩

theorem noteFreed_holds {b₀ : Book} {y : Nat} {e : Date} {g : Nat → Cell → Cell} (b : Book) (id : Nat)
    (l : List (Nat × Date)) (h : DraftHolds b₀ b.bke.draft.rows y e g) :
    DraftHolds b₀ (b.noteFreed id l).bke.draft.rows y e g := by
  show DraftHolds b₀ (l.foldl _ b.bke.draft.rows) y e g
  generalize b.bke.draft.rows = t at h
  induction l generalizing t with
  | nil => exact h
  | cons p l ih => exact ih _ (h.noted id _)

/-! ## What leaves the draft rows -/

section

variable {b b₀ : Book} (hs : StoreSound b) (n : Nat) (r : Record)
  (hl : ∀ x ∈ rowFamily b.bke.rooms r.room, ∃ g, DraftHolds b₀ b.bke.draft.rows x r.date g)
include hs hl

/-- R78: a draft record goes from the table, from the draft record list and from its draft cells. -/
theorem removeDraft_makes :
    DraftClaim b (b.removeDraft n r) ∧
      (∀ m, (b.removeDraft n r).slot m = if m = n then none else b.slot m) ∧
      (b.removeDraft n r).bke.draft.records = b.bke.draft.records.filter (fun i => i != r.id) ∧
      (b.removeDraft n r).bke.draft.marked = b.bke.draft.marked ∧
      ∀ y e g, DraftHolds b₀ b.bke.draft.rows y e g →
        DraftHolds b₀ (b.removeDraft n r).bke.draft.rows y e fun k c =>
          if e = r.date ∧ y ∈ rowFamily b.bke.rooms r.room then r.cleared k (g k c) else g k c := by
  obtain ⟨t, ht, hheld⟩ := uncoverDraft_holds hs r hl
  unfold Book.removeDraft
  rw [ht, Book.dropSlot_sound (b := b.withDraftRows t) hs]
  exact ⟨⟨rfl, rfl, rfl, rfl, rfl, rfl⟩, fun m => Table.find_drop .., rfl, rfl, hheld⟩

/-- R78: a live record gets its mark, enters the marked list, and its cells are freed in the draft rows alone. -/
theorem markRecord_makes :
    DraftClaim b (b.markRecord n r) ∧
      (∀ m, (b.markRecord n r).slot m = if m = n then some (.sound { r with cancelMark := true }) else b.slot m) ∧
      (b.markRecord n r).bke.draft.records = b.bke.draft.records ∧
      (b.markRecord n r).bke.draft.marked = b.bke.draft.marked ++ [r.id] ∧
      (b.markRecord n r).bke.lastId = b.bke.lastId ∧
      ∀ y e g, DraftHolds b₀ b.bke.draft.rows y e g →
        DraftHolds b₀ (b.markRecord n r).bke.draft.rows y e fun k c =>
          if e = r.date ∧ y ∈ rowFamily b.bke.rooms r.room then r.cleared k (g k c) else g k c := by
  unfold Book.markRecord
  rw [Book.putRecord_sound hs]
  obtain ⟨t, ht, hheld⟩ := uncoverDraft_holds (b₀ := b₀)
    (b := (b.putSlot n (.sound { r with cancelMark := true })).withDraft
      { b.bke.draft with marked := b.bke.draft.marked ++ [r.id] }) hs r hl
  dsimp only at ht ⊢
  rw [show (b.putSlot n (.sound { r with cancelMark := true })).bke.draft = b.bke.draft from rfl, ht]
  exact ⟨⟨rfl, rfl, rfl, rfl, rfl, rfl⟩, fun m => Table.find_put .., rfl, rfl, rfl,
    fun y e g hg => noteFreed_holds _ _ _ (hheld y e g hg)⟩

end

/-! ## CANCEL by what it names -/

/-- R78, R79: the state of a live record that a draft write refuses. -/
theorem draftStateRefusals_held {r : Record} (h : r.state = .held) :
    firstFail (draftStateRefusals r) = some (Answer.because .refused .state) := by
  simp [draftStateRefusals, firstFail, h]

theorem draftStateRefusals_started {r : Record} (hk : r.kind = .meeting) (h : r.state.started = true) :
    firstFail (draftStateRefusals r) = some (Answer.because .refused .started) := by
  have hheld : (r.state == .held) = false := beq_eq_false_iff_ne.mpr fun e => by rw [e] at h; cases h
  simp [draftStateRefusals, firstFail, hk, h, hheld]

theorem draftStateRefusals_terminal {r : Record} (h : r.state.active = false) :
    firstFail (draftStateRefusals r) = some (Answer.because .refused .terminal) := by
  have hheld : (r.state == .held) = false := beq_eq_false_iff_ne.mpr fun e => by rw [e] at h; cases h
  simp [draftStateRefusals, firstFail, terminalRefusal, h, BState.started_of_inactive h, hheld]

theorem draftStateRefusals_confirmed {r : Record} (h : r.state = .confirmed) : firstFail (draftStateRefusals r) = none := by
  have hheld : (BState.confirmed == .held) = false := rfl
  simp [draftStateRefusals, firstFail, terminalRefusal, h, hheld, BState.started, BState.active]

theorem isMarked_eq (b : Book) (id : Nat) : b.isMarked id = true ↔ id ∈ b.bke.draft.marked := List.contains_iff_mem

section

variable {b : Book} {n : Nat} {r : Record} (hs : StoreSound b) (hh : b.bke.horizon ≠ none)
  (hdraft : b.bke.draft.damaged = false) (hslot : b.slotOf r.id = some n) (hr : b.slot n = some (.sound r))
include hs hh hdraft hslot hr

theorem tryForDraft_found :
    b.tryForDraft r.id = .ok (b, if r.edition = .live then .live n r else .draft n r) := by
  have hfetch : b.fetch r.id = (b, if r.edition = .live then .live n r else .draft n r) := by
    rw [Book.fetch_sound hs, hslot]
    simp only [Book.foundAt, hr]
    split <;> rfl
  have hfound : ((if r.edition = .live then Found.live n r else Found.draft n r) == .nothing) = false := by
    split <;> rfl
  unfold Book.tryForDraft
  simp only [Book.tryHorizon_open hh, hfetch, hfound, trySoundDraft_sound hdraft, refuseIf, firstFail, bind, Except.bind]
  rfl

/-- R78: the CANCEL of a live record, by its state and its mark. -/
theorem cancelDraft_live (he : r.edition = .live) :
    Book.cancelDraft r.id b =
      match firstFail (draftStateRefusals r) with
      | some a => .error (b, a)
      | none =>
        if r.id ∈ b.bke.draft.marked then .ok (b, Answer.because .ok .unchanged)
        else (do
          let b ← b.tryDraftRows (b.familyDays r.room r.date)
          return (b.markRecord n r, { status := .ok, detail := .marked, data := .marked r.id })) := by
  unfold Book.cancelDraft
  simp only [tryForDraft_found hs hh hdraft hslot hr, he, if_true, bind, Except.bind, refuseIf, isMarked_eq]
  cases firstFail (draftStateRefusals r) with
  | some a => rfl
  | none => rfl

theorem cancelDraft_refused {a : Answer} (he : r.edition = .live) (ha : firstFail (draftStateRefusals r) = some a) :
    (Book.cancelDraft r.id b).ends = (b, a) := by
  rw [cancelDraft_live hs hh hdraft hslot hr he, ha]
  rfl

theorem cancelDraft_unchanged (he : r.edition = .live) (ha : firstFail (draftStateRefusals r) = none)
    (hm : r.id ∈ b.bke.draft.marked) :
    (Book.cancelDraft r.id b).ends = (b, Answer.because .ok .unchanged) := by
  rw [cancelDraft_live hs hh hdraft hslot hr he, ha]
  simp only [hm, if_true]
  rfl

variable (hready : DraftReady b (b.familyDays r.room r.date))
include hready

/-- R78: the CANCEL of a live record without a mark. -/
theorem cancelDraft_marks (he : r.edition = .live) (ha : firstFail (draftStateRefusals r) = none)
    (hm : r.id ∉ b.bke.draft.marked) :
    ∃ b', (Book.cancelDraft r.id b).ends = (b', { status := .ok, detail := .marked, data := .marked r.id }) ∧
      DraftClaim b b' ∧
      (∀ m, b'.slot m = if m = n then some (.sound { r with cancelMark := true }) else b.slot m) ∧
      b'.bke.draft.records = b.bke.draft.records ∧ b'.bke.draft.marked = b.bke.draft.marked ++ [r.id] ∧
      ∀ x ∈ rowFamily b.bke.rooms r.room, DraftHolds b b'.bke.draft.rows x r.date r.cleared := by
  obtain ⟨rows, hrows, hheld⟩ := tryDraftRows_ready hs hready
  have hheld' : ∀ x ∈ rowFamily b.bke.rooms r.room, DraftHolds b rows x r.date fun _ c => c := fun x hx =>
    hheld (x, r.date) (mem_familyDays.mpr ⟨rfl, hx⟩)
  obtain ⟨claim, hslots, hrecords, hmarked, -, hfreed⟩ :=
    markRecord_makes (b := b.withDraftRows rows) (b₀ := b) hs n r fun x hx => ⟨_, hheld' x hx⟩
  refine ⟨_, ?_, (withDraft_claim b _).trans claim, hslots, hrecords, hmarked,
    fun x hx => (hfreed x r.date _ (hheld' x hx)).congr fun k _ c => if_pos ⟨rfl, hx⟩⟩
  rw [cancelDraft_live hs hh hdraft hslot hr he, ha]
  simp only [hm, if_false, hrows, bind, Except.bind]
  rfl

/-- R78: the CANCEL of a draft record. -/
theorem cancelDraft_removes (he : r.edition = .draft) :
    ∃ b', (Book.cancelDraft r.id b).ends = (b', Answer.ok (.cancelled r.id none)) ∧ DraftClaim b b' ∧
      (∀ m, b'.slot m = if m = n then none else b.slot m) ∧
      b'.bke.draft.records = b.bke.draft.records.filter (fun i => i != r.id) ∧
      b'.bke.draft.marked = b.bke.draft.marked ∧
      ∀ x ∈ rowFamily b.bke.rooms r.room, DraftHolds b b'.bke.draft.rows x r.date r.cleared := by
  obtain ⟨rows, hrows, hheld⟩ := tryDraftRows_ready hs hready
  have hheld' : ∀ x ∈ rowFamily b.bke.rooms r.room, DraftHolds b rows x r.date fun _ c => c := fun x hx =>
    hheld (x, r.date) (mem_familyDays.mpr ⟨rfl, hx⟩)
  obtain ⟨claim, hslots, hrecords, hmarked, hfreed⟩ :=
    removeDraft_makes (b := b.withDraftRows rows) (b₀ := b) hs n r fun x hx => ⟨_, hheld' x hx⟩
  refine ⟨_, ?_, (withDraft_claim b _).trans claim, hslots, hrecords, hmarked,
    fun x hx => (hfreed x r.date _ (hheld' x hx)).congr fun k _ c => if_pos ⟨rfl, hx⟩⟩
  unfold Book.cancelDraft
  simp only [tryForDraft_found hs hh hdraft hslot hr, he, reduceCtorEq, if_false, hrows, bind, Except.bind]
  rfl

end

/-! ## The state after a draft claim -/

/-- A request whose draft claim has ended with the book `b` is answered. -/
structure DraftClaimed (s t : State) (c : Ctx) (rest : List Handed) (b : Book) (a : Answer) : Prop where
  taken : Taken s t b
  only : DraftOnly s t rest
  replied : Replied s t c a

theorem State.afterClaim_draft (s : State) {rest : List Handed} (c : Ctx) {op : Book → Attempt (Book × Answer)} {b : Book}
    {a : Answer} (ho : (op (s.book.withRequests rest)).ends = (b, a)) (hc : DraftClaim (s.book.withRequests rest) b) :
    DraftClaimed s (s.afterClaim rest c op) c rest b a := by
  unfold State.afterClaim
  rw [ho]
  have taken := s.answered_taken b c a
  exact ⟨taken, taken.draftOnly hc (s.answered_mail b c a), s.answered_replied c a hc.hmp⟩

end Sys2Proof.Machine

/-! PROOFS. CANCEL in either write edition (R44, R78). -/

namespace Sys2Proof.Machine

theorem cancelRequest_live {b : Book} (id : Nat) (h : b.bke.writeEdition = .live) :
    Book.cancelRequest id b = Book.cancelLive id b := if_neg (by rw [h]; decide)

theorem cancelRequest_draft {b : Book} (id : Nat) (h : b.bke.writeEdition = .draft) :
    Book.cancelRequest id b = Book.cancelDraft id b := if_pos h

/-- R44: the state after a CANCEL in the write edition LIVE. -/
theorem cancelled_live {s : State} {c : Ctx} {n : Nat} {r : Record} {rest : List Handed} {b : Book} {a : Answer}
    {f : Nat → Nat → Cell → Cell} (hlive : s.book.bke.writeEdition = .live)
    (he : (Book.cancelLive r.id (s.book.withRequests rest)).ends = (b, a))
    (hl : LiveClaim (s.book.withRequests rest) b n r.room r.date f) :
    Claimed s (s.afterClaim rest c (Book.cancelRequest r.id)) c rest b a n r.room r.date f :=
  s.afterClaim_claimed c ((congrArg Attempt.ends (cancelRequest_live (b := s.book.withRequests rest) r.id hlive)).trans he) hl

/-- R78: the state after a CANCEL in the write edition DRAFT. -/
theorem cancelled_draft {s : State} {c : Ctx} {id : Nat} {rest : List Handed} {b : Book} {a : Answer}
    (hdraft : s.book.bke.writeEdition = .draft)
    (he : (Book.cancelDraft id (s.book.withRequests rest)).ends = (b, a)) (hc : DraftClaim (s.book.withRequests rest) b) :
    DraftClaimed s (s.afterClaim rest c (Book.cancelRequest id)) c rest b a :=
  s.afterClaim_draft c ((congrArg Attempt.ends (cancelRequest_draft (b := s.book.withRequests rest) id hdraft)).trans he) hc

/-- Settles O26: CANCEL by the write edition, and in each by the state of what it names. -/
theorem cancelFollowsTheState : Obligations.CancelFollowsTheState := by
  refine ⟨fun s c n r rest hq hlive hs hh hr hopen => ?_, fun s c n r rest hq hdraft hs hh hslot hr hready => ?_⟩
  · have hs' : StoreSound (s.book.withRequests rest) := hs
    have hr' : HoldsLive (s.book.withRequests rest) n r := hr
    have hh' : (s.book.withRequests rest).bke.horizon ≠ none := hh
    have stand : RowsStandIn (s.book.withRequests rest).bke.rows (rowFamily s.book.bke.rooms r.room) r.date := hopen.stand
    have span (hst : r.state = .held ∨ r.state = .confirmed) : (fun _ => r.cleared) = spanCleared r :=
      Record.cleared_span (by rcases hst with h | h <;> rw [h] <;> rfl)
    obtain ⟨b, a, f, he, hl⟩ := cancelLive_claim hs' hh' hr' stand
    have any := cancelled_live (c := c) hlive he hl
    refine ⟨_, hq.runs_afterClaim (i := .cancel) rfl rfl, any.requests, any.keeps, any.csc, fun hk hst => ?_,
      fun hk hst => ?_, fun hk hst => ?_, fun hk hst => ?_, fun hst => ?_⟩
    · have t := cancelled_live (c := c) hlive (cancelLive_held hs' hh' hr' hk hst) (removeHeld_claim hs' n r stand)
      refine ⟨(t.taken.slot n).trans (removeHeld_slot hs' n r), t.replied, fun e => ?_, span (.inl hst) ▸ t.rows _ _ hopen⟩
      rw [t.taken.holds, removeHeld_holds hs']
      exact mem_dropped e
    · have t := cancelled_live (c := c) hlive (cancelLive_confirmed hs' hh' hr' hk hst) (leaves_claim hs' n r _ _ _ stand)
      obtain ⟨squ, toSqu, toCsc⟩ := leaves_handed hs' n r r.cancelled .cancelled .cancelled
      rw [← BufState.freed_eq]
      exact ⟨(t.taken.slot n).trans (leaves_slot hs' n r r.cancelled ..), t.replied,
        t.taken.squ.trans squ, (congrArg Mail.bkeToSqu t.mail).trans toSqu,
        (congrArg Mail.bkeToCsc t.mail).trans toCsc, span (.inr hst) ▸ t.rows _ _ hopen⟩
    · have t := cancelled_live (c := c) hlive (cancelLive_closure hs' hh' hr' hk (by rw [hst]; rfl))
        (cancelClosure_claim hs' n r stand)
      exact ⟨(t.taken.slot n).trans (cancelClosure_slot hs' n r), t.replied, span (.inr hst) ▸ t.rows _ _ hopen⟩
    · have hstarted : r.state.started = true := by rcases hst with h | h | h <;> rw [h] <;> rfl
      have t := cancelled_live (c := c) hlive (cancelLive_started hs' hh' hr' hk hstarted) (.refl _ n r.room r.date)
      exact ⟨(t.taken.slot n).trans hr.2.1, t.replied, t.rows _ _ hopen⟩
    · have hover : r.state.active = false := by rcases hst with h | h | h <;> rw [h] <;> rfl
      have t := cancelled_live (c := c) hlive (cancelLive_terminal hs' hh' hr' hover) (.refl _ n r.room r.date)
      exact ⟨(t.taken.slot n).trans hr.2.1, t.replied, t.rows _ _ hopen⟩
  · have hs' : StoreSound (s.book.withRequests rest) := hs
    have hh' : (s.book.withRequests rest).bke.horizon ≠ none := hh
    have hslot' : (s.book.withRequests rest).slotOf r.id = some n := hslot
    have hr' : (s.book.withRequests rest).slot n = some (.sound r) := hr
    have hready' : DraftReady (s.book.withRequests rest) ((s.book.withRequests rest).familyDays r.room r.date) :=
      hready.taken _
    have span (hst : r.state = .confirmed) : (fun _ => r.cleared) = spanCleared r := Record.cleared_span (by rw [hst]; rfl)
    refine ⟨_, hq.runs_afterClaim (i := .cancel) (op := Book.cancelRequest r.id) rfl rfl, ?_⟩
    have stays {a : Answer} (he : (Book.cancelDraft r.id (s.book.withRequests rest)).ends = (s.book.withRequests rest, a)) :=
      cancelled_draft (c := c) hdraft he (.refl _)
    cases hed : r.edition with
    | draft =>
      obtain ⟨b, he, hc, hslots, hrecords, hmarked, hheld⟩ := cancelDraft_removes hs' hh' hready.sound hslot' hr' hready' hed
      have t := cancelled_draft (c := c) hdraft he hc
      exact ⟨t.only, fun m hm => (t.taken.slot m).trans ((hslots m).trans (if_neg hm)),
        fun _ hst => ⟨(t.taken.slot n).trans ((hslots n).trans (if_pos rfl)),
          (congrArg Draft.records t.taken.draft).trans hrecords, (congrArg Draft.marked t.taken.draft).trans hmarked,
          t.replied, span hst ▸ t.taken.drafts hheld⟩,
        nofun, nofun, nofun, nofun, nofun⟩
    | live =>
      cases ha : firstFail (draftStateRefusals r) with
      | some a =>
        have t := stays (cancelDraft_refused hs' hh' hready.sound hslot' hr' hed ha)
        have answer {a' : Answer} (h : firstFail (draftStateRefusals r) = some a') : SameBke s _ ∧ Replied s _ c a' :=
          ⟨t.taken.sameBke, Option.some.inj (ha.symm.trans h) ▸ t.replied⟩
        have passed (hst : r.state = .confirmed) : False := by rw [draftStateRefusals_confirmed hst] at ha; cases ha
        exact ⟨t.only, fun m _ => t.taken.slot m, nofun, fun _ hst => (passed hst).elim, fun _ hst => (passed hst).elim,
          fun _ hst => answer (draftStateRefusals_held hst), fun _ hk hst => answer (draftStateRefusals_started hk hst),
          fun _ hst => answer (draftStateRefusals_terminal hst)⟩
      | none =>
        have refused {a : Answer} {p : Prop} (h : firstFail (draftStateRefusals r) = some a) : p := by rw [h] at ha; cases ha
        by_cases hm : r.id ∈ s.book.bke.draft.marked
        · have t := stays (cancelDraft_unchanged hs' hh' hready.sound hslot' hr' hed ha hm)
          exact ⟨t.only, fun m _ => t.taken.slot m, nofun, fun _ _ hn => absurd hm hn,
            fun _ _ _ => ⟨t.taken.sameBke, t.replied⟩, fun _ hst => refused (draftStateRefusals_held hst),
            fun _ hk hst => refused (draftStateRefusals_started hk hst),
            fun _ hst => refused (draftStateRefusals_terminal hst)⟩
        · obtain ⟨b, he, hc, hslots, hrecords, hmarked, hheld⟩ :=
            cancelDraft_marks hs' hh' hready.sound hslot' hr' hready' hed ha hm
          have t := cancelled_draft (c := c) hdraft he hc
          exact ⟨t.only, fun m hm => (t.taken.slot m).trans ((hslots m).trans (if_neg hm)), nofun,
            fun _ hst _ => ⟨by rw [← hed]; exact (t.taken.slot n).trans ((hslots n).trans (if_pos rfl)),
              (congrArg Draft.records t.taken.draft).trans hrecords, (congrArg Draft.marked t.taken.draft).trans hmarked,
              t.replied, span hst ▸ t.taken.drafts hheld⟩,
            fun _ _ h => absurd h hm, fun _ hst => refused (draftStateRefusals_held hst),
            fun _ hk hst => refused (draftStateRefusals_started hk hst),
            fun _ hst => refused (draftStateRefusals_terminal hst)⟩

end Sys2Proof.Machine

/-! PROOFS. Expiries under the minute event (R38, R49). -/

namespace Sys2Proof.Machine

/-- The claim under a minute event that ends with the book `b` and posts the notice `x`. -/
def State.expired (s : State) (b : Book) (x : Notice) (d : Date) (m : Nat) : State :=
  { s with book := ((b.post x).bumpRows s.book.bke.rows).settleMinute d m }

/-- The settling of a minute takes its event at most. -/
theorem settleMinute_mail (b : Book) (d : Date) (m : Nat) :
    ∃ l, b.settleMinute d m = b.withMail { b.mail with bkeEvents := l } := by
  unfold Book.settleMinute
  split
  · exact ⟨_, rfl⟩
  · exact ⟨_, rfl⟩

theorem LiveClaim.withMail {b b' : Book} {n room : Nat} {d : Date} {f : Nat → Nat → Cell → Cell}
    (h : LiveClaim b b' n room d f) (m : Mail) : LiveClaim (b.withMail m) (b'.withMail m) n room d f :=
  ⟨⟨h.only.hmp, h.only.cfs, h.only.csc, h.only.bss, h.only.bke, h.only.slots, rfl⟩, h.painted⟩

/-- What an expiry leaves, whose claim is on the record in slot `n` and the rows of one family. -/
structure Expired (s t : State) (b : Book) (x : Notice) (n room : Nat) (d : Date) (f : Nat → Nat → Cell → Cell) : Prop where
  taken : Taken s t (b.withMail t.book.mail)
  hmp : t.book.hmp = s.book.hmp.post x
  mail : ∃ l, t.book.mail = { b.mail with bkeEvents := l }
  keeps : ClaimKeeps s t n room d
  rows : ∀ start m, RowsOpen s.book room d start m → RowsWritten s t room d f

theorem State.expired_spec {s : State} {b : Book} {n room : Nat} {e : Date} {f : Nat → Nat → Cell → Cell}
    (hl : LiveClaim s.book b n room e f) (x : Notice) (d : Date) (m : Nat) :
    Expired s (s.expired b x d m) b x n room e f := by
  obtain ⟨l, hsettle⟩ := settleMinute_mail ((b.post x).bumpRows s.book.bke.rows) d m
  have heq : s.expired b x d m =
      { s with book := ((b.post x).bumpRows s.book.bke.rows).withMail { b.mail with bkeEvents := l } } :=
    congrArg (fun y => { s with book := y }) hsettle
  rw [heq]
  have taken : Taken s { s with book := ((b.post x).bumpRows s.book.bke.rows).withMail { b.mail with bkeEvents := l } }
      (b.withMail { b.mail with bkeEvents := l }) :=
    ⟨rfl, rfl, rfl, rfl, rfl, fun h => ⟨congrArg Cfs.committed h, congrArg Cfs.complete h, congrArg Cfs.commitNumber h,
      congrArg Cfs.valid h, congrArg Cfs.commit h⟩⟩
  exact ⟨taken, congrArg (fun y : Hmp => y.post x) hl.only.hmp, ⟨l, rfl⟩, taken.keeps (hl.withMail _),
    fun _ _ ho => taken.rows ho hl.painted.painted⟩

theorem Book.claim_of {b c : Book} {f : Book → Book} (h : f b = c) : b.claim f = c.bumpRows b.bke.rows :=
  congrArg (fun x : Book => x.bumpRows b.bke.rows) h

/-! ## A hold lapses (R38) -/

theorem runs_holdLapse {s : State} {d : Date} {m n : Nat} {h : HoldEntry} {r : Record}
    (hm : s.book.bkeMinuteEvent = some (d, m)) (hs : StoreSound s.book) (hdue : s.book.dueHold m = some h) (hid : h.id = r.id)
    (hr : HoldsLive s.book n r) (hst : r.state = .held) :
    Runs .holdLapse s
      (s.expired (s.book.removeHeld n r)
        (.holdLapsed r.id r.room (s.book.code r.room) r.date r.start r.count r.organiser .expired) d m) := by
  have taken : s.book.takeHoldExpiry h = s.book.lapse n r .expired := by
    unfold Book.takeHoldExpiry
    rw [hid, hr.fetch hs]
    exact if_pos hst
  have claim : s.book.holdLapse = (s.book.claim fun b => b.takeHoldExpiry h).settleMinute d m := by
    simp only [Book.holdLapse, hm, hdue]
  unfold Runs
  rw [show exec .holdLapse s = .next { s with book := s.book.holdLapse } from rfl, claim, Book.claim_of taken]
  rfl

/-! ## A no-show (R49) -/

/-- R49: a meeting as it is released. -/
def Record.noShown (r : Record) : Record :=
  { r with state := .released, graceExpiry := none, bufState := r.bufState.freed, run := none }

theorem runs_noShow {s : State} {d : Date} {m n : Nat} {r : Record} (hm : s.book.bkeMinuteEvent = some (d, m))
    (hs : StoreSound s.book) (hdue : s.book.dueGrace d m = some n) (hr : HoldsLive s.book n r)
    (hst : r.state = .awaitingCheckin) :
    Runs .noShow s
      (s.expired (s.book.leaves n r r.noShown .releasedGrace .released)
        (.noShow r.id r.room (s.book.code r.room) r.date r.start r.count r.organiser .grace) d m) := by
  have taken : s.book.takeGraceExpiry n = s.book.noShowRelease n r .grace := by
    have found : s.book.foundAt n = .live n r := by
      unfold Book.foundAt
      rw [hr.2.1]
      exact if_pos hr.2.2
    simp only [Book.takeGraceExpiry, Book.readSlot_sound hs, found, hst, if_true]
  have claim : s.book.noShow = (s.book.claim fun b => b.takeGraceExpiry n).settleMinute d m := by
    simp only [Book.noShow, hm, hdue]
  unfold Runs
  rw [show exec .noShow s = .next { s with book := s.book.noShow } from rfl, claim, Book.claim_of taken]
  rfl

/-- Settles O33: the one expiry taken under the minute event, of a hold and of a meeting that awaits check-in. -/
theorem holdsLapseAndNoShowsAreReleased : Obligations.HoldsLapseAndNoShowsAreReleased := by
  refine ⟨fun s d m n h r hm hs hdue hid hr hst hopen => ?_, fun s d m n r hm hs hdue hr hst hopen => ?_⟩
  · have t := s.expired_spec (removeHeld_claim hs n r hopen.stand)
      (.holdLapsed r.id r.room (s.book.code r.room) r.date r.start r.count r.organiser .expired) d m
    refine ⟨_, runs_holdLapse hm hs hdue hid hr hst, (t.taken.slot n).trans (removeHeld_slot hs n r), fun e => ?_, t.hmp,
      Record.cleared_span (r := r) (by rw [hst]; rfl) ▸ t.rows _ _ hopen, t.keeps⟩
    rw [t.taken.holds.trans (removeHeld_holds hs n r)]
    exact mem_dropped e
  · have t := s.expired_spec (leaves_claim hs n r r.noShown .releasedGrace .released hopen.stand)
      (.noShow r.id r.room (s.book.code r.room) r.date r.start r.count r.organiser .grace) d m
    obtain ⟨squ, toSqu, toCsc⟩ := leaves_handed hs n r r.noShown .releasedGrace .released
    obtain ⟨l, hmail⟩ := t.mail
    rw [← BufState.freed_eq]
    exact ⟨_, runs_noShow hm hs hdue hr hst, (t.taken.slot n).trans (leaves_slot hs n r r.noShown .releasedGrace .released), t.hmp,
      t.taken.squ.trans squ, (congrArg Mail.bkeToSqu hmail).trans toSqu, (congrArg Mail.bkeToCsc hmail).trans toCsc,
      Record.cleared_span (r := r) (by rw [hst]; rfl) ▸ t.rows _ _ hopen, t.keeps⟩

end Sys2Proof.Machine

/-! SUPPORT. A meeting whose span changes in its place (R52, R53), and the meeting a panel claim is for (R54). -/

namespace Sys2Proof.Machine

/-- R42: of what is handed to other blocks a run made changes the reports to the SQU alone, which it takes first. -/
theorem makeRun_mail {b : Book} (hs : StoreSound b) {n : Nat} {r : Record} (hr : b.slot n = some (.sound r))
    (m : Option Nat) : ∃ l, (b.makeRun n m).mail = { b.mail with bkeToSqu := l } := by
  by_cases h : ∃ rm, b.room r.room = some rm ∧ (b.squ.templateOf rm).isSome = true
  · obtain ⟨rm, hrm, ht⟩ := h
    rw [makeRun_some hr hrm ht, Book.putRecord_sound (by exact hs)]
    exact ⟨_, rfl⟩
  · rw [makeRun_none hr fun rm hrm => Bool.eq_false_iff.mpr fun ht => h ⟨rm, hrm, ht⟩]
    exact ⟨_, rfl⟩

/-! ## The choice of a panel claim (R54) -/

theorem candidate_sound {b : Book} (hw : b.bke.records.wf = true) {x n : Nat} {r : Record} (h : (n, r) ∈ b.candidates x) :
    b.slot n = some (.sound r) := (mem_sound hw n r).mp (List.mem_of_mem_filter h)

theorem lostAmong_candidates {b : Book} (hw : b.bke.records.wf = true) (x : Nat) :
    b.lostAmong ((b.candidates x).map (·.1)) = none := by
  cases h : b.lostAmong ((b.candidates x).map (·.1)) with
  | none => rfl
  | some d =>
    obtain ⟨n, hn, hd⟩ := lostAmong_some h
    obtain ⟨⟨m, r⟩, hm, rfl⟩ := List.mem_map.mp hn
    rw [candidate_sound hw hm] at hd
    cases hd

section

variable {b : Book} (hs : StoreSound b) (hw : b.bke.records.wf = true) (hh : b.bke.horizon ≠ none) {x : Nat}
  {choose : Book → Option (Nat × Record)} (f : Book → Nat → Record → Book × PanelResult)
include hs hw hh

/-- R54: over a store without errors the claim is for the meeting chosen. -/
theorem onChoice_chosen {n : Nat} {r : Record} (h : choose b = some (n, r)) : b.onChoice x choose f = f b n r := by
  have hopen : b.bke.horizon.isNone = false := by rwa [Option.isNone_eq_false_iff, Option.isSome_iff_ne_none]
  unfold Book.onChoice
  simp only [hopen, Book.readSlots_sound hs, lostAmong_candidates hw, h, Bool.false_eq_true, if_false]

/-- R54: with none chosen the claim is answered NOT_FOUND, or DAMAGED where a record among the candidates was lost. -/
theorem onChoice_nothing (h : choose b = none) :
    b.onChoice x choose f =
      match b.lostCandidate x with
      | some d => (b, .refused (Answer.of .damaged) d.id)
      | none => (b, .refused (Answer.of .notFound) none) := by
  have hopen : b.bke.horizon.isNone = false := by rwa [Option.isNone_eq_false_iff, Option.isSome_iff_ne_none]
  unfold Book.onChoice
  simp only [hopen, Book.readSlots_sound hs, lostAmong_candidates hw, h, Bool.false_eq_true, if_false]
  cases b.lostCandidate x <;> rfl

end

/-- A panel claim on the record in slot `n` and the rows of one family has ended with the book `b`, and its outcome is handed
to the PPU. -/
structure PanelClaimed (s t : State) (c : PanelClaim) (rest : List PanelClaim) (b : Book) (x : PanelResult) (n room : Nat)
    (d : Date) (f : Nat → Nat → Cell → Cell) : Prop where
  taken : Taken s t b
  mail : t.book.mail = { b.mail with bkeToPanel := t.book.mail.bkeToPanel }
  answered : PanelAnswered s t c rest x.answer.toPanel x.subject x.placed
  csc : t.book.csc = s.book.csc
  keeps : ClaimKeeps s t n room d
  rows : ∀ start m, RowsOpen s.book room d start m → RowsWritten s t room d f

/-- R54, R125: a panel claim at the head is taken by the command of its kind. -/
theorem runs_panelClaim {i : Instr} {s : State} {c : PanelClaim} {rest : List PanelClaim} {b : Book} {x : PanelResult}
    {f : PanelClaim → Book → Option (Book × PanelResult)} {n room : Nat} {d : Date} {g : Nat → Nat → Cell → Cell}
    (hm : s.book.mail.ppuToBke = c :: rest) (hi : exec i s = .next { s with book := s.book.panelClaim f })
    (hf : f c (s.book.withPanelClaims rest) = some (b, x)) (hl : LiveClaim (s.book.withPanelClaims rest) b n room d g)
    (hr : b.mail.ppuToBke = rest) (hp : b.mail.bkeToPanel = (s.book.withPanelClaims rest).mail.bkeToPanel) :
    Runs i s (s.panelAnswered b c x) ∧ PanelClaimed s (s.panelAnswered b c x) c rest b x n room d g := by
  have taken := s.panelAnswered_taken b c x
  refine ⟨?_, taken, rfl, State.panelAnswered_answered hr hl.only.hmp hp, taken.csc.trans hl.only.csc, taken.keeps hl,
    fun _ _ ho => taken.rows ho hl.painted.painted⟩
  unfold Runs
  rw [hi, panelClaim_eq hm hf]

/-- R125: what the conflict test answers goes to a panel as it is. -/
theorem TestRefuses.toPanel {b : Book} {ed : Edition} {room : Nat} {d : Date} {start count buf : Nat}
    {excl : Option Record} {a : Answer} (h : TestRefuses b ed room d start count buf excl a) : a.toPanel = a := by
  cases h with
  | quarantined => rfl
  | rebuilding => rfl
  | conflict => rfl

/-! ## A span changed in its place (R52, R53) -/

/-- R52, R53: the record becomes `r'`, the cells of `r` freed and those of `r'` written, and the PPU, the CSC and the SQU take
the new end, `k` slots from its start. -/
def Book.resized (b : Book) (n : Nat) (r r' : Record) (k : Nat) (panel : Option Nat) (told : CscChange) : Book :=
  ((((b.uncover .live r).putRecord n r').cover .live r').news .retimed r' panel |>.tellCsc r.id told).inClaim
    fun q => q.retime r r'.start k

/-- R20: the cells after those of `r` are freed and those of `r'` written. -/
def Record.rewritten (r r' : Record) (x k : Nat) (old : Cell) : Cell := r'.written x k (r.cleared k old)

section

variable {b : Book} (hs : StoreSound b) (n : Nat) {r r' : Record} (k : Nat) (panel : Option Nat) (told : CscChange)
include hs

theorem resized_claim (hroom : r'.room = r.room) (hdate : r'.date = r.date)
    (ht : RowsStandIn b.bke.rows (rowFamily b.bke.rooms r.room) r.date) :
    LiveClaim b (b.resized n r r' k panel told) n r.room r.date (r.rewritten r') := by
  have cleared := uncovered_claim hs n r ht
  have put := cleared.record (putRecord_only (cleared.only.sound hs) n r')
  have stand : RowsStandIn ((b.uncover .live r).putRecord n r').bke.rows (rowFamily b.bke.rooms r.room) r.date :=
    put.painted.stand ht
  have written : LiveClaim ((b.uncover .live r).putRecord n r') (((b.uncover .live r).putRecord n r').cover .live r') n
      r.room r.date r'.written := by
    rw [← hroom, ← hdate]
    refine (ClaimOnly.refl _ n).covered rfl (put.only.sound hs) r' ?_
    rw [put.only.rooms, hroom, hdate]
    exact stand
  have both : LiveClaim b (((b.uncover .live r).putRecord n r').cover .live r') n r.room r.date (r.rewritten r') :=
    ⟨put.only.trans written.only, put.painted.trans (put.only.rooms ▸ written.painted)⟩
  exact ((both.record (news_only _ n _ r' panel)).record (tellCsc_only _ n r.id told)).record (inClaim_only _ n _)

theorem resized_slot : (b.resized n r r' k panel told).slot n = some (.sound r') := by
  have sound := (uncover_only hs r n).sound hs
  have put := (putRecord_only sound n r').claim.sound sound
  have slot : (((b.uncover .live r).putRecord n r').cover .live r').slot n = some (.sound r') :=
    (cover_slot put r' n).trans (putRecord_slot sound n r')
  unfold Book.resized
  rw [← slot]
  rfl

theorem resized_handed :
    let b' := b.resized n r r' k panel told
    b'.squ = b.squTaken.retime r r'.start k ∧ b'.mail.bkeToSqu = [] ∧
      b'.mail.bkeToCsc = b.mail.bkeToCsc ++ [{ booking := r.id, change := told }] ∧
      b'.mail.bkeToPpu = b.mail.bkeToPpu ++
        [.change { kind := .retimed, room := r'.room, date := r'.date, before := none, panel := panel }] ∧
      b'.mail.ppuToBke = b.mail.ppuToBke ∧ b'.mail.bkeToPanel = b.mail.bkeToPanel := by
  have sound := (uncover_only hs r n).sound hs
  have put := (putRecord_only sound n r').claim.sound sound
  unfold Book.resized
  rw [Book.cover_sound put, Book.putRecord_sound sound, Book.uncover_sound hs]
  exact ⟨rfl, rfl, rfl, rfl, rfl, rfl⟩

end

/-- R20, R53: the cells of a meeting whose span and buffer have changed. -/
theorem Record.rewritten_eq {r r' : Record} (ha : r.state.active = true) (ha' : r'.state.active = true)
    (hk : r'.kind = .meeting) (hh : r'.state ≠ .held) (x k : Nat) (c : Cell) :
    r.rewritten r' x k c =
      if r'.start ≤ k ∧ k < r'.start + r'.count + heldBuffer r' then
        spanWritten r'.room r'.start r'.count (heldBuffer r') .booked x k c
      else spanCleared r x k c := by
  unfold Record.rewritten
  rw [Record.written_booked ha' hk hh, Record.cleared_eq ha x]
  unfold spanWritten
  grind

/-- R24: a buffer clipped at the end of the day reaches as far as it did, or to the end. -/
theorem clipBuffer_reach (stop n k : Nat) (hk : k < 64) (h : k < stop + n) : k < stop + clipBuffer stop n := by
  unfold clipBuffer
  omega

end Sys2Proof.Machine

/-! PROOFS. EXTEND, of the host and of a panel (R52, R54). -/

namespace Sys2Proof.Machine

/-! ## The meeting lengthened (R52) -/

/-- R52: the buffer that fits behind the span lengthened by `k` slots. -/
def Record.extendedBuffer (r : Record) (k : Nat) : Nat :=
  if r.bufState = .reserved then clipBuffer (r.start + r.count + k) r.bufSlots else 0

/-- R52: the meeting lengthened by `k` slots. -/
def Record.extended (r : Record) (k : Nat) : Record :=
  if r.bufState = .reserved then
    { r with count := r.count + k, bufSlots := r.extendedBuffer k, bufState := bufStateOf (r.extendedBuffer k) }
  else { r with count := r.count + k }

section

variable (r : Record) (k : Nat)

/-- R52: of the record only the count and a RESERVED buffer change. -/
theorem Record.extended_kept :
    r.extended k =
      { r with count := r.count + k, bufSlots := (r.extended k).bufSlots, bufState := (r.extended k).bufState } := by
  unfold Record.extended
  split <;> rfl

theorem Record.extended_fields :
    (r.extended k).id = r.id ∧ (r.extended k).room = r.room ∧ (r.extended k).date = r.date ∧
      (r.extended k).start = r.start ∧ (r.extended k).count = r.count + k ∧ (r.extended k).state = r.state ∧
      (r.extended k).kind = r.kind ∧ (r.extended k).order = r.order := by
  rw [Record.extended_kept]
  exact ⟨rfl, rfl, rfl, rfl, rfl, rfl, rfl, rfl⟩

theorem Record.extended_bare (h : r.bufState ≠ .reserved) : r.extended k = { r with count := r.count + k } := if_neg h

theorem Record.extended_buffer : heldBuffer (r.extended k) = r.extendedBuffer k := by
  by_cases h : r.bufState = .reserved
  · unfold Record.extended
    rw [if_pos h]
    exact heldBuffer_fitted rfl
  · rw [Record.extended_bare r k h]
    simp only [heldBuffer, Record.extendedBuffer, h, if_false]

/-- R52: a meeting that an EXTEND may lengthen by `k` slots. -/
structure Extends : Prop where
  kind : r.kind = .meeting
  state : r.state = .confirmed ∨ r.state.started = true
  slots : 1 ≤ k ∧ k ≤ 4 ∧ r.start + r.count + k ≤ 64

variable {r k} (h : Extends r k)
include h

theorem Extends.active : r.state.active = true ∧ r.state ≠ .held := by
  rcases h.state with hst | hst
  · rw [hst]
    decide
  · obtain ⟨hactive, hheld, -⟩ := BState.active_of_started hst
    exact ⟨hactive, hheld⟩

/-- R52: the lengthened cells hold the old ones. -/
theorem Extends.rewritten (x j : Nat) (hj : j < 64) (c : Cell) :
    r.rewritten (r.extended k) x j c =
      spanWritten r.room r.start (r.count + k) (r.extendedBuffer k) .booked x j c := by
  obtain ⟨hactive, hheld⟩ := h.active
  obtain ⟨-, room, -, start, count, state, kind, -⟩ := r.extended_fields k
  have reach := clipBuffer_reach (r.start + r.count + k) r.bufSlots j hj
  rw [Record.rewritten_eq hactive (state ▸ hactive) (kind.trans h.kind) (state ▸ hheld), r.extended_buffer, start, count, room]
  unfold spanWritten spanCleared heldBuffer Record.extendedBuffer
  by_cases hb : r.bufState = .reserved <;> simp only [hb, if_true, if_false] <;> grind

end

section

variable {b : Book} {n k : Nat} {r : Record} (hs : StoreSound b) (h : Extends r k)
include h

theorem Extends.refusals :
    firstFail
      [closureRefusal r, (r.state == .held, Answer.because .refused .state), terminalRefusal r,
        (k == 0 || decide (4 < k) || decide (64 < r.start + r.count + k), Answer.of .badRequest)] = none := by
  obtain ⟨hactive, hheld⟩ := h.active
  obtain ⟨h1, h4, h64⟩ := h.slots
  have held : (r.state == .held) = false := beq_eq_false_iff_ne.mpr hheld
  have bounds : (k == 0 || decide (4 < k) || decide (64 < r.start + r.count + k)) = false := by simp; omega
  simp [closureRefusal_meeting h.kind, terminalRefusal, firstFail, held, hactive, bounds]

/-- R25: an EXTEND that the conflict test refuses ends with its outcome. -/
theorem Extends.refused {a : Answer} (hb : TestReady b .live r.room r.date)
    (ha : TestRefuses b .live r.room r.date (r.start + r.count) k (r.extendedBuffer k) (some r) a) (panel : Option Nat) :
    Book.extendMeeting n r k panel b = .error (b, a) := by
  have test : b.tryConflict .live r.room r.date (r.start + r.count) k
      (if r.bufState = .reserved then clipBuffer (r.start + r.count + k) r.bufSlots else 0) (some r) = .error (b, a) :=
    ha.refused hb
  unfold Book.extendMeeting
  simp only [refuseIf, h.refusals, test, bind, Except.bind]

include hs

theorem Extends.passes
    (htest : b.conflict .live r.room r.date (r.start + r.count) k (r.extendedBuffer k) (some r) = none)
    (panel : Option Nat) :
    Book.extendMeeting n r k panel b =
      .ok (b.resized n r (r.extended k) (r.count + k) panel (.extended (r.count + k)), r.extended k) := by
  have test : b.tryConflict .live r.room r.date (r.start + r.count) k
      (if r.bufState = .reserved then clipBuffer (r.start + r.count + k) r.bufSlots else 0) (some r) = .ok b :=
    tryConflict_passes hs htest
  obtain ⟨-, -, -, -, count, -⟩ := r.extended_fields k
  rw [← count]
  unfold Book.extendMeeting
  simp only [refuseIf, h.refusals, test, bind, Except.bind]
  rfl

/-- R52: the claim of a passing EXTEND. -/
theorem Extends.claim (ht : RowsStandIn b.bke.rows (rowFamily b.bke.rooms r.room) r.date) (panel : Option Nat) :
    LiveClaim b (b.resized n r (r.extended k) (r.count + k) panel (.extended (r.count + k))) n r.room r.date
      (spanWritten r.room r.start (r.count + k) (r.extendedBuffer k) .booked) := by
  obtain ⟨-, room, date, -⟩ := r.extended_fields k
  exact (resized_claim hs n (r.count + k) panel _ room date ht).congr fun x _ j hj c => h.rewritten x j hj c

end

/-! ## EXTEND (R52) -/

section

variable {b : Book} {n k : Nat} {r : Record} (h : Extends r k) (hlive : b.bke.writeEdition = .live)
  (hh : b.bke.horizon ≠ none) (hr : HoldsLive b n r)
include h hlive hh hr

theorem extend_passes (hs : StoreSound b)
    (htest : b.conflict .live r.room r.date (r.start + r.count) k (r.extendedBuffer k) (some r) = none) :
    Book.extend r.id k b =
      .ok (b.resized n r (r.extended k) (r.count + k) none (.extended (r.count + k)),
        Answer.ok (.extended r.start (r.count + k) (r.extended k).bufSlots)) := by
  obtain ⟨-, -, -, start, count, -⟩ := r.extended_fields k
  rw [← start, ← count]
  unfold Book.extend
  simp only [tryWriteLive_live hlive, Book.tryHorizon_open hh, hr.tryLive hs, h.passes hs htest, bind, Except.bind, count]
  rfl

theorem extend_refused {a : Answer} (hb : TestReady b .live r.room r.date)
    (ha : TestRefuses b .live r.room r.date (r.start + r.count) k (r.extendedBuffer k) (some r) a) :
    Book.extend r.id k b = .error (b, a) := by
  unfold Book.extend
  simp only [tryWriteLive_live hlive, Book.tryHorizon_open hh, hr.tryLive hb.sound, h.refused hb ha, bind, Except.bind]

end

section

variable {t : Ctu} {b : Book} {room n : Nat} {r : Record} (h : Extends r 1) (hs : StoreSound b)
  (hw : b.bke.records.wf = true) (hh : b.bke.horizon ≠ none) (hchoice : b.runningChoice t room = some (n, r))
include h hs hw hh hchoice

theorem panelExtend_passes (ht : RowsStandIn b.bke.rows (rowFamily b.bke.rooms r.room) r.date)
    (htest : b.conflict .live r.room r.date (r.start + r.count) 1 (r.extendedBuffer 1) (some r) = none) :
    b.panelExtend t room =
      (b.resized n r (r.extended 1) (r.count + 1) (some room) (.extended (r.count + 1)),
        { answer := Answer.of .ok, subject := some r.id, placed := some (b.placed (r.extended 1)) }) := by
  rw [← (h.claim (n := n) hs ht (some room)).only.placed]
  have chosen : b.panelExtend t room = _ := onChoice_chosen hs hw hh _ hchoice
  rw [chosen]
  simp only [h.passes hs htest]

theorem panelExtend_refused {a : Answer} (hd : DraftsWhole b .live r.room r.date)
    (ha : TestRefuses b .live r.room r.date (r.start + r.count) 1 (r.extendedBuffer 1) (some r) a) :
    b.panelExtend t room = (b, .refused a (some r.id)) := by
  have chosen : b.panelExtend t room = _ := onChoice_chosen hs hw hh _ hchoice
  rw [chosen]
  simp only [h.refused ⟨hs, hw, nofun, hd⟩ ha]

end

/-- Settles O28: an EXTEND lengthens the meeting over the cells that the conflict test passed. -/
theorem extendLengthensTheMeeting : Obligations.ExtendLengthensTheMeeting := by
  refine ⟨fun s c n k r rest hq hlive hs hh hr hk hst h1 h4 h64 hopen => ?_,
    fun s c rest n r hm hc hs hw hh hr hchoice hk hst h64 hopen => ?_,
    fun s c n k r rest a hq hlive hb hh hr hk hst h1 h4 h64 ha => ?_,
    fun s c rest n r a hm hc hb hh hr hchoice hk hst h64 ha => ?_⟩
  · intro buf htest
    have h : Extends r k := ⟨hk, hst, h1, h4, h64⟩
    obtain ⟨id, -, -, start, count, state, -, order⟩ := r.extended_fields k
    have hs' : StoreSound (s.book.withRequests rest) := hs
    obtain ⟨squ, toSqu, -⟩ := resized_handed hs' n (r := r) (r' := r.extended k) (r.count + k) none (.extended (r.count + k))
    have op := extend_passes (b := s.book.withRequests rest) h hlive hh hr hs' htest
    have t := s.afterClaim_ok c op (h.claim hs' hopen.stand none)
    refine ⟨_, r.extended k, hq.runs_afterClaim (i := .extend) rfl rfl, (t.taken.slot n).trans (resized_slot hs' ..),
      t.requests, count, start, state, id, order, r.extended_buffer k, fun hb => ?_, ?_,
      (congrArg Mail.bkeToSqu t.mail).trans toSqu, t.csc, t.replied, t.rows _ _ hopen, t.keeps⟩
    · rw [r.extended_bare k hb]
      exact ⟨rfl, rfl⟩
    · exact t.taken.squ.trans (squ.trans (by rw [start]; rfl))
  · intro buf htest
    have h : Extends r 1 := ⟨hk, .inr hst, le_rfl, by omega, h64⟩
    obtain ⟨id, -, -, start, count, state, -, -⟩ := r.extended_fields 1
    have hs' : StoreSound (s.book.withPanelClaims rest) := hs
    have claim := h.claim (n := n) hs' hopen.stand (some c.room)
    have op := panelExtend_passes (t := s.ctu) (b := s.book.withPanelClaims rest) h hs' hw hh hchoice
      hopen.stand htest
    obtain ⟨-, -, -, -, claims, panels⟩ := resized_handed hs' n (r := r) (r' := r.extended 1) (r.count + 1) (some c.room) (.extended (r.count + 1))
    obtain ⟨run, t⟩ := runs_panelClaim (i := .panelExtend) hm rfl (by simp only [hc]; exact congrArg some op) claim
      claims panels
    exact ⟨_, r.extended 1, run, (t.taken.slot n).trans (resized_slot hs' ..), count, start, state, id, t.answered,
      t.rows _ _ hopen⟩
  · have h : Extends r k := ⟨hk, hst, h1, h4, h64⟩
    exact hq.runs_refused (i := .extend) rfl rfl (extend_refused (b := s.book.withRequests rest) h hlive hh hr
      (hb.taken _) (ha.taken _))
  · have h : Extends r 1 := ⟨hk, .inr hst, le_rfl, by omega, h64⟩
    have op := panelExtend_refused (t := s.ctu) (b := s.book.withPanelClaims rest) h hb.sound hb.wf hh hchoice hb.drafts
      (ha.taken _)
    exact ⟨_, rfl, PanelRefused.of_claim hm (by simp only [hc]; exact congrArg some op) ha.toPanel rfl⟩

end Sys2Proof.Machine

/-! PROOFS. END_NOW and a panel's END (R53, R54). -/

namespace Sys2Proof.Machine

/-- R53: slot `c`. -/
theorem IsSlotC.eq {t : Ctu} {x : Nat} (h : IsSlotC t x) : t.slotC = x := by
  unfold Ctu.slotC
  rcases h with h | ⟨h, hlow, hhigh⟩
  · rw [h]
  · rw [h]
    show (t.reach - 360) / 15 = x
    omega

/-! ## The meeting shortened (R53) -/

section

variable (r : Record) (k buf : Nat) (fits : Bool)

/-- R53: of the record only the count and a RESERVED buffer change. -/
theorem Record.endedAt_fields :
    (r.endedAt k buf fits).room = r.room ∧ (r.endedAt k buf fits).date = r.date ∧ (r.endedAt k buf fits).start = r.start ∧
      (r.endedAt k buf fits).count = k ∧ (r.endedAt k buf fits).state = r.state ∧ (r.endedAt k buf fits).kind = r.kind := by
  unfold Record.endedAt
  split
  · split <;> exact ⟨rfl, rfl, rfl, rfl, rfl, rfl⟩
  · exact ⟨rfl, rfl, rfl, rfl, rfl, rfl⟩

theorem Record.endedAt_bare (h : r.bufState ≠ .reserved) : r.endedAt k buf fits = { r with count := k } := if_neg h

theorem Record.endedAt_fits (h : r.bufState = .reserved) :
    r.endedAt k buf true = { r with count := k, bufSlots := buf, bufState := bufStateOf buf } := if_pos h

theorem Record.endedAt_released (h : r.bufState = .reserved) :
    r.endedAt k buf false = { r with count := k, bufState := .released } := if_pos h

/-- R20, R53: the cells of the meeting shortened. -/
theorem Record.rewritten_endedAt {r : Record} (hk : r.kind = .meeting) (hst : r.state.started = true) (k buf : Nat)
    (fits : Bool) (y i : Nat) (c : Cell) :
    r.rewritten (r.endedAt k buf fits) y i c =
      if r.start ≤ i ∧ i < r.start + k + heldBuffer (r.endedAt k buf fits) then
        spanWritten r.room r.start k (heldBuffer (r.endedAt k buf fits)) .booked y i c
      else spanCleared r y i c := by
  obtain ⟨room, -, start, count, state, kind⟩ := r.endedAt_fields k buf fits
  obtain ⟨hactive, hheld, -⟩ := BState.active_of_started hst
  rw [Record.rewritten_eq hactive (state ▸ hactive) (kind.trans hk) (state ▸ hheld), start, count, room]

end

section

variable {t : Ctu} {b : Book} {n x : Nat} {r : Record} (hs : StoreSound b) (hk : r.kind = .meeting)
  (hst : r.state.started = true) (hc : IsSlotC t x) (hx : r.start ≤ x)

/-- R53: the meeting after its early end, its buffer re-placed where the conflict test passes it. -/
def Book.endedRecord (b : Book) (r : Record) (k : Nat) : Record :=
  r.endedAt k (clipBuffer (r.start + k) r.bufSlots)
    (b.conflict .live r.room r.date (r.start + k) 0 (clipBuffer (r.start + k) r.bufSlots) (some r)).isNone

/-- R53: the book after the early end. -/
def Book.endedEarly (b : Book) (n : Nat) (r : Record) (k : Nat) (panel : Option Nat) : Book :=
  b.resized n r (b.endedRecord r k) k panel (.endedEarly k)

theorem endedRecord_taken (b : Book) (r : Record) (k : Nat) (m : Mail) :
    (b.withMail m).endedRecord r k = b.endedRecord r k := rfl

theorem endedRecord_fields (b : Book) (r : Record) (k : Nat) :
    (b.endedRecord r k).room = r.room ∧ (b.endedRecord r k).date = r.date ∧ (b.endedRecord r k).start = r.start ∧
      (b.endedRecord r k).count = k := by
  unfold Book.endedRecord
  obtain ⟨room, date, start, count, -⟩ := r.endedAt_fields k (clipBuffer (r.start + k) r.bufSlots)
    (b.conflict .live r.room r.date (r.start + k) 0 (clipBuffer (r.start + k) r.bufSlots) (some r)).isNone
  exact ⟨room, date, start, count⟩

include hs hc hx

theorem endMeeting_eq (panel : Option Nat) :
    b.endMeeting t n r panel =
      if r.count ≤ x + 1 - r.start then none
      else some (b.endedEarly n r (x + 1 - r.start) panel, b.endedRecord r (x + 1 - r.start)) := by
  have hmax : max 1 (t.slotC + 1 - r.start) = x + 1 - r.start := by rw [hc.eq]; omega
  unfold Book.endMeeting
  simp only [hmax, Book.readFamily_sound hs]
  rfl

end

section

variable {b : Book} {n : Nat} {r : Record} (hs : StoreSound b) (hk : r.kind = .meeting) (hst : r.state.started = true)
  (k : Nat) (panel : Option Nat)
include hs hk hst

/-- R53: the claim of an early end. -/
theorem endedEarly_claim (ht : RowsStandIn b.bke.rows (rowFamily b.bke.rooms r.room) r.date) :
    LiveClaim b (b.endedEarly n r k panel) n r.room r.date
      (fun y i old =>
        if r.start ≤ i ∧ i < r.start + k + heldBuffer (b.endedRecord r k) then
          spanWritten r.room r.start k (heldBuffer (b.endedRecord r k)) .booked y i old
        else spanCleared r y i old) := by
  obtain ⟨room, date, -⟩ := endedRecord_fields b r k
  exact (resized_claim hs n k panel _ room date ht).congr fun y _ i _ c => Record.rewritten_endedAt hk hst k _ _ y i c

end

/-- R53: an early end taken by a command whose claim it was. -/
theorem endedEarly_taken {s t : State} {m : Mail} {n : Nat} {r : Record} (hs : StoreSound s.book) (hk : r.kind = .meeting)
    (hst : r.state.started = true) (hstand : RowsStand s.book r.room r.date) (k : Nat) (panel : Option Nat)
    (ht : Taken s t ((s.book.withMail m).endedEarly n r k panel))
    (hm : m.bkeToSqu = s.book.mail.bkeToSqu ∧ m.bkeToCsc = s.book.mail.bkeToCsc ∧ m.bkeToPpu = s.book.mail.bkeToPpu) :
    EndedEarly s t n r (s.book.endedRecord r k) k panel := by
  have hs' : StoreSound (s.book.withMail m) := hs
  have claim := endedEarly_claim (n := n) hs' hk hst k panel hstand
  rw [endedRecord_taken] at claim
  unfold Book.endedEarly at ht claim
  rw [endedRecord_taken] at ht claim
  obtain ⟨room, date, start, -⟩ := endedRecord_fields s.book r k
  obtain ⟨squ, toSqu, toCsc, toPpu, -⟩ := resized_handed hs' n (r := r) (r' := s.book.endedRecord r k) k panel (.endedEarly k)
  obtain ⟨hsqu, hcsc, hppu⟩ := hm
  have taken : (s.book.withMail m).squTaken = s.book.squTaken := by
    unfold Book.squTaken
    rw [show (s.book.withMail m).mail.bkeToSqu = s.book.mail.bkeToSqu from hsqu]
    rfl
  refine ⟨(ht.slot n).trans (resized_slot hs' ..), fun hb => r.endedAt_bare _ _ _ hb, fun hb hnone => ?_, fun hb hsome => ?_,
    ht.goodRows hstand claim.painted.painted, ⟨?_, ?_⟩, ?_, ?_, ht.keeps claim⟩
  · unfold Book.endedRecord
    rw [hnone]
    exact r.endedAt_fits _ _ hb
  · unfold Book.endedRecord
    rw [Option.isNone_eq_false_iff.mpr (Option.isSome_iff_ne_none.mpr hsome)]
    exact r.endedAt_released _ _ hb
  · rw [ht.squ, squ, taken, start]
  · rw [ht.mail]
    exact toSqu
  · rw [ht.mail, ← hcsc]
    exact toCsc
  · rw [ht.mail, ← hppu, ← room, ← date]
    exact toPpu

/-! ## END_NOW (R53) -/

section

variable {t : Ctu} {b : Book} {n x : Nat} {r : Record} (hs : StoreSound b) (hh : b.bke.horizon ≠ none)
  (hr : HoldsLive b n r) (hk : r.kind = .meeting) (hst : r.state.started = true) (hc : IsSlotC t x) (hx : r.start ≤ x)
include hs hh hr hk hst hc hx

theorem endNow_ends :
    Book.endNow t r.id b = .ok
      (if r.count ≤ x + 1 - r.start then (b, endedReply r .unchanged)
      else (b.endedEarly n r (x + 1 - r.start) none, Answer.ok (.endedEarly r.start (x + 1 - r.start) (b.endedRecord r (x + 1 - r.start)).bufState))) := by
  obtain ⟨hactive, hheld, hconfirmed⟩ := BState.active_of_started hst
  have held : (r.state == .held) = false := beq_eq_false_iff_ne.mpr hheld
  have confirmed : (r.state == .confirmed) = false := beq_eq_false_iff_ne.mpr hconfirmed
  have reply : endedReply (b.endedRecord r (x + 1 - r.start)) .none =
      Answer.ok (.endedEarly r.start (x + 1 - r.start) (b.endedRecord r (x + 1 - r.start)).bufState) := by
    obtain ⟨-, -, start, count⟩ := endedRecord_fields b r (x + 1 - r.start)
    unfold endedReply
    rw [start, count]
    rfl
  rw [← reply]
  unfold Book.endNow
  simp only [Book.tryHorizon_open hh, hr.tryLive hs, closureRefusal_meeting hk, terminalRefusal, hactive, held, confirmed,
    endMeeting_eq hs hc hx, refuseIf, firstFail, bind, Except.bind, Bool.not_true]
  by_cases hlast : r.count ≤ x + 1 - r.start
  · simp only [hlast, if_true]
    rfl
  · simp only [hlast, if_false]
    rfl

end

/-! ## A panel's END (R54) -/

theorem runningChoice_started {t : Ctu} {b : Book} {room n : Nat} {r : Record} (h : b.runningChoice t room = some (n, r)) :
    r.kind = .meeting ∧ r.state.started = true := by
  have hstarted := List.find?_some h
  have hmem := List.of_mem_filter (List.mem_of_find?_eq_some h)
  simp only [Bool.and_eq_true, beq_iff_eq] at hstarted hmem
  exact ⟨hmem.1.1.2, hstarted.1⟩

section

variable {t : Ctu} {b : Book} {room n x : Nat} {r : Record} (hs : StoreSound b) (hw : b.bke.records.wf = true)
  (hh : b.bke.horizon ≠ none) (hchoice : b.runningChoice t room = some (n, r)) (hc : IsSlotC t x) (hx : r.start ≤ x)
include hs hw hh hchoice hc hx

theorem panelEnd_unchanged (hlast : r.count ≤ x + 1 - r.start) :
    b.panelEnd t room =
      (b, { answer := Answer.because .ok .unchanged, subject := some r.id, placed := some (b.placed r) }) := by
  have chosen : b.panelEnd t room = _ := onChoice_chosen hs hw hh _ hchoice
  rw [chosen]
  simp only [endMeeting_eq hs hc hx, hlast, if_true]

theorem panelEnd_ends (hlast : x + 1 - r.start < r.count)
    (ht : RowsStandIn b.bke.rows (rowFamily b.bke.rooms r.room) r.date) :
    b.panelEnd t room =
      (b.endedEarly n r (x + 1 - r.start) (some room),
        { answer := Answer.of .ok, subject := some r.id, placed := some (b.placed (b.endedRecord r (x + 1 - r.start))) }) := by
  obtain ⟨hk, hst⟩ := runningChoice_started hchoice
  rw [← (endedEarly_claim (n := n) hs hk hst (x + 1 - r.start) (some room) ht).only.placed]
  have chosen : b.panelEnd t room = _ := onChoice_chosen hs hw hh _ hchoice
  rw [chosen]
  simp only [endMeeting_eq hs hc hx, Nat.not_le.mpr hlast, if_false]

end

/-- Settles O29: an early end of a started meeting; where slot c is its last slot nothing changes. -/
theorem endNowShortensTheMeeting : Obligations.EndNowShortensTheMeeting := by
  refine ⟨fun s c n x r rest hq hs hh hr hk hst hc hx hstand => ?_,
    fun s c rest n x r hm he hs hw hh hr hchoice hc hx hstand => ?_⟩
  · have op := endNow_ends (b := s.book.withRequests rest) hs hh hr hk hst hc hx
    have hs' : StoreSound (s.book.withRequests rest) := hs
    have run := hq.runs_afterClaim (i := .endNow) (op := Book.endNow s.ctu r.id) rfl rfl
    by_cases hlast : r.count ≤ x + 1 - r.start
    · rw [if_pos hlast] at op
      have t := s.afterClaim_ok c op (.refl _ n r.room r.date)
      exact ⟨_, r, run, t.requests, t.csc,
        fun _ => ⟨(t.taken.slot n).trans hr.2.1, t.keeps, t.taken.squ, fun y d => t.taken.row_kept rfl, t.replied⟩,
        fun h => absurd h (Nat.not_lt.mpr hlast)⟩
    · rw [if_neg hlast] at op
      have t := s.afterClaim_ok c op (endedEarly_claim hs' hk hst _ none hstand)
      exact ⟨_, s.book.endedRecord r (x + 1 - r.start), run, t.requests, t.csc, fun h => absurd h hlast,
        fun _ => ⟨endedEarly_taken hs hk hst hstand _ none t.taken ⟨rfl, rfl, rfl⟩, t.replied⟩⟩
  · obtain ⟨hk, hst⟩ := runningChoice_started hchoice
    have hs' : StoreSound (s.book.withPanelClaims rest) := hs
    by_cases hlast : r.count ≤ x + 1 - r.start
    · have op := panelEnd_unchanged (b := s.book.withPanelClaims rest) hs hw hh hchoice hc hx hlast
      obtain ⟨run, t⟩ := runs_panelClaim (i := .panelEnd) hm rfl (by simp only [he]; exact congrArg some op)
        (.refl _ n r.room r.date) rfl rfl
      exact ⟨_, r, run, t.csc, fun _ => ⟨(t.taken.slot n).trans hr.2.1, fun y d => t.taken.row_kept rfl, t.answered⟩,
        fun h => absurd h (Nat.not_lt.mpr hlast)⟩
    · have op := panelEnd_ends (b := s.book.withPanelClaims rest) hs hw hh hchoice hc hx (Nat.lt_of_not_le hlast) hstand
      obtain ⟨-, -, -, -, claims, panels⟩ := resized_handed hs' n (r := r)
        (r' := s.book.endedRecord r (x + 1 - r.start)) (x + 1 - r.start) (some c.room) (.endedEarly (x + 1 - r.start))
      obtain ⟨run, t⟩ := runs_panelClaim (i := .panelEnd) hm rfl (by simp only [he]; exact congrArg some op)
        (endedEarly_claim hs' hk hst _ _ hstand) claims panels
      exact ⟨_, s.book.endedRecord r (x + 1 - r.start), run, t.csc, fun h => absurd h hlast,
        fun _ => ⟨endedEarly_taken hs hk hst hstand _ _ t.taken ⟨rfl, rfl, rfl⟩, t.answered⟩⟩

end Sys2Proof.Machine

/-! PROOFS. A panel's WALKUP (R55) and the release of a buffer (R51). -/

namespace Sys2Proof.Machine

/-! ## WALKUP (R55) -/

/-- R55: the record of a WALKUP. -/
def walkupRecord (room : Nat) (d : Date) (start count id buf : Nat) : Record :=
  { bookRecord (walkupFields room d start count) id buf .live .panel .checkedIn with check := .done }

section

variable {t : Ctu} {b : Book} {room slots x : Nat} {h : Horizon} {rm : Room} (hh : b.bke.horizon = some h)
  (hx : t.slot = .slot x) (hroom : RoomTakes b room 0 rm) (hwalk : rm.walkup = true)
include hh hx hroom hwalk

theorem walkup_eq :
    Book.walkup t room slots b = (do
      let count := min slots (64 - x)
      let buf := clipBuffer (x + count) (b.squ.bufferOf rm)
      let b ← b.tryConflict .live room h.today x count buf none
      refuseIf b [(b.tableFull, fullTable), (b.runsShort rm, fullRuns)]
      let r := walkupRecord room h.today x count b.newId buf
      return (((b.made r).makeRun b.newSlot (some t.minute)).news .walkup r (some room), r)) := by
  obtain ⟨hrm, hguard, hbookable, -⟩ := hroom
  have found : b.tryRoom room = .ok rm := by
    unfold Book.tryRoom Book.room
    simp only [hrm, hguard]
    rfl
  have hopen : t.openSlot = some x := by
    unfold Ctu.openSlot
    rw [hx]
  unfold Book.walkup
  simp only [Book.tryHorizon_open (b := b) (by rw [hh]; exact nofun), hh, hopen, found, hbookable, hwalk, refuseIf, firstFail,
    bind, Except.bind, Bool.not_true]
  rfl

/-- R55: what WALKUP makes where its checks pass. -/
theorem walkup_makes (hs : StoreSound b) (htab : TablesOpen b rm)
    (hopen : RowsOpen b room h.today x (min slots (64 - x) +
      clipBuffer (x + min slots (64 - x)) (b.squ.bufferOf rm))) :
    let count := min slots (64 - x)
    let buf := clipBuffer (x + count) (b.squ.bufferOf rm)
    let r := walkupRecord room h.today x count b.newId buf
    ∃ b' run, b.panelWalkup t room slots =
        (b', { answer := Answer.of .ok, subject := some r.id, placed := some (b.placed r) }) ∧
      b'.slot b.newSlot = some (.sound { r with run := run }) ∧
      LiveClaim b b' b.newSlot room h.today (spanWritten room x count buf .booked) ∧
      b'.mail.ppuToBke = b.mail.ppuToBke ∧ b'.mail.bkeToPanel = b.mail.bkeToPanel := by
  intro count buf r
  have made := made_booked hs (r := r) hopen.stand rfl rfl (fun h => by cases h)
  rw [heldBuffer_fitted (r := r) rfl] at made
  have sound := made.only.sound hs
  obtain ⟨only, run, hslot, -⟩ := makeRun_spec sound (made_slot hs r) (some t.minute)
  obtain ⟨l, mail⟩ := makeRun_mail sound (made_slot hs r) (some t.minute)
  rw [made_mail hs r] at mail
  have claims : ((b.made r).makeRun b.newSlot (some t.minute)).mail.ppuToBke = b.mail.ppuToBke := by rw [mail]
  have panels : ((b.made r).makeRun b.newSlot (some t.minute)).mail.bkeToPanel = b.mail.bkeToPanel := by rw [mail]
  have claim := (made.record only).record (news_only ((b.made r).makeRun b.newSlot (some t.minute)) _ .walkup r (some room))
  refine ⟨((b.made r).makeRun b.newSlot (some t.minute)).news .walkup r (some room), run, ?_, hslot, claim, claims, panels⟩
  rw [← claim.only.placed]
  unfold Book.panelWalkup
  rw [walkup_eq hh hx hroom hwalk]
  simp only [hopen.conflict hs, htab.1, htab.2, refuseIf, firstFail, bind, Except.bind]
  rfl

theorem walkup_refused {a : Answer} (hb : TestReady b .live room h.today)
    (ha : TestRefuses b .live room h.today x (min slots (64 - x))
      (clipBuffer (x + min slots (64 - x)) (b.squ.bufferOf rm)) none a) :
    b.panelWalkup t room slots = (b, .refused a none) := by
  unfold Book.panelWalkup
  rw [walkup_eq hh hx hroom hwalk]
  simp only [ha.refused hb, bind, Except.bind]

end

/-! ## RELEASE_BUFFER (R51) -/

section

variable {b : Book} (hs : StoreSound b) (n : Nat) (r : Record)
include hs

theorem releaseBuf_claim (hb : r.bufState = .reserved) (ht : RowsStandIn b.bke.rows (rowFamily b.bke.rooms r.room) r.date) :
    LiveClaim b (b.releaseBuf n r) n r.room r.date fun _ k old =>
      if r.start + r.count ≤ k ∧ k < r.start + r.count + r.bufSlots then .free else old := by
  have cleared : LiveClaim b (b.uncoverBuffer r) n r.room r.date fun _ => r.bufferCleared := by
    rw [Book.uncoverBuffer_sound hs]
    exact ⟨withRows_only .., uncoverBuffer_painted r ht⟩
  exact (cleared.record (putRecord_only (cleared.only.sound hs) n _)).record (news_only _ n .buffer _ none)
    |>.congr fun _ _ k _ c => by simp only [Record.bufferCleared, hb, true_and]

theorem releaseBuf_slot : (b.releaseBuf n r).slot n = some (.sound { r with bufState := .released }) := by
  unfold Book.releaseBuf
  rw [Book.uncoverBuffer_sound hs]
  exact putRecord_slot (b := b.withRows _) hs n _

theorem releaseBuf_claims : (b.releaseBuf n r).mail.squToBke = b.mail.squToBke := by
  unfold Book.releaseBuf
  dsimp only
  rw [Book.uncoverBuffer_sound hs, Book.putRecord_sound (by exact hs)]
  rfl

end

theorem releaseClaim_live {b : Book} {n : Nat} {r : Record} (hs : StoreSound b) (hr : HoldsLive b n r) :
    b.releaseClaim r.id = if r.bufState = .reserved then b.releaseBuf n r else b := by
  unfold Book.releaseClaim
  simp only [hr.fetch hs]

/-- R51: the book in which the release claim at the head has been taken. -/
def Book.withReleases (b : Book) (rest : List Nat) : Book := b.withMail { b.mail with squToBke := rest }

/-- R51: the release claim at the head is taken. -/
theorem runs_releaseBuffer {s : State} {id : Nat} {rest : List Nat} {b : Book} (hm : s.book.mail.squToBke = id :: rest)
    (h : (s.book.withReleases rest).releaseClaim id = b) : Runs .releaseBuffer s (s.settled b) := by
  have claim : s.book.releaseBuffer = (s.book.withReleases rest).claim fun b => b.releaseClaim id := by
    simp only [Book.releaseBuffer, hm]
    rfl
  unfold Runs
  rw [show exec .releaseBuffer s = .next { s with book := s.book.releaseBuffer } from rfl, claim, Book.claim_of h]
  rfl

/-- Settles O30: WALKUP by what it makes and by the test that refuses it; RELEASE_BUFFER by the buffer's state. -/
theorem walkupAndBufferRelease : Obligations.WalkupAndBufferRelease := by
  refine ⟨fun s c rest slots x h rm hm he h1 hs hh hx h63 hroom hwalk htab => ?_,
    fun s n r rest hm hs hr hopen => ?_,
    fun s c rest slots x h rm a hm he hb hh hx hroom hwalk ha => ?_⟩
  · intro count buf hopen
    obtain ⟨b', run, op, hslot, claim, claims, panels⟩ :=
      walkup_makes (slots := slots) (b := s.book.withPanelClaims rest) hh hx hroom hwalk hs htab hopen
    obtain ⟨runs, t⟩ := runs_panelClaim (i := .panelWalkup) hm rfl (by simp only [he]; exact congrArg some op) claim claims
      panels
    exact ⟨_, _, runs, (t.taken.slot _).trans hslot, rfl, rfl, rfl, rfl, rfl, rfl, rfl, rfl, rfl, rfl, t.answered,
      t.rows _ _ hopen, t.keeps⟩
  · have hs' : StoreSound (s.book.withReleases rest) := hs
    have hr' : HoldsLive (s.book.withReleases rest) n r := hr
    by_cases hb : r.bufState = .reserved
    · have claim := releaseBuf_claim hs' n r hb hopen.stand
      have taken := s.settled_taken ((s.book.withReleases rest).releaseBuf n r)
      exact ⟨_, runs_releaseBuffer hm ((releaseClaim_live hs' hr').trans (if_pos hb)), releaseBuf_claims hs' n r,
        claim.only.hmp, taken.keeps claim,
        fun _ => ⟨(taken.slot n).trans (releaseBuf_slot hs' n r), taken.rows hopen claim.painted.painted⟩, fun h => absurd hb h⟩
    · have taken := s.settled_taken (s.book.withReleases rest)
      have claim := LiveClaim.refl (s.book.withReleases rest) n r.room r.date
      exact ⟨_, runs_releaseBuffer hm ((releaseClaim_live hs' hr').trans (if_neg hb)), rfl, rfl, taken.keeps claim,
        fun h => absurd h hb, fun _ => ⟨(taken.slot n).trans hr.2.1, taken.rows hopen claim.painted.painted⟩⟩
  · have op := walkup_refused (slots := slots) (b := s.book.withPanelClaims rest) hh hx hroom hwalk (hb.taken _) (ha.taken _)
    exact ⟨_, rfl, PanelRefused.of_claim hm (by simp only [he]; exact congrArg some op) ha.toPanel rfl⟩

end Sys2Proof.Machine

/-! PROOFS. The slot boundary (R38, R47, R50, R51): the statement does not hold of a book in which a row stands under the key of
another room-day. -/

namespace Sys2Proof.Machine

/-- The date of the counterexample. -/
def misplacedDate : Date := { year := 24, month := 3, day := 4 }

/-- A GOOD row of room 1 whose cells are all `c`. -/
def misplacedRow (c : Cell) : Row :=
  { room := 1, date := misplacedDate, cells := List.replicate 64 c, state := .good, version := 0 }

/-- A meeting IN_PROGRESS on the date, without a buffer. -/
def misplacedMeeting (id room start count : Nat) : Record :=
  { id := id, kind := .meeting, edition := .live, room := room, date := misplacedDate, start := start, count := count
    organiser := 0, attendees := 0, label := none, origin := .host, series := none, state := .inProgress
    holdExpiry := none, graceExpiry := none, check := .none, bufSlots := 0, bufState := .none, order := none, run := none
    cancelMark := false }

/-- Boundary 4 is the BKE's next event. A meeting of room 1 (slots 0 to 3) and one of room 2 (slot 3) end there; the row that
stands under the key of room 2 names room 1. -/
def misplacedBook : Book :=
  { State.reset.book with
    bke :=
      { Bke.reset ⟨[]⟩ 10 with
        rows := ⟨[(rowKey 1 misplacedDate, misplacedRow .free), (rowKey 2 misplacedDate, misplacedRow .booked)]⟩
        records := ⟨[(0, .sound (misplacedMeeting 1 1 0 4)), (1, .sound (misplacedMeeting 2 2 3 1))]⟩ }
    mail := { Mail.reset with bkeEvents := [{ date := misplacedDate, kind := boundaryEvent 4 }] } }

def misplacedState : State := { State.reset with book := misplacedBook }

theorem misplacedBook_open : RowsOpen misplacedBook 1 misplacedDate 0 0 := by
  intro x hx
  obtain rfl : x = 1 := List.mem_singleton.mp (show x ∈ [1] from hx)
  exact ⟨misplacedRow .free, by decide, rfl, rfl, rfl, rfl, by decide⟩

/-- The end of the meeting of room 2 frees slot 3 of the row found for it and puts that row where its own room-day says: in
the place of room 1's row, whose slot 0 the end of the first meeting had freed. -/
theorem misplacedBook_boundary :
    (misplacedBook.bkeSlotBoundary.row 1 misplacedDate).map (fun z => cellAt z.cells 0) = some .booked := by decide

/-- Refutes O32: where a row stands under the key of another room-day, which the statement does not exclude as `RowsKeyed`
would, writing the family of that room-day overwrites the row of the room it names, and the cells freed for a meeting that ends
at the boundary do not stay FREE. -/
theorem not_slotBoundaryStartsAndEnds : ¬ Obligations.SlotBoundaryStartsAndEnds := by
  intro h
  obtain ⟨t, run, -, hall⟩ := h misplacedState { date := misplacedDate, kind := boundaryEvent 4 } 4 [] rfl rfl rfl (by decide)
  obtain rfl : { misplacedState with book := misplacedBook.bkeSlotBoundary } = t := Host.Outcome.next.inj run
  obtain ⟨-, ends, -⟩ := hall 0 (misplacedMeeting 1 1 0 4) rfl (by decide)
  obtain ⟨freed, -⟩ := ends ⟨rfl, rfl⟩ rfl (.inr rfl)
  obtain ⟨z, hz, -, hfree⟩ := freed misplacedBook_open 1 (by decide)
  have hbooked := misplacedBook_boundary
  rw [show misplacedBook.bkeSlotBoundary.row 1 misplacedDate = some z from hz, Option.map_some, Option.some_inj,
    hfree 0 (by decide) (by decide)] at hbooked
  cases hbooked

end Sys2Proof.Machine

/-! SUPPORT. A demand read that loses a record (R57, R168, R169), and the check-in of a meeting (R48). -/

namespace Sys2Proof.Machine

/-! ## Words in error -/

theorem errorOf_item {x : Bss} {i : StoreItem} {e : ItemErr} (h : x.errorOf i = some e) : e.item = i := by
  unfold Bss.errorOf at h
  simpa using List.find?_some h

theorem errorOf_eq_none (x : Bss) (j : StoreItem) : x.errorOf j = none ↔ ∀ e ∈ x.errors, e.item ≠ j := by
  simp [Bss.errorOf, List.find?_eq_none]

theorem correct_errorOf {x : Bss} {i j : StoreItem} {e : ItemErr} (hi : x.errorOf i = some e) (hj : x.errorOf j = none) :
    (x.correct e).errorOf j = none := by
  have hij : e.item ≠ j := by
    rintro rfl
    rw [errorOf_item hi, hi] at hj
    cases hj
  rw [errorOf_eq_none] at hj ⊢
  unfold Bss.correct Bss.fresh
  intro y hy
  split at hy
  · rcases List.mem_append.mp hy with hy | hy
    · exact hj y (List.mem_of_mem_filter hy)
    · rw [List.mem_singleton.mp hy]
      exact hij
  · exact hj y (List.mem_of_mem_filter hy)

theorem setKnown_errorOf {x : Bss} {j : StoreItem} (hj : x.errorOf j = none) (i : StoreItem) :
    (x.setKnown i).errorOf j = none := by
  rw [errorOf_eq_none] at hj ⊢
  intro y hy
  obtain ⟨e, he, rfl⟩ := List.mem_map.mp hy
  split <;> exact hj e he

theorem setKnowns_errorOf {x : Bss} {j : StoreItem} (hj : x.errorOf j = none) (l : List StoreItem) :
    (l.foldl Bss.setKnown x).errorOf j = none := by
  induction l generalizing x with
  | nil => exact hj
  | cons i l ih => exact ih (setKnown_errorOf hj i)

theorem countOnce_errorOf {x : Bss} {j : StoreItem} (hj : x.errorOf j = none) (l : List StoreItem) :
    (x.countOnce l).errorOf j = none := by
  unfold Bss.countOnce
  split
  · exact hj
  · exact setKnowns_errorOf (x := x.countLost) hj l

/-! ## What a demand read of a record leaves -/

/-- R168, R169: the read has changed neither the runs, nor what panels wait for, nor a record but that in slot `n`, and has
put no word in error. -/
structure DemandRead (b b' : Book) (n : Nat) : Prop where
  squ : b'.squ = b.squ
  claims : b'.mail.ppuToBke = b.mail.ppuToBke
  panels : b'.mail.bkeToPanel = b.mail.bkeToPanel
  slots : ∀ m, m ≠ n → b'.slot m = b.slot m
  clear : ∀ j, b.bss.errorOf j = none → b'.bss.errorOf j = none

theorem DemandRead.refl (b : Book) (n : Nat) : DemandRead b b n := ⟨rfl, rfl, rfl, fun _ _ => rfl, fun _ h => h⟩

theorem DemandRead.trans {a b c : Book} {n : Nat} (h : DemandRead a b n) (k : DemandRead b c n) : DemandRead a c n where
  squ := k.squ.trans h.squ
  claims := k.claims.trans h.claims
  panels := k.panels.trans h.panels
  slots := fun m hm => (k.slots m hm).trans (h.slots m hm)
  clear := fun j hj => k.clear j (h.clear j hj)

theorem withBss_read {b : Book} {x : Bss} (n : Nat) (h : ∀ j, b.bss.errorOf j = none → x.errorOf j = none) :
    DemandRead b (b.withBss x) n := ⟨rfl, rfl, rfl, fun _ _ => rfl, h⟩

/-- R172: the start of a rebuild touches no record. -/
theorem startRebuild_read (b : Book) (cause : RowCause) (room : Nat) (d : Date) (n : Nat) :
    DemandRead b (b.startRebuild cause room d) n ∧ (b.startRebuild cause room d).slot n = b.slot n := by
  unfold Book.startRebuild Book.tellRow
  split
  · exact ⟨.refl b n, rfl⟩
  · split
    · exact ⟨.refl b n, rfl⟩
    · dsimp only
      split <;> exact ⟨⟨rfl, rfl, rfl, fun _ _ => rfl, fun _ h => h⟩, rfl⟩

theorem startRebuilds_read (b : Book) (cause : RowCause) (l : List (Nat × Date)) (n : Nat) :
    let b' := l.foldl (fun b p => b.startRebuild cause p.1 p.2) b
    DemandRead b b' n ∧ b'.slot n = b.slot n := by
  induction l generalizing b with
  | nil => exact ⟨.refl b n, rfl⟩
  | cons p l ih =>
    obtain ⟨first, hfirst⟩ := startRebuild_read b cause p.1 p.2 n
    obtain ⟨rest, hrest⟩ := ih (b.startRebuild cause p.1 p.2)
    exact ⟨first.trans rest, hrest.trans hfirst⟩

/-- R169: a record lost leaves what remains of it in its slot. -/
theorem recordLost_read {b : Book} {n : Nat} {r : Record} (hr : b.slot n = some (.sound r)) (path : ReadPath)
    (indexLost tagLost : Bool) :
    DemandRead b (b.recordLost path n indexLost tagLost) n ∧
      ∃ y, (b.recordLost path n indexLost tagLost).slot n = some (.damaged y) ∧
        y.id = (remainsOf r indexLost tagLost).id ∧ y.place = (remainsOf r indexLost tagLost).place := by
  have damaged : ∃ y : Damaged, DemandRead b (b.damage n r.id (remainsOf r indexLost tagLost)) n ∧
      (b.damage n r.id (remainsOf r indexLost tagLost)).slot n = some (.damaged y) ∧
      y.id = (remainsOf r indexLost tagLost).id ∧ y.place = (remainsOf r indexLost tagLost).place := by
    have put (y : Damaged) : DemandRead b (b.putSlot n (.damaged y)) n :=
      ⟨rfl, rfl, rfl, fun m hm => Table.find_put_ne _ _ _ _ hm, fun _ h => h⟩
    unfold Book.damage
    split
    · have kept := put { remainsOf r indexLost tagLost with listed := some r.id }
      exact ⟨_, ⟨kept.squ, kept.claims, kept.panels, kept.slots, kept.clear⟩, Book.putSlot_self .., rfl, rfl⟩
    · exact ⟨_, put _, Book.putSlot_self .., rfl, rfl⟩
  obtain ⟨y, hdamage, hslot, hid, hplace⟩ := damaged
  unfold Book.recordLost
  simp only [hr]
  generalize b.damage n r.id (remainsOf r indexLost tagLost) = c at hdamage hslot
  generalize (if indexLost then ItemKind.index else .record) = kind
  generalize (if (remainsOf r indexLost tagLost).id.isNone then some n else none) = known
  have posted : DemandRead b (c.postStoreError path kind (remainsOf r indexLost tagLost).place
        (remainsOf r indexLost tagLost).id known .recordDamaged) n ∧
      (c.postStoreError path kind (remainsOf r indexLost tagLost).place (remainsOf r indexLost tagLost).id known
        .recordDamaged).slot n = some (.damaged y) :=
    ⟨⟨hdamage.squ, hdamage.claims, hdamage.panels, hdamage.slots, hdamage.clear⟩, hslot⟩
  generalize c.postStoreError path kind (remainsOf r indexLost tagLost).place (remainsOf r indexLost tagLost).id known
    .recordDamaged = e at posted
  obtain ⟨read, hlost⟩ := posted
  split
  · exact ⟨read, y, hlost, hid, hplace⟩
  · obtain ⟨rebuilt, hkept⟩ := startRebuilds_read e .recordDamaged (e.placeRows (remainsOf r indexLost tagLost).place) n
    exact ⟨read.trans rebuilt, y, hkept.trans hlost, hid, hplace⟩

/-! ## Reading the slots of a panel's candidates -/

theorem readItem_clear {b : Book} {i : StoreItem} (h : b.bss.errorOf i = none) : b.readItem i = (b, false) := by
  simp only [Book.readItem, h]

theorem readItem_error {b : Book} {i : StoreItem} {e : ItemErr} (h : b.bss.errorOf i = some e) (n : Nat) :
    b.readItem i = (b.withBss (b.bss.correct e), e.hard) ∧ DemandRead b (b.withBss (b.bss.correct e)) n :=
  ⟨by simp only [Book.readItem, h], withBss_read n fun _ hj => correct_errorOf h hj⟩

/-- A read of a record and its index entry finds nothing in words without errors. -/
theorem readSlot_clear {b : Book} {m : Nat} (path : ReadPath) (hi : b.bss.errorOf (.index m) = none)
    (hr : b.bss.errorOf (.record m) = none) : b.readSlot path m = b := by
  unfold Book.readSlot
  simp only [readItem_clear hi, readItem_clear hr]
  split <;> rfl

/-- R169: a record that has been lost is passed over. -/
theorem readSlot_damaged {b : Book} {m : Nat} {y : Damaged} (path : ReadPath) (h : b.slot m = some (.damaged y)) :
    b.readSlot path m = b := by
  unfold Book.readSlot
  simp only [h]

/-- R168, R169: the read of a record finds an uncorrectable word in it or in its index entry. -/
theorem readSlot_lost {b : Book} {n : Nat} {r : Record} {i : StoreItem} {e : ItemErr} (hr : b.slot n = some (.sound r))
    (hi : i = .record n ∨ i = .index n) (he : b.bss.errorOf i = some e) (hard : e.hard = true) (hb : SoundBut b i)
    (path : ReadPath) :
    DemandRead b (b.readSlot path n) n ∧
      ∃ y, (b.readSlot path n).slot n = some (.damaged y) ∧
        (i = .record n → y.id = some r.id ∧ y.place = some (r.room, r.date)) ∧
        (i = .index n → y.place = none ∧ y.id = some r.id) := by
  obtain ⟨item, corrected⟩ := readItem_error he n
  have counted (l : List StoreItem) := corrected.trans
    (withBss_read (x := (b.bss.correct e).countOnce l) n fun _ hj => countOnce_errorOf hj l)
  unfold Book.readSlot
  rcases hi with rfl | rfl
  · have index : b.bss.errorOf (.index n) = none := hb _ (by simp)
    simp only [hr, readItem_clear index, item, hard, Bool.false_or, if_true]
    obtain ⟨lost, y, hy, hid, hplace⟩ := recordLost_read
      (b := b.withBss ((b.bss.correct e).countOnce [.index n, .record n])) hr path false
      ((b.bss.errorOf (.record n)).any (·.tagLost))
    exact ⟨(counted _).trans lost, y, hy, fun _ => ⟨hid, hplace⟩, nofun⟩
  · have record : b.bss.errorOf (.record n) = none := hb _ (by simp)
    have clear := readItem_clear (b := b.withBss (b.bss.correct e)) (corrected.clear _ record)
    simp only [hr, item, clear, hard, Bool.true_or, if_true, record, Option.any_none]
    obtain ⟨lost, y, hy, hid, hplace⟩ := recordLost_read
      (b := b.withBss ((b.bss.correct e).countOnce [.index n, .record n])) hr path true false
    exact ⟨(counted _).trans lost, y, hy, nofun, fun _ => ⟨hplace, hid⟩⟩

theorem readSlots_clear {b : Book} {n : Nat} {y : Damaged} (hn : b.slot n = some (.damaged y)) {l : List Nat}
    (hl : ∀ m, m ≠ n → b.bss.errorOf (.index m) = none ∧ b.bss.errorOf (.record m) = none) : b.readSlots l = b := by
  unfold Book.readSlots
  induction l with
  | nil => rfl
  | cons m l ih =>
    have read : b.readSlot .demand m = b := by
      by_cases hm : m = n
      · subst hm
        exact readSlot_damaged .demand hn
      · exact readSlot_clear .demand (hl m hm).1 (hl m hm).2
    rw [List.foldl_cons, read]
    exact ih

/-- R57, R169: where one record alone can be lost, reading the slots of a list with it is reading it. -/
theorem readSlots_lost {b : Book} {n : Nat} {y : Damaged} (read : DemandRead b (b.readSlot .demand n) n)
    (hy : (b.readSlot .demand n).slot n = some (.damaged y)) {l : List Nat} (hn : n ∈ l)
    (hl : ∀ m, m ≠ n → b.bss.errorOf (.index m) = none ∧ b.bss.errorOf (.record m) = none) :
    b.readSlots l = b.readSlot .demand n := by
  induction l with
  | nil => cases hn
  | cons m l ih =>
    show (b.readSlot .demand m).readSlots l = _
    by_cases hm : m = n
    · subst hm
      exact readSlots_clear hy fun k hk => ⟨read.clear _ (hl k hk).1, read.clear _ (hl k hk).2⟩
    · rw [readSlot_clear .demand (hl m hm).1 (hl m hm).2]
      exact ih ((List.mem_cons.mp hn).resolve_left (Ne.symm hm))

theorem lostAmong_one {b : Book} {n : Nat} {y : Damaged} (hy : b.slot n = some (.damaged y)) {l : List Nat} (hn : n ∈ l)
    (hl : ∀ m ∈ l, m ≠ n → ∃ r, b.slot m = some (.sound r)) : b.lostAmong l = some y := by
  cases h : b.lostAmong l with
  | none =>
    have := List.findSome?_eq_none_iff.mp h n hn
    rw [hy] at this
    cases this
  | some d =>
    obtain ⟨m, hm, hd⟩ := lostAmong_some h
    by_cases hmn : m = n
    · rw [hmn, hy] at hd
      exact congrArg some (RecSlot.damaged.inj (Option.some.inj hd)).symm
    · obtain ⟨r, hr⟩ := hl m hm hmn
      rw [hr] at hd
      cases hd

/-- R54, R57, R169: a panel claim that finds a candidate lost is answered DAMAGED, whatever it is for. -/
theorem onChoice_lost {b : Book} (hw : b.bke.records.wf = true) (hh : b.bke.horizon ≠ none) {x n : Nat} {r : Record}
    {i : StoreItem} {e : ItemErr} (hmem : (n, r) ∈ b.candidates x) (hi : i = .record n ∨ i = .index n)
    (he : b.bss.errorOf i = some e) (hard : e.hard = true) (hb : SoundBut b i) :
    ∃ b' y, DemandRead b b' n ∧ b'.slot n = some (.damaged y) ∧
      (i = .record n → y.id = some r.id ∧ y.place = some (r.room, r.date)) ∧
      (i = .index n → y.place = none ∧ y.id = some r.id) ∧
      ∀ choose f, b.onChoice x choose f = (b', .refused (Answer.of .damaged) y.id) := by
  obtain ⟨read, y, hy, hrecord, hindex⟩ := readSlot_lost (candidate_sound hw hmem) hi he hard hb .demand
  have clear (m : Nat) (hm : m ≠ n) : b.bss.errorOf (.index m) = none ∧ b.bss.errorOf (.record m) = none := by
    rcases hi with rfl | rfl <;> exact ⟨hb _ (by simp [hm]), hb _ (by simp [hm])⟩
  have hn : n ∈ (b.candidates x).map (·.1) := List.mem_map.mpr ⟨_, hmem, rfl⟩
  have lost : (b.readSlot .demand n).lostAmong ((b.candidates x).map (·.1)) = some y := by
    refine lostAmong_one hy hn fun m hm hne => ?_
    obtain ⟨⟨k, q⟩, hk, rfl⟩ := List.mem_map.mp hm
    exact ⟨q, (read.slots k hne).trans (candidate_sound hw hk)⟩
  refine ⟨_, y, read, hy, hrecord, hindex, fun choose f => ?_⟩
  have hopen : b.bke.horizon.isNone = false := by rwa [Option.isNone_eq_false_iff, Option.isSome_iff_ne_none]
  unfold Book.onChoice
  simp only [hopen, readSlots_lost read hy hn clear, lost, Bool.false_eq_true, if_false]

end Sys2Proof.Machine

/-! PROOFS. CHECK_IN, of the host and of a panel (R48, R49, R54). -/

namespace Sys2Proof.Machine

/-! ## The check-in of a meeting (R48) -/

/-- R48: the record becomes `r'`, the PPU is told, and the check-in is reported to the SQU. -/
def Book.reported (b : Book) (n : Nat) (r r' : Record) (panel : Option Nat) (minute : Nat) : Book :=
  ((b.putRecord n r').news .checkedIn r' panel).tellSqu r minute

section

variable {b : Book} (hs : StoreSound b) (n : Nat) (r r' : Record) (panel : Option Nat) (minute : Nat)
include hs

theorem reported_only : RecordOnly b (b.reported n r r' panel minute) n :=
  ((putRecord_only hs n r').trans (news_only _ n _ r' panel)).trans (tellSqu_only _ n r minute)

theorem reported_slot : (b.reported n r r' panel minute).slot n = some (.sound r') := putRecord_slot hs n r'

theorem reported_handed :
    (b.reported n r r' panel minute).mail.bkeToSqu =
        b.mail.bkeToSqu ++ [{ booking := r.id, run := r.run, minute := minute }] ∧
      (b.reported n r r' panel minute).mail.ppuToBke = b.mail.ppuToBke ∧
      (b.reported n r r' panel minute).mail.bkeToPanel = b.mail.bkeToPanel := by
  unfold Book.reported
  rw [Book.putRecord_sound hs]
  exact ⟨rfl, rfl, rfl⟩

end

section

variable (t : Ctu) (b : Book) (n : Nat) {r : Record} (panel : Option Nat)

theorem checkInMeeting_waits (h : r.state = .awaitingCheckin ∨ r.state = .inProgress) :
    b.checkInMeeting t n r panel =
      (b.reported n r { r with state := .checkedIn, check := .done, graceExpiry := none } panel t.minute,
        Answer.because .ok .checkedIn) := by
  rcases h with h | h <;> simp only [Book.checkInMeeting, h] <;> rfl

theorem checkInMeeting_confirmed (h : r.state = .confirmed) :
    b.checkInMeeting t n r panel =
      if r.check = .early then (b, Answer.because .ok .early)
      else if b.windowOpen t r then
        (b.reported n r { r with check := .early } panel (360 + 15 * r.start), Answer.because .ok .early)
      else (b, Answer.because .refused .notOpen) := by
  unfold Book.checkInMeeting
  split
  case h_2 => rfl
  all_goals
    rename_i other
    rw [h] at other
    cases other

theorem checkInMeeting_early (h : r.state = .confirmed) (hc : r.check ≠ .early) (ho : b.windowOpen t r = true) :
    b.checkInMeeting t n r panel =
      (b.reported n r { r with check := .early } panel (360 + 15 * r.start), Answer.because .ok .early) := by
  rw [checkInMeeting_confirmed t b n panel h, if_neg hc, if_pos ho]

/-- R48: where the check-in of a meeting changes nothing. -/
theorem checkInMeeting_stays :
    (r.state = .confirmed → r.check ≠ .early → b.windowOpen t r = false →
        b.checkInMeeting t n r panel = (b, Answer.because .refused .notOpen)) ∧
      (r.state = .confirmed → r.check = .early → b.checkInMeeting t n r panel = (b, Answer.because .ok .early)) ∧
      (r.state = .checkedIn → b.checkInMeeting t n r panel = (b, Answer.because .ok .checkedIn)) ∧
      (r.state = .held → b.checkInMeeting t n r panel = (b, Answer.because .refused .state)) ∧
      (r.state = .released ∨ r.state = .ended → b.checkInMeeting t n r panel = (b, Answer.of .tooLate)) ∧
      (r.state = .cancelled → b.checkInMeeting t n r panel = (b, Answer.because .refused .terminal)) := by
  refine ⟨fun h hc ho => ?_, fun h hc => ?_, fun h => ?_, fun h => ?_, fun h => ?_, fun h => ?_⟩
  · rw [checkInMeeting_confirmed t b n panel h, if_neg hc, ho]
    rfl
  · rw [checkInMeeting_confirmed t b n panel h, if_pos hc]
  · simp only [Book.checkInMeeting, h]
  · simp only [Book.checkInMeeting, h]
  · rcases h with h | h <;> simp only [Book.checkInMeeting, h]
  · simp only [Book.checkInMeeting, h]

/-- R48: a check-in leaves the book as it is, or reports a change of the record. -/
theorem checkInMeeting_cases :
    (∃ a, b.checkInMeeting t n r panel = (b, a)) ∨
      ∃ r' m a, b.checkInMeeting t n r panel = (b.reported n r r' panel m, a) := by
  obtain ⟨closed, early, checked, held, late, gone⟩ := checkInMeeting_stays t b n (r := r) panel
  cases h : r.state with
  | awaitingCheckin => exact .inr ⟨_, _, _, checkInMeeting_waits t b n panel (.inl h)⟩
  | inProgress => exact .inr ⟨_, _, _, checkInMeeting_waits t b n panel (.inr h)⟩
  | confirmed =>
    by_cases hc : r.check = .early
    · exact .inl ⟨_, early h hc⟩
    · cases ho : b.windowOpen t r with
      | true => exact .inr ⟨_, _, _, checkInMeeting_early t b n panel h hc ho⟩
      | false => exact .inl ⟨_, closed h hc ho⟩
  | checkedIn => exact .inl ⟨_, checked h⟩
  | held => exact .inl ⟨_, held h⟩
  | released => exact .inl ⟨_, late (.inl h)⟩
  | ended => exact .inl ⟨_, late (.inr h)⟩
  | cancelled => exact .inl ⟨_, gone h⟩

end

/-- R48: a check-in changes the record at most, and no cell. -/
theorem checkInMeeting_only {t : Ctu} {b b' : Book} {n : Nat} {r : Record} {panel : Option Nat} {a : Answer}
    (hs : StoreSound b) (h : b.checkInMeeting t n r panel = (b', a)) :
    RecordOnly b b' n ∧ b'.mail.ppuToBke = b.mail.ppuToBke ∧ b'.mail.bkeToPanel = b.mail.bkeToPanel := by
  rcases checkInMeeting_cases t b n (r := r) panel with ⟨a', he⟩ | ⟨r', m, a', he⟩ <;>
    obtain ⟨rfl, -⟩ := Prod.mk.inj (h.symm.trans he)
  · exact ⟨.refl b' n, rfl, rfl⟩
  · exact ⟨reported_only hs n r r' panel m, (reported_handed hs n r r' panel m).2⟩

theorem windowOpen_iff (t : Ctu) (b : Book) (r : Record) :
    b.windowOpen t r = true ↔ b.isToday r.date = true ∧ 360 + 15 * r.start ≤ t.minute + 10 := by
  unfold Book.windowOpen
  rw [Bool.and_eq_true, decide_eq_true_iff]
  rfl

/-! ## CHECK_IN -/

/-- R48: the CHECK_IN of a live meeting. -/
theorem checkIn_eq {b : Book} {n : Nat} {r : Record} (hs : StoreSound b) (hh : b.bke.horizon ≠ none)
    (hr : HoldsLive b n r) (hk : r.kind = .meeting) (t : Ctu) :
    Book.checkIn t r.id b = .ok (b.checkInMeeting t n r none) := by
  unfold Book.checkIn
  simp only [Book.tryHorizon_open hh, hr.fetch hs, closureRefusal_meeting hk, refuseIf, firstFail, bind, Except.bind]
  rfl

/-- R54, R125: a panel claim that comes to a result and changes nothing. -/
theorem panelClaim_same {i : Instr} {s : State} {c : PanelClaim} {rest : List PanelClaim} {x : PanelResult}
    {f : PanelClaim → Book → Option (Book × PanelResult)} (hm : s.book.mail.ppuToBke = c :: rest)
    (hi : exec i s = .next { s with book := s.book.panelClaim f })
    (hf : f c (s.book.withPanelClaims rest) = some (s.book.withPanelClaims rest, x)) :
    ∃ t, Runs i s t ∧ SameBke s t ∧ PanelAnswered s t c rest x.answer.toPanel x.subject x.placed :=
  ⟨s.panelAnswered (s.book.withPanelClaims rest) c x, hi.trans (congrArg Host.Outcome.next (panelClaim_eq hm hf)),
    (s.panelAnswered_taken _ c x).sameBke, State.panelAnswered_answered rfl rfl rfl⟩

/-- Settles O25: the outcome of a check-in by the meeting's state; and a panel's, for the meeting chosen, for none, and where the
read of the candidates loses one. -/
theorem checkInFollowsTheState : Obligations.CheckInFollowsTheState := by
  refine ⟨fun s c n r badge rest hq hs hh hr hk => ?_,
    fun s c rest badge n r hm he hs hw hh hr hchoice => ?_,
    fun s c rest badge hm he hs hw hh hchoice => ?_,
    fun s c rest cmd n r i e hm hcmd hw hh hmem hr hi herr hard hb => ?_⟩
  · intro opened
    have hs' : StoreSound (s.book.withRequests rest) := hs
    have op := checkIn_eq (b := s.book.withRequests rest) hs hh hr hk s.ctu
    have window := windowOpen_iff s.ctu (s.book.withRequests rest) r
    obtain ⟨closed, early, checked, held, late, gone⟩ :=
      checkInMeeting_stays s.ctu (s.book.withRequests rest) n (r := r) none
    generalize hx : (s.book.withRequests rest).checkInMeeting s.ctu n r none = x at op closed early checked held late gone
    obtain ⟨b', a⟩ := x
    obtain ⟨only, -⟩ := checkInMeeting_only hs' hx
    have t := s.afterClaim_ok c op ((LiveClaim.refl _ n r.room r.date).record only)
    have stays {a' : Answer} (h : (b', a) = (s.book.withRequests rest, a')) :
        (s.afterClaim rest c (Book.checkIn s.ctu r.id)).book.slot n = some (.sound r) ∧
          Replied s (s.afterClaim rest c (Book.checkIn s.ctu r.id)) c a' ∧
          (s.afterClaim rest c (Book.checkIn s.ctu r.id)).book.mail.bkeToSqu = s.book.mail.bkeToSqu := by
      obtain ⟨rfl, rfl⟩ := Prod.mk.inj h
      exact ⟨(t.taken.slot n).trans hr.2.1, t.replied, by rw [t.mail]; rfl⟩
    have became {r' : Record} {d : Detail} {m : Nat}
        (h : (s.book.withRequests rest).checkInMeeting s.ctu n r none =
          ((s.book.withRequests rest).reported n r r' none m, Answer.because .ok d)) :
        (s.afterClaim rest c (Book.checkIn s.ctu r.id)).book.slot n = some (.sound r') ∧
          Replied s (s.afterClaim rest c (Book.checkIn s.ctu r.id)) c (Answer.because .ok d) ∧
          (s.afterClaim rest c (Book.checkIn s.ctu r.id)).book.mail.bkeToSqu =
            s.book.mail.bkeToSqu ++ [{ booking := r.id, run := r.run, minute := m }] := by
      obtain ⟨rfl, rfl⟩ := Prod.mk.inj (hx.symm.trans h)
      exact ⟨(t.taken.slot n).trans (reported_slot hs' ..), t.replied,
        (congrArg Mail.bkeToSqu t.mail).trans (reported_handed hs' n r r' none m).1⟩
    refine ⟨_, hq.runs_afterClaim (i := .checkIn) rfl rfl, t.requests, t.keeps,
      fun x d => t.taken.row_kept (congrArg (fun y : Table Row => y.find (rowKey x d)) only.rows),
      t.taken.holds.trans (by rw [only.bke]; rfl), fun hst => became (checkInMeeting_waits _ _ n none hst),
      fun hst hc ho => became (checkInMeeting_early _ _ n none hst hc (window.mpr ho)),
      fun hst hc ho => stays (closed hst hc (Bool.eq_false_iff.mpr fun hw => ho (window.mp hw))),
      fun hst hc => stays (early hst hc), fun hst => stays (checked hst), fun hst => stays (held hst),
      fun hst => stays (late hst), fun hst => stays (gone hst)⟩
  · have hs' : StoreSound (s.book.withPanelClaims rest) := hs
    obtain ⟨-, -, -, -, late, -⟩ := checkInMeeting_stays s.ctu (s.book.withPanelClaims rest) n (r := r) (some c.room)
    have chosen : (s.book.withPanelClaims rest).panelCheckIn s.ctu c.room = _ := onChoice_chosen hs' hw hh _ hchoice
    generalize hx : (s.book.withPanelClaims rest).checkInMeeting s.ctu n r (some c.room) = x at chosen late
    obtain ⟨b', a⟩ := x
    obtain ⟨only, claims, panels⟩ := checkInMeeting_only hs' hx
    obtain ⟨run, t⟩ := runs_panelClaim (i := .panelCheckIn) hm rfl (by simp only [he]; exact congrArg some chosen)
      ((LiveClaim.refl _ n r.room r.date).record only) claims panels
    refine ⟨_, run, fun hst => ?_, fun hst hc ho => ?_, fun hst => ?_⟩
    · obtain ⟨rfl, rfl⟩ := Prod.mk.inj (hx.symm.trans (checkInMeeting_waits _ _ n _ (.inl hst)))
      exact ⟨(t.taken.slot n).trans (reported_slot hs' ..), t.answered⟩
    · obtain ⟨rfl, rfl⟩ := Prod.mk.inj (hx.symm.trans (checkInMeeting_early _ _ n _ hst hc ho))
      exact ⟨(t.taken.slot n).trans (reported_slot hs' ..), t.answered⟩
    · obtain ⟨rfl, rfl⟩ := Prod.mk.inj (late (.inl hst))
      exact ⟨(t.taken.slot n).trans hr.2.1, t.answered⟩
  · have nothing : (s.book.withPanelClaims rest).panelCheckIn s.ctu c.room = _ :=
      onChoice_nothing (b := s.book.withPanelClaims rest) hs hw hh _ hchoice
    have lost : (s.book.withPanelClaims rest).lostCandidate c.room = s.book.lostCandidate c.room := rfl
    rw [lost] at nothing
    cases hd : s.book.lostCandidate c.room with
    | none =>
      rw [hd] at nothing
      obtain ⟨t, run, same, answered⟩ := panelClaim_same (i := .panelCheckIn) hm rfl
        (by simp only [he]; exact congrArg some nothing)
      exact ⟨t, run, same, fun _ => answered, nofun⟩
    | some d =>
      rw [hd] at nothing
      obtain ⟨t, run, same, answered⟩ := panelClaim_same (i := .panelCheckIn) hm rfl
        (by simp only [he]; exact congrArg some nothing)
      refine ⟨t, run, same, nofun, fun d' hd' => ?_⟩
      obtain rfl := Option.some.inj hd'
      exact answered
  · obtain ⟨b', y, read, hy, hrecord, hindex, lost⟩ :=
      onChoice_lost (b := s.book.withPanelClaims rest) hw hh hmem hi herr hard hb
    have taken := s.panelAnswered_taken b' c (.refused (Answer.of .damaged) y.id)
    have run : Runs cmd s (s.panelAnswered b' c (.refused (Answer.of .damaged) y.id)) := by
      rcases hcmd with ⟨rfl, badge, he⟩ | ⟨rfl, he⟩ | ⟨rfl, he⟩
      · exact congrArg Host.Outcome.next (panelClaim_eq hm (by simp only [he]; exact congrArg some (lost _ _)))
      · exact congrArg Host.Outcome.next (panelClaim_eq hm (by simp only [he]; exact congrArg some (lost _ _)))
      · exact congrArg Host.Outcome.next (panelClaim_eq hm (by simp only [he]; exact congrArg some (lost _ _)))
    exact ⟨_, y, run, (taken.slot n).trans hy, fun m hne => (taken.slot m).trans (read.slots m hne), read.claims,
      taken.squ.trans read.squ, congrArg (· ++ _) read.panels, hrecord, hindex⟩

end Sys2Proof.Machine

/-! SUPPORT. The run of a meeting that a MOVE places anew (R162), behind the reports handed to the SQU before. -/

namespace Sys2Proof

theorem risingFrom_mapValues {α β : Type} (f : Nat → α → β) (l : List (Nat × α)) (low : Nat) :
    risingFrom low (l.map fun e => (e.1, f e.1 e.2)) = risingFrom low l := by
  induction l generalizing low with
  | nil => rfl
  | cons e l ih =>
    show (decide (low ≤ e.1) && risingFrom (e.1 + 1) (l.map _)) = _
    rw [ih]
    rfl

theorem Table.wf_mapValues {α β : Type} (t : Table α) (f : Nat → α → β) : (t.mapValues f).wf = t.wf :=
  risingFrom_mapValues f t.entries 0

end Sys2Proof

namespace Sys2Proof.Machine

/-! ## The runs stay under their ids -/

theorem rewriteRun_keyed {q : Squ} (h : RunsKeyed q) (r : Run) : RunsKeyed (q.rewriteRun r) := by
  have hruns : (q.rewriteRun r).runs = q.runs.mapValues fun k x => if k = r.id then r else x := by
    unfold Squ.rewriteRun Squ.oweFor
    split <;> rfl
  unfold RunsKeyed
  rw [hruns, Table.wf_mapValues]
  refine ⟨h.1, fun k x hx => ?_⟩
  rw [Table.find_mapValues] at hx
  obtain ⟨y, hy, rfl⟩ := Option.map_eq_some_iff.mp hx
  split
  · next hk => exact hk.symm
  · exact h.2 k y hy

theorem squTaken_keyed {b : Book} (h : RunsKeyed b.squ) : RunsKeyed b.squTaken := by
  unfold Book.squTaken
  generalize b.squ = q at h
  induction b.mail.bkeToSqu generalizing q with
  | nil => exact h
  | cons c l ih =>
    refine ih _ ?_
    unfold Squ.checkinReport
    split
    · exact h
    · split
      · exact h
      · exact rewriteRun_keyed h _

/-- R42, R153: the reports taken leave the next run id and the rooms' templates as they were. -/
theorem SameRuns.newRunId {q q' : Squ} (h : SameRuns q q') : q'.newRunId = q.newRunId := by
  unfold Squ.newRunId
  rw [h.keys, h.lastRun, h.size]

theorem SameRuns.templateOf {q q' : Squ} (h : SameRuns q q') (rm : Room) : q'.templateOf rm = q.templateOf rm := by
  unfold Squ.templateOf
  rw [h.templates]

/-- R156: a run dropped leaves the SQU's clock, by which steps are placed, as it was. -/
theorem stepPlaced_dropRun (q : Squ) (id : Nat) : StepPlaced (q.dropRun id) = StepPlaced q := by
  funext d a x y
  exact propext ⟨fun h => ⟨h.step, h.firedAt, h.due, h.mark⟩, fun h => ⟨h.step, h.firedAt, h.due, h.mark⟩⟩

theorem RunFresh.of_dropRun {q : Squ} {i id booking room : Nat} {rm : Room} {d : Date} {start count : Nat}
    {checkin : Option Nat} {k : Nat} {x : Template} {r : Run}
    (h : RunFresh (q.dropRun i) id booking room rm d start count checkin k x r) :
    RunFresh q id booking room rm d start count checkin k x r := by
  have steps := h.steps
  simp only [stepPlaced_dropRun] at steps
  exact ⟨h.ids, h.place, h.basis, steps⟩

/-! ## The run of a moved meeting, case by case (R162) -/

/-- The book in which the SQU has taken the reports handed to it. -/
def Book.caughtUp (b : Book) : Book := b.inClaim fun q => q

theorem caughtUp_only (b : Book) (n : Nat) : RecordOnly b b.caughtUp n := inClaim_only b n _

section

variable {b : Book} {n : Nat} {m : Record} {rm : Room} (hm : b.slot n = some (.sound m))
include hm

/-- R162: a HELD meeting has no run to move. -/
theorem moveRun_held (hst : m.state ≠ .confirmed) : b.moveRun n rm = b := by
  unfold Book.moveRun
  simp only [Book.soundAt, hm]
  exact if_pos hst

variable (hst : m.state = .confirmed)
include hst

theorem moveRun_eq :
    b.moveRun n rm =
      match b.squTaken.ownRun m, b.squTaken.templateOf rm with
      | none, some _ => b.caughtUp.makeRun n m.earlyMinute
      | none, none => b.caughtUp
      | some run, some (t, _) =>
        if run.template = t then b.caughtUp.withSqu (b.squTaken.moveRetime run m.room rm m.date m.start m.count)
        else
          b.caughtUp.withSqu
            ((b.squTaken.dropRun run.id).create run.id m.id m.room rm m.date m.start m.count m.earlyMinute)
      | some run, none => (b.caughtUp.withSqu (b.squTaken.dropRun run.id)).putRecord n { m with run := none } := by
  unfold Book.moveRun
  simp only [Book.soundAt, hm, hst, ne_eq, not_true_eq_false, if_false]
  rfl

variable (hs : StoreSound b)
include hs

/-- R162: what a MOVE makes of the run touches the record's run at most, and tells the PPU nothing. -/
theorem moveRun_only :
    RecordOnly b (b.moveRun n rm) n ∧ (∃ x, (b.moveRun n rm).slot n = some (.sound { m with run := x })) ∧
      (b.moveRun n rm).mail.bkeToPpu = b.mail.bkeToPpu := by
  have caught := caughtUp_only b n
  have withSqu (q : Squ) : RecordOnly b (b.caughtUp.withSqu q) n := caught.trans (withSqu_only _ n q)
  rw [moveRun_eq hm hst]
  split
  · obtain ⟨only, x, hx, -⟩ := makeRun_spec (b := b.caughtUp) hs hm m.earlyMinute
    obtain ⟨l, hl⟩ := makeRun_mail (b := b.caughtUp) hs hm m.earlyMinute
    exact ⟨caught.trans only, ⟨x, hx⟩, by rw [hl]; rfl⟩
  · exact ⟨caught, ⟨m.run, hm⟩, rfl⟩
  · split
    · exact ⟨withSqu _, ⟨m.run, hm⟩, rfl⟩
    · exact ⟨withSqu _, ⟨m.run, hm⟩, rfl⟩
  · next run _ _ =>
    have sound : StoreSound (b.caughtUp.withSqu (b.squTaken.dropRun run.id)) := hs
    refine ⟨(withSqu _).trans (putRecord_only sound n _), ⟨none, putRecord_slot sound n _⟩, ?_⟩
    rw [Book.putRecord_sound sound]
    rfl

end

/-- R162: the record `m` is that of the CONFIRMED meeting `r` at its new place, in slot `n` of the book `b`, in which no run
has been touched; the state `t` has the runs that `b` has after `m`'s is moved, and `r'` is what the record has become. -/
structure RunTaken (s t : State) (b : Book) (n : Nat) (r m r' : Record) (rm : Room) : Prop where
  sound : StoreSound b
  squ : b.squTaken = s.book.squTaken
  slot : b.slot n = some (.sound m)
  state : m.state = .confirmed
  same : m.id = r.id ∧ m.run = r.run ∧ m.check = r.check
  room : b.room m.room = some rm
  after : (b.moveRun n rm).slot n = some (.sound { m with run := r'.run })
  place : r'.room = m.room ∧ r'.date = m.date ∧ r'.start = m.start ∧ r'.count = m.count
  runs : t.book.squ = (b.moveRun n rm).squ

section

variable {s t : State} {b : Book} {n : Nat} {r m r' : Record} {rm : Room} (h : RunTaken s t b n r m r' rm)
include h

/-- The record's run after the move, by the book that the move of the run came to. -/
theorem RunTaken.run {b' : Book} {x : Option Nat} (he : b.moveRun n rm = b')
    (hx : b'.slot n = some (.sound { m with run := x })) : r'.run = x := by
  have hafter := h.after
  rw [he, hx] at hafter
  exact (congrArg Record.run (RecSlot.sound.inj (Option.some.inj hafter))).symm

theorem RunTaken.early : m.earlyMinute = if r.check = .early then some (360 + 15 * r'.start) else none := by
  obtain ⟨-, -, hcheck⟩ := h.same
  obtain ⟨-, -, hstart, -⟩ := h.place
  unfold Record.earlyMinute
  rw [hcheck, hstart]
  rfl

/-- R162: the run's move, by the meeting's run and the template of its new room. -/
theorem RunTaken.eq :
    b.moveRun n rm =
      match s.book.squTaken.ownRun r, s.book.squ.templateOf rm with
      | none, some _ => b.caughtUp.makeRun n m.earlyMinute
      | none, none => b.caughtUp
      | some run, some (t, _) =>
        if run.template = t then
          b.caughtUp.withSqu (s.book.squTaken.moveRetime run m.room rm m.date m.start m.count)
        else
          b.caughtUp.withSqu
            ((s.book.squTaken.dropRun run.id).create run.id m.id m.room rm m.date m.start m.count m.earlyMinute)
      | some run, none => (b.caughtUp.withSqu (s.book.squTaken.dropRun run.id)).putRecord n { m with run := none } := by
  obtain ⟨hid, hrun, -⟩ := h.same
  have own : s.book.squTaken.ownRun m = s.book.squTaken.ownRun r := by
    unfold Squ.ownRun
    rw [hid, hrun]
  rw [moveRun_eq h.slot h.state, h.squ, own, (squTaken_same s.book).templateOf]

theorem RunTaken.bare (hno : s.book.squTaken.ownRun r = none) (ht : s.book.squ.templateOf rm = none) :
    r'.run = r.run ∧ t.book.squ = s.book.squTaken := by
  have heq := h.eq
  rw [hno, ht] at heq
  obtain ⟨-, hrun, -⟩ := h.same
  exact ⟨(h.run heq h.slot).trans hrun, h.runs.trans ((congrArg Book.squ heq).trans h.squ)⟩

theorem RunTaken.creates {k : Nat} {x : Template} (hno : s.book.squTaken.ownRun r = none)
    (ht : s.book.squ.templateOf rm = some (k, x)) :
    ∃ z, r'.run = some s.book.squ.newRunId ∧ t.book.squ.lastRun = s.book.squ.newRunId ∧
      RunBecomes s.book.squTaken t.book.squ s.book.squ.newRunId z ∧
      RunFresh s.book.squTaken s.book.squ.newRunId r.id r'.room rm r'.date r'.start r'.count
        (if r.check = .early then some (360 + 15 * r'.start) else .none) k x z := by
  have same := squTaken_same s.book
  have taken : s.book.squTaken.templateOf rm = some (k, x) := (same.templateOf rm).trans ht
  have squ : b.caughtUp.squ = s.book.squTaken := h.squ
  have heq := h.eq
  rw [hno, ht] at heq
  have made := makeRun_some (b := b.caughtUp) h.slot h.room (by rw [squ, taken]; rfl) m.earlyMinute
  rw [squ, same.newRunId] at made
  have heq := heq.trans made
  obtain ⟨hid, -, -⟩ := h.same
  obtain ⟨hroom, hdate, hstart, hcount⟩ := h.place
  obtain ⟨z, becomes, fresh, -⟩ := create_spec taken s.book.squ.newRunId m.id m.room m.date m.start m.count m.earlyMinute
  have runs : t.book.squ =
      { s.book.squTaken.create s.book.squ.newRunId m.id m.room rm m.date m.start m.count m.earlyMinute with
        lastRun := s.book.squ.newRunId } := by
    rw [h.runs, heq, Book.putRecord_sound (by exact h.sound), ← h.squ]
    rfl
  rw [← h.early, runs, hroom, hdate, hstart, hcount, ← hid]
  exact ⟨z, h.run heq (putRecord_slot (by exact h.sound) n _), rfl,
    ⟨becomes.found, becomes.others, becomes.owed, becomes.catchUps, becomes.same⟩, fresh⟩

/-- R162: a retime under the room's own template. -/
theorem RunTaken.retimes {k : Nat} {x : Template} {y : Run} (hown : s.book.squTaken.ownRun r = some y)
    (ht : s.book.squ.templateOf rm = some (k, x)) (hk : y.template = k) :
    r'.run = r.run ∧ t.book.squ = s.book.squTaken.moveRetime y r'.room rm r'.date r'.start r'.count := by
  have heq := h.eq
  rw [hown, ht] at heq
  have heq := heq.trans (if_pos hk)
  obtain ⟨-, hrun, -⟩ := h.same
  obtain ⟨hroom, hdate, hstart, hcount⟩ := h.place
  rw [hroom, hdate, hstart, hcount]
  exact ⟨(h.run heq h.slot).trans hrun, h.runs.trans (congrArg Book.squ heq)⟩

/-- R162: a replacement under the run's id. -/
theorem RunTaken.replaces {k : Nat} {x : Template} {y : Run} (hown : s.book.squTaken.ownRun r = some y)
    (ht : s.book.squ.templateOf rm = some (k, x)) (hk : y.template ≠ k) :
    ∃ z, r'.run = r.run ∧ t.book.squ.lastRun = s.book.squ.lastRun ∧
      RunBecomes s.book.squTaken t.book.squ y.id z ∧
      RunFresh s.book.squTaken y.id r.id r'.room rm r'.date r'.start r'.count
        (if r.check = .early then some (360 + 15 * r'.start) else .none) k x z := by
  have same := squTaken_same s.book
  have taken : (s.book.squTaken.dropRun y.id).templateOf rm = some (k, x) := (same.templateOf rm).trans ht
  have heq := h.eq
  rw [hown, ht] at heq
  have heq := heq.trans (if_neg hk)
  obtain ⟨hid, hrun, -⟩ := h.same
  obtain ⟨hroom, hdate, hstart, hcount⟩ := h.place
  obtain ⟨z, becomes, fresh, last⟩ := create_spec taken y.id m.id m.room m.date m.start m.count m.earlyMinute
  rw [← h.early, h.runs.trans (congrArg Book.squ heq), hroom, hdate, hstart, hcount, ← hid]
  refine ⟨z, (h.run heq h.slot).trans hrun, last.trans same.lastRun,
    ⟨becomes.found, fun j hj => ?_, becomes.owed, fun j hj => ?_, becomes.same⟩,
    fresh.of_dropRun⟩
  · exact (becomes.others j hj).trans (Table.find_drop_ne _ _ _ hj)
  · refine (becomes.catchUps j hj).trans ?_
    show j ∈ s.book.squTaken.catchUps.filter _ ↔ _
    simp [hj]

/-- R162: the run's removal, where the new room has no template. -/
theorem RunTaken.removes {y : Run} (hown : s.book.squTaken.ownRun r = some y) (ht : s.book.squ.templateOf rm = none) :
    r'.run = none ∧ RunGone s.book.squTaken t.book.squ y.id := by
  have heq := h.eq
  rw [hown, ht] at heq
  dsimp only at heq
  have runs : t.book.squ = s.book.squTaken.dropRun y.id := by
    rw [h.runs, heq, Book.putRecord_sound (by exact h.sound)]
    rfl
  rw [runs]
  exact ⟨h.run heq (putRecord_slot (by exact h.sound) n _), Table.find_drop_self .., fun j hj => Table.find_drop_ne _ _ _ hj,
    fun j => by simp [Squ.dropRun], rfl, rfl, rfl, rfl⟩

/-- R162: the run is created, retimed, replaced or removed, as the new room's template has it. -/
theorem RunTaken.moved (hk : RunsKeyed s.book.squ) : RunMoved s t r r' rm := by
  have own (y : Run) := ownRun_iff (squTaken_keyed hk) r y
  have noOwn (hno : ∀ y, ¬IsOwnRun s.book.squTaken r y) : s.book.squTaken.ownRun r = none :=
    Option.eq_none_iff_forall_ne_some.mpr fun y hy => hno y ((own y).mp hy)
  refine ⟨fun hno ht => h.bare (noOwn hno) ht, fun k x hno ht => h.creates (noOwn hno) ht, fun k x y hy ht hk => ?_,
    fun k x y hy ht hk => h.replaces ((own y).mpr hy) ht hk, fun y hy ht => h.removes ((own y).mpr hy) ht⟩
  obtain ⟨run, runs⟩ := h.retimes ((own y).mpr hy) ht hk
  obtain ⟨l, last, becomes, steps⟩ := moveRetime_spec hy.2.1 r'.room rm r'.date r'.start r'.count
  rw [runs]
  exact ⟨l, run, last, becomes, steps⟩

end

end Sys2Proof.Machine

/-! SUPPORT. A meeting that a MOVE places anew in the live book (R45, R46): the rows of two families, the record at its new place,
and its start there. -/

namespace Sys2Proof.Machine

/-! ## The rows of two families -/

/-- Room-days whose rows stand under their own keys have keys of their own. -/
theorem RowsStandIn.key {t : Table Row} {l l' : List Nat} {d d' : Date} (h : RowsStandIn t l d) (h' : RowsStandIn t l' d')
    {x y : Nat} (hx : x ∈ l) (hy : y ∈ l') (hk : rowKey x d = rowKey y d') : x = y ∧ d = d' := by
  obtain ⟨r, hr, hroom, hdate, -⟩ := h x hx
  obtain ⟨r', hr', hroom', hdate', -⟩ := h' y hy
  rw [hk, hr'] at hr
  obtain rfl := Option.some.inj hr
  exact ⟨hroom.symm.trans hroom', hdate.symm.trans hdate'⟩

section

variable {t t' t'' : Table Row} {l l' : List Nat} {d d' : Date} {f g : Nat → Nat → Cell → Cell}
  (hl : RowsStandIn t l d) (hl' : RowsStandIn t l' d') (h : RowsPainted t t' l d f)
include hl hl' h

/-- R20: the rows of another family once those of the first are written. -/
theorem RowsPainted.seen :
    RowsBecome t t' l' d' fun x k c => if d' = d ∧ x ∈ l then f x k c else c := by
  intro x hx r hr
  by_cases hsame : d' = d ∧ x ∈ l
  · obtain ⟨rfl, hin⟩ := hsame
    obtain ⟨r', hr', hb⟩ := h.painted x hin r hr
    exact ⟨r', hr', hb.congr fun k _ c => (if_pos ⟨rfl, hin⟩).symm⟩
  · have kept : t'.find (rowKey x d') = some r := by
      rw [h.others _ fun y hy hk => ?_]
      · exact hr
      · obtain ⟨rfl, rfl⟩ := hl.key hl' hy hx hk
        exact hsame ⟨rfl, hy⟩
    exact ⟨r, kept, ⟨rfl, rfl⟩, rfl, rfl, fun _ => rfl, fun hg => ⟨hg, fun k _ => by simp only [hsame, if_false]⟩⟩

/-- R46: the rows of the new family, behind the writing of the old one. -/
theorem RowsPainted.second (h' : RowsPainted t' t'' l' d' g) :
    RowsBecome t t'' l' d' fun x k c => g x k (if d' = d ∧ x ∈ l then f x k c else c) := by
  intro x hx r hr
  obtain ⟨r', hr', hb⟩ := h.seen hl hl' x hx r hr
  obtain ⟨r'', hr'', hb'⟩ := h'.painted x hx r' hr'
  exact ⟨r'', hr'', hb.trans hb'⟩

/-- R46: the rows of the old family, where the new one has none of them. -/
theorem RowsPainted.first (h' : RowsPainted t' t'' l' d' g) (hne : ∀ x ∈ l, d' = d → x ∉ l') : RowsBecome t t'' l d f := by
  intro x hx r hr
  obtain ⟨r', hr', hb⟩ := h.painted x hx r hr
  refine ⟨r', ?_, hb⟩
  rw [h'.others _ fun y hy hk => ?_]
  · exact hr'
  · obtain ⟨rfl, rfl⟩ := hl'.key hl hy hx hk
    exact hne y hx rfl hy

end

/-! ## The record at its new place (R46) -/

/-- R46: the record in slot `n` becomes `m`, the cells of `r` freed and those of `m` written, and the PPU and the CSC are
told. -/
def Book.movedAnew (b : Book) (n : Nat) (r m : Record) : Book :=
  ((((b.uncover .live r).putIndexed n m).cover .live m).tellPpu
    (.change { kind := .moved, room := m.room, date := m.date, before := some (r.room, r.date), panel := none })).tellCsc r.id
      (.moved m.room m.date m.start m.count)

/-- R46: the rows after the old cells are freed, and those after the new ones are written. -/
def Book.rowsFreed (b : Book) (r : Record) : Table Row :=
  paintRows b.bke.rows (rowFamily b.bke.rooms r.room) r.date fun x => freePatches (r.patches x)

def Book.rowsMoved (b : Book) (r m : Record) : Table Row :=
  paintRows (b.rowsFreed r) (rowFamily b.bke.rooms m.room) m.date fun x => applyPatches (m.patches x)

section

variable {b : Book} (hs : StoreSound b) (n : Nat) (r m : Record)
include hs

theorem movedAnew_eq :
    b.movedAnew n r m =
      (((((b.withRows (b.rowsFreed r)).putSlot n (.sound m)).withRows (b.rowsMoved r m)).tellPpu
        (.change { kind := .moved, room := m.room, date := m.date, before := some (r.room, r.date), panel := none })).tellCsc
          r.id (.moved m.room m.date m.start m.count)) := by
  have freed : StoreSound (b.withRows (b.rowsFreed r)) := hs
  have placed : StoreSound ((b.withRows (b.rowsFreed r)).putSlot n (.sound m)) := hs
  have uncovered : b.uncover .live r = b.withRows (b.rowsFreed r) := Book.uncover_sound hs r
  unfold Book.movedAnew
  rw [uncovered, Book.putIndexed_sound freed, Book.cover_sound placed]
  rfl

theorem movedAnew_only : ClaimOnly b (b.movedAnew n r m) n := by
  rw [movedAnew_eq hs]
  exact ⟨rfl, rfl, rfl, rfl, rfl, fun k hk => Table.find_put_ne _ _ _ _ hk, rfl⟩

theorem movedAnew_slot : (b.movedAnew n r m).slot n = some (.sound m) := by
  rw [movedAnew_eq hs]
  exact Table.find_put_self ..

theorem movedAnew_rest :
    (b.movedAnew n r m).squ = b.squ ∧ (b.movedAnew n r m).squTaken = b.squTaken ∧
      (b.movedAnew n r m).bke.holds = b.bke.holds ∧ (b.movedAnew n r m).bke.rows = b.rowsMoved r m ∧
      (b.movedAnew n r m).mail.bkeToPpu = b.mail.bkeToPpu ++
        [.change { kind := .moved, room := m.room, date := m.date, before := some (r.room, r.date), panel := none }] := by
  rw [movedAnew_eq hs]
  exact ⟨rfl, rfl, rfl, rfl, rfl⟩

end

section

variable {b : Book} {r m : Record} (hr : RowsStandIn b.bke.rows (rowFamily b.bke.rooms r.room) r.date)
  (hm : RowsStandIn b.bke.rows (rowFamily b.bke.rooms m.room) m.date)
include hr hm

theorem rowsMoved_painted :
    RowsPainted b.bke.rows (b.rowsFreed r) (rowFamily b.bke.rooms r.room) r.date (fun _ => r.cleared) ∧
      RowsPainted (b.rowsFreed r) (b.rowsMoved r m) (rowFamily b.bke.rooms m.room) m.date m.written := by
  have freed := uncover_painted r hr
  exact ⟨freed, cover_painted m ((freed.seen hr hm).stand hm)⟩

/-- R20, R46: the rows of the new family. -/
theorem rowsMoved_new :
    RowsBecome b.bke.rows (b.rowsMoved r m) (rowFamily b.bke.rooms m.room) m.date fun x k c =>
      m.written x k (if m.date = r.date ∧ x ∈ rowFamily b.bke.rooms r.room then r.cleared k c else c) := by
  obtain ⟨freed, written⟩ := rowsMoved_painted hr hm
  exact freed.second hr hm written

/-- R20, R46: the rows of the old family, where none of them is of the new one. -/
theorem rowsMoved_old (hne : ∀ x ∈ rowFamily b.bke.rooms r.room, m.date = r.date → x ∉ rowFamily b.bke.rooms m.room) :
    RowsBecome b.bke.rows (b.rowsMoved r m) (rowFamily b.bke.rooms r.room) r.date fun _ => r.cleared := by
  obtain ⟨freed, written⟩ := rowsMoved_painted hr hm
  exact freed.first hr hm written hne

end

/-- R20, R46: the cells of a meeting at its new place. -/
theorem Record.written_moved {r m : Record} (hk : m.kind = .meeting) (ha : m.state.active = true)
    (hb : m.bufState = bufStateOf m.bufSlots) (ha' : r.state.active = true) {p : Prop} [Decidable p] (x k : Nat) (c : Cell) :
    m.written x k (if p then r.cleared k c else c) =
      if m.start ≤ k ∧ k < m.start + m.count + m.bufSlots then
        spanWritten m.room m.start m.count m.bufSlots (if m.state = .held then .held else .booked) x k c
      else if p then spanCleared r x k c else c := by
  rw [Record.cleared_eq ha' x k c]
  by_cases hh : m.state = .held
  · rw [Record.written_held hk hh, heldBuffer_fitted hb, if_pos hh]
    unfold spanWritten
    grind
  · rw [Record.written_booked ha hk hh, heldBuffer_fitted hb, if_neg hh]
    unfold spanWritten
    grind

end Sys2Proof.Machine

/-! SUPPORT. MOVE in the write edition LIVE (R45, R46): its checks, what it makes, and that the conflict test refuses it. -/

namespace Sys2Proof.Machine

/-- R47: a start at once tells the PPU more, and takes back nothing. -/
theorem startIfBegun_told {b : Book} {n : Nat} {r : Record} (hs : StoreSound b) (hr : b.slot n = some (.sound r)) (t : Ctu) :
    ∃ l, (b.startIfBegun t n).mail.bkeToPpu = b.mail.bkeToPpu ++ l := by
  unfold Book.startIfBegun
  simp only [Book.soundAt, hr]
  split
  · unfold Book.startMeeting Book.anchorEarly
    simp only [Book.soundAt, hr, Book.putRecord_sound hs]
    split <;> exact ⟨_, rfl⟩
  · exact ⟨[], (List.append_nil _).symm⟩

/-- R45: a meeting that is not a member of a series on the date passes the series check. -/
theorem trySeries_passes {b : Book} {r : Record} {d : Date} (h : b.seriesOn r d = []) : b.trySeries r d = .ok b := by
  unfold Book.trySeries Book.tryRecords Book.readSlots
  simp only [h, List.map_nil, List.foldl_nil, List.all_nil, if_true, bind, Except.bind]
  simp only [refuseIf, firstFail, List.isEmpty_nil, Bool.not_true, pure, Except.pure]

/-- R147: a record without an order has none that must fit. -/
theorem tryFit_passes {b : Book} {r : Record} {rm : Room} {f : MoveFields} (h : r.order = none) : b.tryFit r rm f = .ok b := by
  unfold Book.tryFit Csc.orderFor
  rw [h]
  rfl

section

variable {s : State} {n : Nat} {r : Record} {f : MoveFields} {rm : Room} (h : MoveReaches s n r f rm)
include h

theorem MoveReaches.active : r.state.active = true := by
  rcases h.state with hst | ⟨hst, -⟩ <;> rw [hst] <;> rfl

/-- R45: the checks of a MOVE before the conflict test pass, in the book in which its request has been taken. -/
theorem MoveReaches.moveLive (rest : List Handed) :
    Book.moveLive s.ctu f (s.book.withRequests rest) = (do
      let buf := clipBuffer (f.start + f.count) (s.book.squ.bufferOf rm)
      let b ← (s.book.withRequests rest).tryConflict .live f.room f.date f.start f.count buf (some r)
      refuseIf b [(r.state == .confirmed && (b.squ.ownRun r).isNone && b.runsShort rm, fullRuns)]
      let b ← b.tryReadLive (b.familyDays r.room r.date)
      let b ← b.tryFit r rm f
      let b := ((b.movedAnew n r (r.movedTo f buf)).moveRun n rm).startIfBegun s.ctu n
      return (b, Answer.ok (.placed (b.placed (r.movedTo f buf)) ((b.soundAt n).bind (·.run))))) := by
  have hr : HoldsLive (s.book.withRequests rest) n r := h.held
  have hh : (s.book.withRequests rest).bke.horizon ≠ none := Option.isSome_iff_ne_none.mp h.span.1
  have begun : (r.state.started || (r.state == .held && (s.book.withRequests rest).begun s.ctu r.date r.start)) = false := by
    rcases h.state with hst | ⟨hst, hb⟩
    · rw [hst]
      rfl
    · rw [hst, show (s.book.withRequests rest).begun s.ctu r.date r.start = false from hb]
      rfl
  have span : (s.book.withRequests rest).spanCheck s.ctu f.date f.start f.count (decide (383 < f.room)) = none :=
    spanCheck_of (b := s.book.withRequests rest) h.span (decide_eq_false (Nat.not_lt.mpr h.index))
  have room : (s.book.withRequests rest).tryBookable f.room r.attendees = .ok rm :=
    RoomTakes.bookable (b := s.book.withRequests rest) h.room
  have series : (s.book.withRequests rest).trySeries r f.date = .ok (s.book.withRequests rest) := trySeries_passes h.series
  unfold Book.moveLive
  rw [h.named]
  simp only [Book.tryHorizon_open hh, hr.tryLive h.sound, closureRefusal_meeting h.kind, terminalRefusal, h.active, begun,
    span, series, room, refuseIf, refuseWith, firstFail, bind, Except.bind, Bool.not_true]
  rfl

/-- R25: a MOVE that the conflict test refuses ends with its outcome. -/
theorem MoveReaches.refused (rest : List Handed) {a : Answer} (hb : TestReady s.book .live f.room f.date)
    (ha : TestRefuses s.book .live f.room f.date f.start f.count
      (clipBuffer (f.start + f.count) (s.book.squ.bufferOf rm)) (some r) a) :
    Book.moveLive s.ctu f (s.book.withRequests rest) = .error (s.book.withRequests rest, a) := by
  have test : (s.book.withRequests rest).tryConflict .live f.room f.date f.start f.count
      (clipBuffer (f.start + f.count) (s.book.squ.bufferOf rm)) (some r) = .error (s.book.withRequests rest, a) :=
    (ha.taken _).refused (hb.taken _)
  rw [h.moveLive rest]
  simp only [test, bind, Except.bind]

end

/-! ## What a MOVE makes (R46) -/

/-- R46: the buffer of the record at its new place. -/
def movedBuffer (b : Book) (f : MoveFields) (rm : Room) : Nat := clipBuffer (f.start + f.count) (b.squ.bufferOf rm)

section

variable {s : State} {n : Nat} {r : Record} {f : MoveFields} {rm : Room} (h : MovePasses s n r f rm)
include h

theorem MovePasses.moveLive (rest : List Handed) (ho : r.order = none) :
    let b := (((s.book.withRequests rest).movedAnew n r (r.movedTo f (movedBuffer s.book f rm))).moveRun n rm).startIfBegun s.ctu n
    Book.moveLive s.ctu f (s.book.withRequests rest) =
      .ok (b, Answer.ok (.placed (b.placed (r.movedTo f (movedBuffer s.book f rm))) ((b.soundAt n).bind (·.run)))) := by
  have hs : StoreSound (s.book.withRequests rest) := h.sound
  have test : (s.book.withRequests rest).tryConflict .live f.room f.date f.start f.count
      (clipBuffer (f.start + f.count) (s.book.squ.bufferOf rm)) (some r) = .ok (s.book.withRequests rest) :=
    tryConflict_passes hs h.free
  have runs : (r.state == .confirmed && ((s.book.withRequests rest).squ.ownRun r).isNone &&
      (s.book.withRequests rest).runsShort rm) = false := by
    by_cases hst : r.state = .confirmed
    · cases hown : s.book.squ.ownRun r with
      | none =>
        rw [show (s.book.withRequests rest).runsShort rm = false from h.runs hst hown, Bool.and_false]
      | some y =>
        rw [show (s.book.withRequests rest).squ.ownRun r = some y from hown, Option.isNone_some, Bool.and_false,
          Bool.false_and]
    · rw [beq_eq_false_iff_ne.mpr hst, Bool.false_and, Bool.false_and]
  rw [h.toMoveReaches.moveLive rest]
  simp only [test, runs, Book.tryReadLive_sound hs, tryFit_passes ho, refuseIf, firstFail, bind, Except.bind]
  rfl

end

/-- R46, R47: the meeting `m` at its new place in slot `n`, what it has reached there and with which run. -/
structure MoveMakes (t : Ctu) (b b' : Book) (n : Nat) (r m : Record) (rm : Room) (st : BState) (ck : CheckMark)
    (g x : Option Nat) : Prop where
  only : ClaimOnly b b' n
  slot : b'.slot n = some (.sound (m.reaching st ck g x))
  rows : b'.bke.rows = b.rowsMoved r m
  holds : b'.bke.holds = b.bke.holds
  told : ∃ l, b'.mail.bkeToPpu = b.mail.bkeToPpu ++
    .change { kind := .moved, room := m.room, date := m.date, before := some (r.room, r.date), panel := none } :: l
  squ : b'.squ = ((b.movedAnew n r m).moveRun n rm).squ
  run : ((b.movedAnew n r m).moveRun n rm).slot n = some (.sound { m with run := x })
  held : m.state = .held → st = .held ∧ ck = m.check ∧ b'.squ = b.squ
  confirmed : m.state = .confirmed → StartsAtOnce b t m st ck g

/-- R46: a HELD meeting moved stays HELD, and a CONFIRMED one starts where its new start slot has begun. -/
theorem movedAnew_makes {b : Book} (hs : StoreSound b) (n : Nat) (r m : Record) (rm : Room)
    (hst : m.state = .held ∨ m.state = .confirmed) (t : Ctu) :
    ∃ st ck g x, MoveMakes t b (((b.movedAnew n r m).moveRun n rm).startIfBegun t n) n r m rm st ck g x := by
  obtain ⟨squ, -, holds, rows, told⟩ := movedAnew_rest hs n r m
  have only := movedAnew_only hs n r m
  have slot := movedAnew_slot hs n r m
  have sound := only.sound hs
  rcases hst with hst | hst
  · have unstarted : ((b.movedAnew n r m).moveRun n rm).startIfBegun t n = b.movedAnew n r m := by
      rw [moveRun_held slot (by rw [hst]; decide)]
      unfold Book.startIfBegun
      simp only [Book.soundAt, slot, hst]
      rfl
    rw [unstarted]
    have run := moveRun_held (rm := rm) slot (by rw [hst]; decide)
    exact ⟨m.state, m.check, m.graceExpiry, m.run, only, slot, rows, holds, ⟨[], told⟩, by rw [run], by rw [run]; exact slot,
      fun _ => ⟨hst, rfl, squ⟩, fun h => absurd (hst.symm.trans h) (by decide)⟩
  · obtain ⟨moved, ⟨x, hx⟩, quiet⟩ := moveRun_only (rm := rm) slot hst sound
    have sound' := moved.claim.sound sound
    obtain ⟨started, hslot⟩ := startIfBegun_spec sound' hx t
    obtain ⟨l, hl⟩ := startIfBegun_told sound' hx t
    obtain ⟨st, ck, g, heq, starts⟩ := startsAtOnce ((b.movedAnew n r m).moveRun n rm) t (r := { m with run := x }) hst
    have all := (only.trans moved.claim).trans started.claim
    refine ⟨st, ck, g, x, all, hslot.trans (congrArg (fun y => some (RecSlot.sound y)) heq), ?_, ?_, ⟨l, ?_⟩,
      startIfBegun_squ .., hx, fun h => absurd (hst.symm.trans h) (by decide), fun _ => ?_⟩
    · rw [started.rows, moved.rows, rows]
    · rw [started.bke, moved.bke]
      exact holds
    · rw [hl, quiet, told, List.append_assoc]
      rfl
    · have starts : StartsAtOnce ((b.movedAnew n r m).moveRun n rm) t m st ck g :=
        ⟨starts.later, starts.begun, starts.direct, starts.awaits⟩
      exact starts.of_claim (only.trans moved.claim)

end Sys2Proof.Machine

/-! SUPPORT. MOVE in the write edition DRAFT (R79, R80): its checks, the live record that is marked and stands anew in the draft,
and the draft record that moves. -/

namespace Sys2Proof.Machine

/-- R32: books with the same empty slots have the same new slot. -/
theorem newSlot_congr {b b' : Book} (h : ∀ m, b'.slot m = none ↔ b.slot m = none) : b'.newSlot = b.newSlot := by
  obtain ⟨free, -, below⟩ := newSlot_lowest b
  obtain ⟨free', -, below'⟩ := newSlot_lowest b'
  refine Nat.le_antisymm (Nat.le_of_not_lt fun hlt => ?_) (Nat.le_of_not_lt fun hlt => ?_)
  · exact below' _ hlt ((h _).mpr free)
  · exact below _ hlt ((h _).mp free')

/-! ## The checks of a MOVE (R79, R80) -/

/-- R79, R80: a MOVE of a CONFIRMED meeting that passes its checks up to the conflict test. -/
structure DraftMove (t : Ctu) (b : Book) (n : Nat) (r : Record) (f : MoveFields) (rm : Room) : Prop where
  sound : StoreSound b
  draft : b.bke.draft.damaged = false
  named : f.id = r.id
  slotOf : b.slotOf r.id = some n
  found : b.slot n = some (.sound r)
  kind : r.kind = .meeting
  state : r.state = .confirmed
  index : f.room ≤ 383
  span : SpanPasses t b f.date f.start f.count
  room : RoomTakes b f.room r.attendees rm

theorem DraftMove.taken {t : Ctu} {b : Book} {n : Nat} {r : Record} {f : MoveFields} {rm : Room}
    (h : DraftMove t b n r f rm) (m : Mail) : DraftMove t (b.withMail m) n r f rm := by
  obtain ⟨sound, draft, named, slotOf, found, kind, state, index, span, room⟩ := h
  exact ⟨sound, draft, named, slotOf, found, kind, state, index, span, room⟩

section

variable {t : Ctu} {b : Book} {n : Nat} {r : Record} {f : MoveFields} {rm : Room} (h : DraftMove t b n r f rm)
include h

/-- R79, R80: the place is tested behind the checks. -/
theorem DraftMove.tryDraftPlace :
    Book.tryDraftPlace t f r b = (do
      let b' ← b.tryConflict .draft f.room f.date f.start f.count (movedBuffer b f rm) (some r)
      return (b', movedBuffer b f rm)) := by
  unfold Book.tryDraftPlace
  simp only [spanCheck_of h.span (decide_eq_false (Nat.not_lt.mpr h.index)), RoomTakes.bookable h.room, refuseWith, bind,
    Except.bind]
  rfl

theorem DraftMove.moveDraft :
    Book.moveDraft t f b = if r.edition = .live then Book.moveToDraft t f n r b else Book.moveInDraft t f n r b := by
  have hh : b.bke.horizon ≠ none := Option.isSome_iff_ne_none.mp h.span.1
  unfold Book.moveDraft
  rw [h.named, tryForDraft_found h.sound hh h.draft h.slotOf h.found]
  simp only [bind, Except.bind]
  by_cases hed : r.edition = .live
  · simp only [hed, if_true]
  · simp only [hed, if_false]

theorem DraftMove.refusals :
    firstFail (closureRefusal r :: draftStateRefusals r ++ [(b.isMarked r.id, Answer.because .refused .marked)]) =
      if r.id ∈ b.bke.draft.marked then some (Answer.because .refused .marked) else none := by
  have hheld : (BState.confirmed == .held) = false := rfl
  by_cases hm : r.id ∈ b.bke.draft.marked
  · simp [firstFail, closureRefusal_meeting h.kind, draftStateRefusals, terminalRefusal, h.state, BState.active,
      BState.started, hheld, (isMarked_eq b r.id).mpr hm, hm]
  · have hmark : b.isMarked r.id = false := eq_false_of_ne_true fun e => hm ((isMarked_eq b r.id).mp e)
    simp [firstFail, closureRefusal_meeting h.kind, draftStateRefusals, terminalRefusal, h.state, BState.active,
      BState.started, hheld, hmark, hm]

/-- R79: a live record that is marked is refused. -/
theorem DraftMove.marked (hed : r.edition = .live) (hm : r.id ∈ b.bke.draft.marked) :
    Book.moveDraft t f b = .error (b, Answer.because .refused .marked) := by
  rw [h.moveDraft, if_pos hed]
  unfold Book.moveToDraft refuseIf
  rw [h.refusals, if_pos hm]
  rfl

/-- R25: a MOVE that the conflict test refuses ends with its outcome. -/
theorem DraftMove.refused (hm : r.edition = .live → r.id ∉ b.bke.draft.marked) {a : Answer}
    (hb : TestReady b .draft f.room f.date)
    (ha : TestRefuses b .draft f.room f.date f.start f.count (movedBuffer b f rm) (some r) a) :
    Book.moveDraft t f b = .error (b, a) := by
  have place : Book.tryDraftPlace t f r b = .error (b, a) := by
    rw [h.tryDraftPlace, ha.refused hb]
    rfl
  rw [h.moveDraft]
  split
  · next hed =>
    unfold Book.moveToDraft refuseIf
    rw [h.refusals, if_neg (hm hed), place]
    rfl
  · unfold Book.moveInDraft
    simp only [refuseIf, closureRefusal_meeting h.kind, firstFail, place, bind, Except.bind]

end

/-! ## The draft cells of a MOVE (R79, R80) -/

/-- R79, R80: in the draft rows the cells of `r` are freed and those of `m` are written. -/
structure DraftMoved (b b' : Book) (r m : Record) : Prop where
  new : ∀ x ∈ rowFamily b.bke.rooms m.room, DraftHolds b b'.bke.draft.rows x m.date fun k c =>
    m.written x k (if m.date = r.date ∧ x ∈ rowFamily b.bke.rooms r.room then r.cleared k c else c)
  old : (∀ x ∈ rowFamily b.bke.rooms r.room, m.date = r.date → x ∉ rowFamily b.bke.rooms m.room) →
    ∀ x ∈ rowFamily b.bke.rooms r.room, DraftHolds b b'.bke.draft.rows x r.date r.cleared

/-- R75: the draft rows that a MOVE asks for, those of the old family and of the new one. -/
structure DraftPair (b : Book) (rows : Table DraftRow) (r m : Record) : Prop where
  old : ∀ x ∈ rowFamily b.bke.rooms r.room, DraftHolds b rows x r.date fun _ c => c
  new : ∀ x ∈ rowFamily b.bke.rooms m.room, DraftHolds b rows x m.date fun _ c => c

theorem DraftPair.moved {b b' : Book} {rows freed : Table DraftRow} {r m : Record} (h : DraftPair b rows r m)
    (free : ∀ y e g, DraftHolds b rows y e g → DraftHolds b freed y e fun k c =>
      if e = r.date ∧ y ∈ rowFamily b.bke.rooms r.room then r.cleared k (g k c) else g k c)
    (write : ∀ y e g, DraftHolds b freed y e g → DraftHolds b b'.bke.draft.rows y e fun k c =>
      if e = m.date ∧ y ∈ rowFamily b.bke.rooms m.room then m.written y k (g k c) else g k c) : DraftMoved b b' r m where
  new := fun x hx => (write _ _ _ (free _ _ _ (h.new x hx))).congr fun _ _ _ => if_pos ⟨rfl, hx⟩
  old := fun hne x hx => (write _ _ _ (free _ _ _ (h.old x hx))).congr fun _ _ _ =>
    (if_neg fun hm => hne x hx hm.1.symm hm.2).trans (if_pos ⟨rfl, hx⟩)

theorem DraftReady.pair {b : Book} {r m : Record} (hs : StoreSound b)
    (h : DraftReady b (b.familyDays r.room r.date ++ b.familyDays m.room m.date)) :
    ∃ rows, b.tryDraftRows (b.familyDays r.room r.date ++ b.familyDays m.room m.date) = .ok (b.withDraftRows rows) ∧
      DraftPair b rows r m := by
  obtain ⟨rows, hrows, held⟩ := tryDraftRows_ready hs h
  exact ⟨rows, hrows, fun x hx => held _ (List.mem_append_left _ (mem_familyDays.mpr ⟨rfl, hx⟩)),
    fun x hx => held _ (List.mem_append_right _ (mem_familyDays.mpr ⟨rfl, hx⟩))⟩

/-- R20, R79, R80: the draft rows of either family after the claim. -/
theorem Taken.draftMoved {s t : State} {mail : Mail} {b : Book} {r m : Record} (taken : Taken s t b)
    (h : DraftMoved (s.book.withMail mail) b r m) (hk : m.kind = .meeting) (hm : m.state = .confirmed)
    (hb : m.bufState = bufStateOf m.bufSlots) (hr : r.state = .confirmed) :
    DraftWritten s t m.room m.date (fun x k old =>
      if m.start ≤ k ∧ k < m.start + m.count + m.bufSlots then
        spanWritten m.room m.start m.count m.bufSlots .booked x k old
      else if m.date = r.date ∧ x ∈ rowFamily s.book.bke.rooms r.room then spanCleared r x k old
      else old) ∧
    ((∀ x ∈ rowFamily s.book.bke.rooms r.room, m.date = r.date → x ∉ rowFamily s.book.bke.rooms m.room) →
      DraftWritten s t r.room r.date (spanCleared r)) := by
  have active : m.state.active = true := by rw [hm]; rfl
  have active' : r.state.active = true := by rw [hr]; rfl
  have unheld : m.state ≠ .held := by rw [hm]; decide
  have new := taken.drafts (f := fun x k c => m.written x k
    (if m.date = r.date ∧ x ∈ rowFamily s.book.bke.rooms r.room then r.cleared k c else c)) h.new
  simp only [Record.written_moved hk active hb active', unheld, if_false] at new
  exact ⟨new, fun hne => Record.cleared_span active' ▸ taken.drafts (f := fun _ => r.cleared) (h.old hne)⟩

/-! ## What a MOVE makes (R79, R80) -/

section

variable {t : Ctu} {b : Book} {n : Nat} {r : Record} {f : MoveFields} {rm : Room} (h : DraftMove t b n r f rm)
  (ready : DraftReady b (b.familyDays r.room r.date ++ b.familyDays f.room f.date))
  (free : b.conflict .draft f.room f.date f.start f.count (movedBuffer b f rm) (some r) = none)
include h ready free

/-- R79: the live record is marked, and a draft record stands for it at the new place. -/
theorem DraftMove.marks (hed : r.edition = .live) (hm : r.id ∉ b.bke.draft.marked) (full : b.tableFull = false)
    (short : b.bke.draft.records.length < 512) :
    let m := r.draftAt f b.newId (movedBuffer b f rm)
    ∃ b', Book.moveDraft t f b = .ok (b', Answer.ok (.draftMoved r.id (b.placed m))) ∧ DraftClaim b b' ∧
      b'.slot n = some (.sound { r with cancelMark := true }) ∧ b'.slot b.newSlot = some (.sound m) ∧
      b'.bke.draft.marked = b.bke.draft.marked ++ [r.id] ∧ b'.bke.draft.records = b.bke.draft.records ++ [m.id] ∧
      DraftMoved b b' r m := by
  intro m
  obtain ⟨rows, hrows, pair⟩ := ready.pair (m := m) h.sound
  have hrows : b.tryDraftRows (b.familyDays r.room r.date ++ b.familyDays f.room f.date) = .ok (b.withDraftRows rows) := hrows
  obtain ⟨claim, slots, records, marked, -, freed⟩ :=
    markRecord_makes (b := b.withDraftRows rows) (b₀ := b) h.sound n r fun x hx => ⟨_, pair.old x hx⟩
  have rooms := claim.rooms
  obtain ⟨claim', slots', records', marked', written⟩ :=
    addDraft_makes (b₀ := b) (claim.sound h.sound) m fun x hx => ⟨_, freed _ _ _ (pair.new x (rooms ▸ hx))⟩
  have newSlot : ((b.withDraftRows rows).markRecord n r).newSlot = b.newSlot := newSlot_congr fun k => by
    rw [slots]
    split
    · next hk => simp only [hk, h.found, reduceCtorEq]
    · exact Iff.rfl
  have other : n ≠ b.newSlot := fun e => by
    have empty := (newSlot_lowest b).1
    rw [← e, h.found] at empty
    cases empty
  rw [newSlot] at slots'
  rw [rooms] at written
  have all := ((withDraft_claim b _).trans claim).trans claim'
  refine ⟨_, ?_, all, ?_, (slots' _).trans (if_pos rfl), marked'.trans marked,
    records'.trans (congrArg (· ++ [m.id]) records), pair.moved freed written⟩
  · rw [h.moveDraft, if_pos hed, ← all.placed]
    unfold Book.moveToDraft
    rw [h.tryDraftPlace, tryConflict_passes h.sound free]
    unfold refuseIf
    rw [h.refusals, if_neg hm]
    simp only [full, draftListFull_short short, firstFail, hrows, bind, Except.bind, pure, Except.pure]
    rfl
  · rw [slots', if_neg other, slots, if_pos rfl]

/-- R80: a draft record moves in its slot. -/
theorem DraftMove.moves (hed : r.edition = .draft) :
    let m := r.movedTo f (movedBuffer b f rm)
    ∃ b', Book.moveDraft t f b = .ok (b', Answer.ok (.placed (b.placed m) none)) ∧ DraftClaim b b' ∧
      b'.slot n = some (.sound m) ∧ b'.bke.draft.marked = b.bke.draft.marked ∧
      b'.bke.draft.records = b.bke.draft.records ∧ DraftMoved b b' r m := by
  intro m
  obtain ⟨rows, hrows, pair⟩ := ready.pair (m := m) h.sound
  have hrows : b.tryDraftRows (b.familyDays r.room r.date ++ b.familyDays f.room f.date) = .ok (b.withDraftRows rows) := hrows
  have sound : StoreSound (b.withDraftRows rows) := h.sound
  obtain ⟨freed, hfreed, free'⟩ :=
    uncoverDraft_holds (b₀ := b) sound r fun x hx => ⟨_, pair.old x hx⟩
  have placed : (((b.withDraftRows rows).uncover .draft r).putIndexed n m) = (b.withDraftRows freed).putSlot n (.sound m) := by
    rw [hfreed, Book.putIndexed_sound (by exact h.sound)]
    rfl
  obtain ⟨written, hwritten, write⟩ :=
    coverDraft_holds (b := (b.withDraftRows freed).putSlot n (.sound m)) (b₀ := b) h.sound m
      fun x hx => ⟨_, free' _ _ _ (pair.new x hx)⟩
  have claim : DraftClaim b (((b.withDraftRows freed).putSlot n (.sound m)).withDraftRows written) := ⟨rfl, rfl, rfl, rfl, rfl, rfl⟩
  refine ⟨_, ?_, claim, Table.find_put_self .., rfl, rfl, pair.moved free' write⟩
  rw [h.moveDraft, if_neg (by rw [hed]; decide), ← claim.placed, ← hwritten, ← placed]
  unfold Book.moveInDraft
  rw [h.tryDraftPlace, tryConflict_passes h.sound free]
  simp only [refuseIf, closureRefusal_meeting h.kind, firstFail, hrows, bind, Except.bind, pure, Except.pure]
  rfl

end

end Sys2Proof.Machine

/-! PROOFS. MOVE in either write edition (R45, R46, R79, R80, R162). -/

namespace Sys2Proof.Machine

theorem moveRequest_live {t : Ctu} {b : Book} (f : MoveFields) (h : b.bke.writeEdition = .live) :
    Book.moveRequest t f b = Book.moveLive t f b := if_neg (by rw [h]; decide)

theorem moveRequest_draft {t : Ctu} {b : Book} (f : MoveFields) (h : b.bke.writeEdition = .draft) :
    Book.moveRequest t f b = Book.moveDraft t f b := if_pos h

section

variable {s : State} {n : Nat} {r : Record} {f : MoveFields} {rm : Room} {rest : List Handed} {b : Book} {st : BState}
  {ck : CheckMark} {g x : Option Nat}
  (k : MoveMakes s.ctu (s.book.withRequests rest) b n r (r.movedTo f (movedBuffer s.book f rm)) rm st ck g x)
include k

/-- R46: the record at its new place. -/
theorem MoveMakes.moved {t : State} (taken : Taken s t b) :
    Moved s t n r ((r.movedTo f (movedBuffer s.book f rm)).reaching st ck g x) f (movedBuffer s.book f rm) := by
  refine ⟨(taken.slot n).trans k.slot, rfl, ⟨rfl, rfl, rfl, rfl, rfl, rfl⟩, ⟨rfl, rfl, rfl, rfl, rfl, rfl, rfl, rfl, rfl, rfl⟩,
    fun hst => ?_, fun hst hb => ?_, fun hst hb => ?_⟩
  · obtain ⟨state, check, squ⟩ := k.held hst
    exact ⟨state, check, taken.squ.trans squ⟩
  · obtain ⟨state, check, -⟩ := (k.confirmed hst).later hb
    exact ⟨state, check⟩
  · exact (k.confirmed hst).begun hb

/-- R20, R46: the rows of the new family. -/
theorem MoveMakes.newRows (h : MovePasses s n r f rm) {t : State} (taken : Taken s t b) :
    let buf := movedBuffer s.book f rm
    RowsWritten s t f.room f.date fun x k old =>
      if f.start ≤ k ∧ k < f.start + f.count + buf then
        spanWritten f.room f.start f.count buf (if r.state = .held then .held else .booked) x k old
      else if f.date = r.date ∧ x ∈ rowFamily s.book.bke.rooms r.room then spanCleared r x k old
      else old := by
  intro buf
  have active : (r.movedTo f buf).state.active = true := h.active
  have rows := taken.rows h.new (k.rows ▸ rowsMoved_new (m := r.movedTo f buf) h.old.stand h.new.stand)
  simp only [Record.written_moved (m := r.movedTo f buf) h.kind active rfl h.active] at rows
  exact rows

/-- R20, R46: the rows of the old family, where none of them is of the new one. -/
theorem MoveMakes.oldRows (h : MovePasses s n r f rm) {t : State} (taken : Taken s t b)
    (hne : ∀ x ∈ rowFamily s.book.bke.rooms r.room, f.date = r.date → x ∉ rowFamily s.book.bke.rooms f.room) :
    RowsWritten s t r.room r.date (spanCleared r) :=
  Record.cleared_span h.active ▸ taken.rows h.old (k.rows ▸ rowsMoved_old h.old.stand h.new.stand hne)

/-- R162: the run of the meeting at its new place. -/
theorem MoveMakes.runMoved (h : MovePasses s n r f rm) (hst : r.state = .confirmed) (hk : RunsKeyed s.book.squ) {t : State}
    (taken : Taken s t b) : RunMoved s t r ((r.movedTo f (movedBuffer s.book f rm)).reaching st ck g x) rm := by
  have hs : StoreSound (s.book.withRequests rest) := h.sound
  have only := movedAnew_only hs n r (r.movedTo f (movedBuffer s.book f rm))
  obtain ⟨-, squTaken, -⟩ := movedAnew_rest hs n r (r.movedTo f (movedBuffer s.book f rm))
  exact RunTaken.moved ⟨only.sound hs, squTaken, movedAnew_slot hs n r _, hst, ⟨rfl, rfl, rfl⟩,
    (only.room _).trans h.room.1, k.run, ⟨rfl, rfl, rfl, rfl⟩, taken.squ.trans k.squ⟩ hk

end

/-- R45, R46: what a MOVE that passes its checks makes and answers. -/
theorem MovePasses.makes {s : State} {n : Nat} {r : Record} {f : MoveFields} {rm : Room} (h : MovePasses s n r f rm)
    (rest : List Handed) (ho : r.order = none) :
    ∃ b st ck g x,
      Book.moveRequest s.ctu f (s.book.withRequests rest) =
        .ok (b, Answer.ok (.placed (s.book.placed (r.movedTo f (movedBuffer s.book f rm))) x)) ∧
      MoveMakes s.ctu (s.book.withRequests rest) b n r (r.movedTo f (movedBuffer s.book f rm)) rm st ck g x := by
  have hs : StoreSound (s.book.withRequests rest) := h.sound
  have hst : (r.movedTo f (movedBuffer s.book f rm)).state = .held ∨
      (r.movedTo f (movedBuffer s.book f rm)).state = .confirmed := h.state.elim .inr fun e => .inl e.1
  obtain ⟨st, ck, g, x, k⟩ := movedAnew_makes hs n r (r.movedTo f (movedBuffer s.book f rm)) rm hst s.ctu
  have op := (moveRequest_live (t := s.ctu) (b := s.book.withRequests rest) f h.live).trans (h.moveLive rest ho)
  have placed := k.only.placed (r.movedTo f (movedBuffer s.book f rm))
  have run : ∀ b : Book, b.slot n = some (.sound ((r.movedTo f (movedBuffer s.book f rm)).reaching st ck g x)) →
      (b.soundAt n).bind (·.run) = x := fun b hb => by
    simp only [Book.soundAt, hb]
    rfl
  refine ⟨_, st, ck, g, x, op.trans ?_, k⟩
  rw [run _ k.slot]
  exact congrArg (fun p => Except.ok (_, Answer.ok (ReplyData.placed p x))) placed

/-- R79, R80: the state after a MOVE in the write edition DRAFT. -/
theorem movedState_draft {s : State} {c : Ctx} {f : MoveFields} {rest : List Handed} {b : Book} {a : Answer}
    (hdraft : s.book.bke.writeEdition = .draft)
    (he : (Book.moveDraft s.ctu f (s.book.withRequests rest)).ends = (b, a)) (hc : DraftClaim (s.book.withRequests rest) b) :
    DraftClaimed s (s.afterClaim rest c (Book.moveRequest s.ctu f)) c rest b a :=
  s.afterClaim_draft c
    ((congrArg Attempt.ends (moveRequest_draft (b := s.book.withRequests rest) f hdraft)).trans he) hc

/-- Settles O27: MOVE in the live book and in the draft, and where the conflict test refuses it. -/
theorem movePlacesTheMeetingAnew : Obligations.MovePlacesTheMeetingAnew := by
  refine ⟨fun s c n r f rest rm hq h ho => ?_,
    fun s c n r f rest rm hq hdraft hs named slotOf found kind state index span room ready => ?_,
    fun s c n r f rest rm a hq h hb ha => ?_,
    fun s c n r f rest rm a hq hdraft hb named slotOf found kind state hm index span room ha => ?_⟩
  · intro buf
    obtain ⟨b, st, ck, g, x, op, k⟩ := h.makes rest ho
    have taken := s.answered_taken b c (Answer.ok (.placed (s.book.placed (r.movedTo f buf)) x))
    have mail := s.answered_mail b c (Answer.ok (.placed (s.book.placed (r.movedTo f buf)) x))
    obtain ⟨l, told⟩ := k.told
    refine ⟨_, _, hq.runs_claim (i := .move) rfl rfl op, k.moved taken, (congrArg Mail.requests mail).trans k.only.requests,
      taken.holds.trans k.holds, taken.csc.trans k.only.csc, fun m hm => (taken.slot m).trans (k.only.slots m hm),
      ⟨_, s.answered_replied c _ k.only.hmp, rfl⟩, ⟨l, (congrArg Mail.bkeToPpu mail).trans told⟩, k.newRows h taken,
      k.oldRows h taken, fun hst hk => k.runMoved h hst hk taken⟩
  · intro buf free room'
    have h : DraftMove s.ctu (s.book.withRequests rest) n r f rm :=
      DraftMove.taken ⟨hs, ready.sound, named, slotOf, found, kind, state, index, span, room⟩ _
    have ready' : DraftReady (s.book.withRequests rest) _ := ready.taken _
    have runs := hq.runs_afterClaim (i := .move) (op := Book.moveRequest s.ctu f) rfl rfl
    cases hed : r.edition with
    | draft =>
      obtain ⟨b, he, hc, slot, marked, records, cells⟩ := h.moves ready' free hed
      have k := movedState_draft (c := c) hdraft (congrArg Attempt.ends he) hc
      have clean (hl : r.label = cleanLabel r.label) :
          { r.movedTo f buf with label := cleanLabel r.label } = r.movedTo f buf := by
        rw [← hl]
        rfl
      refine ⟨_, { r.movedTo f buf with label := cleanLabel r.label }, runs, k.only, hed, kind, state, rfl, rfl, rfl, rfl, rfl,
        rfl, rfl, rfl, nofun, nofun, fun _ hl => ?_, fun _ => k.taken.draftMoved cells kind state rfl state⟩
      rw [clean hl]
      exact ⟨(k.taken.slot n).trans slot, rfl, (congrArg Draft.marked k.taken.draft).trans marked,
        (congrArg Draft.records k.taken.draft).trans records, k.replied⟩
    | live =>
      refine ⟨_, r.draftAt f s.book.newId buf, runs, ?_⟩
      by_cases hm : r.id ∈ s.book.bke.draft.marked
      · have k := movedState_draft (c := c) hdraft (congrArg Attempt.ends (h.marked hed hm)) (.refl _)
        exact ⟨k.only, rfl, rfl, rfl, rfl, rfl, rfl, rfl, rfl, rfl, rfl, rfl, fun _ _ => ⟨k.taken.sameBke, k.replied⟩,
          fun _ hn => absurd hm hn, nofun, fun hn => (hn.elim nofun fun hn => absurd hm hn)⟩
      · obtain ⟨full, short⟩ := room' hed
        obtain ⟨b, he, hc, slot, new, marked, records, cells⟩ := h.marks ready' free hed hm full short
        have k := movedState_draft (c := c) hdraft (congrArg Attempt.ends he) hc
        exact ⟨k.only, rfl, rfl, rfl, rfl, rfl, rfl, rfl, rfl, rfl, rfl, rfl, fun _ hn => absurd hn hm,
          fun _ _ => ⟨by rw [← hed]; exact (k.taken.slot n).trans slot, (k.taken.slot _).trans new, rfl, rfl, rfl, rfl, rfl,
            (congrArg Draft.marked k.taken.draft).trans marked, (congrArg Draft.records k.taken.draft).trans records,
            k.replied⟩,
          nofun, fun _ => k.taken.draftMoved cells rfl rfl rfl state⟩
  · exact hq.runs_refused (i := .move) rfl rfl
      ((moveRequest_live (b := s.book.withRequests rest) f h.live).trans (h.refused rest hb ha))
  · have h : DraftMove s.ctu (s.book.withRequests rest) n r f rm :=
      DraftMove.taken ⟨hb.sound, hb.draft rfl, named, slotOf, found, kind, state, index, span, room⟩ _
    exact hq.runs_refused (i := .move) rfl rfl
      ((moveRequest_draft (b := s.book.withRequests rest) f hdraft).trans (h.refused hm (hb.taken _) (ha.taken _)))

end Sys2Proof.Machine

/-! PROOFS. Recurring series (R61, R69): the statement does not hold of a book in which a row stands under the key of another
room-day. -/

namespace Sys2Proof.Machine

/-- An instance of series 3, CONFIRMED in room 1 over four slots from `start`. -/
def misplacedInstance (id start : Nat) (d : Date) : Record :=
  { misplacedMeeting id 1 start 4 with date := d, origin := .series, series := some 3, state := .confirmed }

/-- Room 1 from slot 0, on every MONDAY and TUESDAY. -/
def misplacedSeries : Series :=
  { id := 3, room := 1, start := 0, count := 4, mask := [.monday, .tuesday], first := misplacedDate, last := none
    firstReached := true, lastReached := false, organiser := 0, attendees := 0, label := none, made := 2, skipped := 0 }

def seriesCancelCtx : Ctx := { tag := 1, code := 18, mark := .sole }

/-- The host asks to cancel a series with two instances: on the date at slots 0 to 3, and on the next date, where it was moved
to slots 4 to 7. The row that stands under the key of the next date names the date before it. -/
def misplacedSeriesBook : Book :=
  { State.reset.book with
    bke :=
      { Bke.reset ⟨[]⟩ 10 with
        horizon := some { today := misplacedDate, weekday := .monday }
        series := ⟨[(3, misplacedSeries)]⟩
        rows := ⟨[(rowKey 1 misplacedDate, misplacedRow .free), (rowKey 1 misplacedDate.next, misplacedRow .booked)]⟩
        records :=
          ⟨[(0, .sound (misplacedInstance 1 0 misplacedDate)), (1, .sound (misplacedInstance 2 4 misplacedDate.next))]⟩ }
    mail := { Mail.reset with requests := [{ ctx := seriesCancelCtx, request := .seriesCancel 3 }] } }

def misplacedSeriesState : State := { State.reset with book := misplacedSeriesBook }

theorem misplacedSeriesState_asks : Asks misplacedSeriesState seriesCancelCtx (.seriesCancel 3) [] := rfl

theorem misplacedSeriesBook_open : RowsOpen misplacedSeriesBook 1 misplacedDate 0 0 := by
  intro x hx
  obtain rfl : x = 1 := List.mem_singleton.mp (show x ∈ [1] from hx)
  exact ⟨misplacedRow .free, by decide, rfl, rfl, rfl, rfl, by decide⟩

/-- The state after SERIES_CANCEL. -/
def misplacedSeriesCancelled : State := misplacedSeriesState.afterClaim [] seriesCancelCtx (Book.seriesCancel 3)

theorem misplacedSeriesState_runs : Runs .seriesCancel misplacedSeriesState misplacedSeriesCancelled :=
  misplacedSeriesState_asks.runs_afterClaim rfl rfl

/-- Cancelling the instance of the next date frees slots 4 to 7 of the row found for it and puts that row where its own room-day
says: in the place of the row whose slots 0 to 3 the cancel of the first instance had freed. -/
theorem misplacedSeriesCancelled_row :
    (misplacedSeriesCancelled.book.row 1 misplacedDate).map (fun z => cellAt z.cells 0) = some .booked := by decide

/-- Refutes O36, in its part on SERIES_CANCEL: where a row stands under the key of another room-day, which that part does not
exclude as its part on SERIES_CREATE does by `RowsKeyed`, the cancel of one instance overwrites the row of another date, and the
cells freed there for an earlier instance of the series do not stay FREE. -/
theorem not_seriesAreMadeAndCancelled : ¬ Obligations.SeriesAreMadeAndCancelled := by
  rintro ⟨-, cancels, -⟩
  obtain ⟨t, -, -, -, -, run, -, -, -, -, -, -, -, hall⟩ :=
    cancels misplacedSeriesState seriesCancelCtx 3 [] misplacedSeriesState_asks rfl (Option.some_ne_none _) (by decide)
      (by decide) rfl rfl rfl
  obtain rfl : misplacedSeriesCancelled = t := Host.Outcome.next.inj (misplacedSeriesState_runs.symm.trans run)
  obtain ⟨confirmed, -, -⟩ := hall 0 (misplacedInstance 1 0 misplacedDate) rfl
  obtain ⟨-, -, -, freed⟩ := confirmed rfl rfl rfl
  obtain ⟨z, hz, hfree⟩ := freed misplacedSeriesBook_open 1 (by decide)
  have hbooked := misplacedSeriesCancelled_row
  rw [show misplacedSeriesCancelled.book.row 1 misplacedDate = some z from hz, Option.map_some, Option.some_inj,
    hfree 0 (Nat.le_refl 0) (by decide)] at hbooked
  cases hbooked

end Sys2Proof.Machine

/-! SUPPORT. What the demand reads and the operations of PUBLISH and DISCARD leave of the book, whatever is in error in the
store (R72, R84, R85, R168, R169). -/

namespace Sys2Proof.Machine

/-- R72, R185: neither an edition nor the queue of requests has changed. -/
structure SameSettings (b b' : Book) : Prop where
  read : b'.bke.readEdition = b.bke.readEdition
  write : b'.bke.writeEdition = b.bke.writeEdition
  requests : b'.mail.requests = b.mail.requests

theorem SameSettings.trans {a b c : Book} (h : SameSettings a b) (k : SameSettings b c) : SameSettings a c :=
  ⟨k.read.trans h.read, k.write.trans h.write, k.requests.trans h.requests⟩

theorem SameSettings.foldl {α : Type} {f : Book → α → Book} (h : ∀ b a, SameSettings b (f b a)) (l : List α) (b : Book) :
    SameSettings b (l.foldl f b) := by
  induction l generalizing b with
  | nil => exact ⟨rfl, rfl, rfl⟩
  | cons a l ih => exact (h b a).trans (ih (f b a))

/-- R168, R169: the editions, the requests, the runs and the orders are as they were, and what joins the queue for the host is
notices alone. -/
structure StoreTouched (b b' : Book) : Prop where
  settings : SameSettings b b'
  squ : b'.squ = b.squ
  csc : b'.csc = b.csc
  out : ∃ l, b'.hmp.out = b.hmp.out ++ l ∧ ∀ f ∈ l, f.isNotice = true

/-- A step that posts nothing. -/
theorem StoreTouched.silent {b b' : Book} (hs : SameSettings b b') (hq : b'.squ = b.squ) (hc : b'.csc = b.csc)
    (hh : b'.hmp = b.hmp) : StoreTouched b b' :=
  ⟨hs, hq, hc, [], by simp [hh], by simp⟩

theorem StoreTouched.refl (b : Book) : StoreTouched b b := .silent ⟨rfl, rfl, rfl⟩ rfl rfl rfl

theorem StoreTouched.trans {a b c : Book} (h : StoreTouched a b) (k : StoreTouched b c) : StoreTouched a c where
  settings := h.settings.trans k.settings
  squ := k.squ.trans h.squ
  csc := k.csc.trans h.csc
  out := by
    obtain ⟨l, hl, notices⟩ := h.out
    obtain ⟨m, hm, notices'⟩ := k.out
    exact ⟨l ++ m, by rw [hm, hl, List.append_assoc], fun f hf => (List.mem_append.mp hf).elim (notices f) (notices' f)⟩

theorem StoreTouched.foldl {α : Type} {f : Book → α → Book} (h : ∀ b a, StoreTouched b (f b a)) (l : List α) (b : Book) :
    StoreTouched b (l.foldl f b) := by
  induction l generalizing b with
  | nil => exact .refl b
  | cons a l ih => exact (h b a).trans (ih (f b a))

theorem StoreTouched.ite {c : Prop} [Decidable c] {b x y : Book} (hx : StoreTouched b x) (hy : StoreTouched b y) :
    StoreTouched b (if c then x else y) := by
  split
  · exact hx
  · exact hy

/-! ## Demand reads (R168, R169) -/

theorem Hmp.post_notices (h : Hmp) (n : Notice) :
    ∃ l, (h.post n).out = h.out ++ l ∧ ∀ f ∈ l, f.isNotice = true := by
  unfold Hmp.post
  split
  · exact ⟨[], by simp, by simp⟩
  · split
    · exact ⟨[.notice h.dropped n], rfl, by simp [OutFrame.isNotice]⟩
    · exact ⟨[], by simp, by simp⟩

theorem post_touched (b : Book) (n : Notice) : StoreTouched b (b.post n) :=
  ⟨⟨rfl, rfl, rfl⟩, rfl, rfl, b.hmp.post_notices n⟩

theorem withBss_touched (b : Book) (x : Bss) : StoreTouched b (b.withBss x) := .silent ⟨rfl, rfl, rfl⟩ rfl rfl rfl

theorem readItem_touched (b : Book) (i : StoreItem) : StoreTouched b (b.readItem i).1 := by
  unfold Book.readItem
  split
  · exact .refl b
  · exact withBss_touched b _

theorem startRebuild_touched (b : Book) (cause : RowCause) (room : Nat) (d : Date) :
    StoreTouched b (b.startRebuild cause room d) := by
  unfold Book.startRebuild
  split
  · exact .refl b
  · next r hr =>
    have put : StoreTouched b (b.putRow { r with state := .rebuilding }) := .silent ⟨rfl, rfl, rfl⟩ rfl rfl rfl
    exact .ite (.refl b) ((put.trans (post_touched _ _)).trans (.ite (.silent ⟨rfl, rfl, rfl⟩ rfl rfl rfl) (.refl _)))

theorem readLive_touched (b : Book) (path : ReadPath) (room : Nat) (d : Date) :
    StoreTouched b (b.readLive path room d) := by
  have read := readItem_touched b (.liveRow room d)
  have lost (c : Book) : StoreTouched c (c.rowLost path room d) := by
    unfold Book.rowLost
    split
    · exact .refl c
    · exact ((withBss_touched c _).trans (post_touched _ _)).trans (startRebuild_touched _ _ _ _)
  exact .ite ((read.trans (withBss_touched _ _)).trans (lost _)) read

theorem withDraft_touched (b : Book) (d : Draft) : StoreTouched b (b.withDraft d) := .silent ⟨rfl, rfl, rfl⟩ rfl rfl rfl

theorem readDraft_touched (b : Book) (path : ReadPath) (room : Nat) (d : Date) :
    StoreTouched b (b.readDraft path room d) := by
  have read := readItem_touched b (.draftRow room d)
  have lost (c : Book) : StoreTouched c (c.draftRowLost path room d) := by
    unfold Book.draftRowLost
    split
    · exact .refl c
    · exact ((withDraft_touched c _).trans (withDraft_touched _ _)).trans (post_touched _ _)
  unfold Book.readDraft
  split
  · exact .refl b
  · exact .ite (.refl b) (.ite ((read.trans (withBss_touched _ _)).trans (lost _)) read)

theorem recordLost_touched (b : Book) (path : ReadPath) (n : Nat) (indexLost tagLost : Bool) :
    StoreTouched b (b.recordLost path n indexLost tagLost) := by
  have damaged (id : Nat) (x : Damaged) : StoreTouched b (b.damage n id x) :=
    .ite (.silent ⟨rfl, rfl, rfl⟩ rfl rfl rfl) (.silent ⟨rfl, rfl, rfl⟩ rfl rfl rfl)
  unfold Book.recordLost
  split
  · have posted (id : Nat) (x : Damaged) (y : Notice) := (damaged id x).trans (post_touched _ y)
    exact .ite (posted _ _ _)
      ((posted _ _ _).trans (.foldl (fun c (p : Nat × Date) => startRebuild_touched c .recordDamaged p.1 p.2) _ _))
  · exact .refl b

theorem readSlot_touched (b : Book) (path : ReadPath) (n : Nat) : StoreTouched b (b.readSlot path n) := by
  unfold Book.readSlot
  split
  · have read := (readItem_touched b (.index n)).trans (readItem_touched _ (.record n))
    exact .ite ((read.trans (withBss_touched _ _)).trans (recordLost_touched _ _ _ _ _)) read
  · exact .refl b

theorem fetch_touched (b : Book) (id : Nat) : StoreTouched b (b.fetch id).1 := by
  unfold Book.fetch
  split
  · exact .refl b
  · exact readSlot_touched b _ _

theorem readForPublish_touched (b : Book) : StoreTouched b b.readForPublish :=
  (StoreTouched.foldl (fun c (r : DraftRow) => (readDraft_touched c .demand r.room r.date).trans
    (readLive_touched _ .demand r.room r.date)) _ b).trans (.foldl fetch_touched _ _)

/-! ## The steps of PUBLISH and DISCARD (R84, R85) -/

theorem dropSlot_touched (b : Book) (n : Nat) : StoreTouched b (b.dropSlot n) := .silent ⟨rfl, rfl, rfl⟩ rfl rfl rfl

theorem removeDraft_touched (b : Book) (n : Nat) (r : Record) : StoreTouched b (b.removeDraft n r) := by
  have painted (c : Book) (x : Nat) (f : List Cell → List Cell) : StoreTouched c (c.paintRow .draft x r.date f) := by
    show StoreTouched c (c.paintDraft x r.date f)
    unfold Book.paintDraft
    dsimp only
    have read := readDraft_touched c .demand x r.date
    split
    · exact .ite read (read.trans (.silent ⟨rfl, rfl, rfl⟩ rfl rfl rfl))
    · exact read
  have freed : StoreTouched b (b.uncover .draft r) := .foldl (fun c x => painted c x _) _ b
  exact (freed.trans (dropSlot_touched _ n)).trans (withDraft_touched _ _)

theorem replaceRow_touched (b : Book) (z : DraftRow) : StoreTouched b (b.replaceRow z) := by
  unfold Book.replaceRow
  split
  · exact .silent ⟨rfl, rfl, rfl⟩ rfl rfl rfl
  · exact .refl b

theorem makeLive_settings (b : Book) (n : Nat) (r : Record) : SameSettings b (b.makeLive n r) := by
  have made (c : Book) : SameSettings c (c.makeRun n none) := by
    unfold Book.makeRun
    split
    · exact ⟨rfl, rfl, rfl⟩
    · split
      · exact ⟨rfl, rfl, rfl⟩
      · dsimp only
        split <;> exact ⟨rfl, rfl, rfl⟩
  have put : SameSettings b (b.putRecord n { r with edition := .live }) := ⟨rfl, rfl, rfl⟩
  have told (c : Book) : SameSettings c (c.news .confirmed r) := ⟨rfl, rfl, rfl⟩
  unfold Book.makeLive
  dsimp only
  split
  · exact (put.trans (made _)).trans (told _)
  · exact put.trans (told _)

theorem emptyDraft_touched (b : Book) : StoreTouched b b.emptyDraft :=
  (StoreTouched.foldl (fun c (_ : DraftRow) => (withDraft_touched c _).trans (withBss_touched _ _)) _ b).trans
    (withDraft_touched _ _)

/-! ## PUBLISH applied, step by step (R84) -/

/-- R83, R84: the draft records that are lapsed. -/
def Book.lapsedRecords (b : Book) (t : Ctu) : List (Nat × Record) := b.draftRecords.filter fun p => b.lapsedDraft t p.2

/-- R84 step 1: the lapsed draft records are dropped. -/
def Book.withoutLapsed (b : Book) (t : Ctu) : Book :=
  (b.lapsedRecords t).foldl (fun b p => b.removeDraft p.1 p.2) b

/-- R84 step 2: every draft row is written into its live row. -/
def Book.rowsReplaced (b : Book) : Book := b.draftDays.foldl Book.replaceRow b

/-- R84 step 3: the draft records become live. -/
def Book.draftsLive (b : Book) : Book := b.draftRecords.foldl (fun b p => b.makeLive p.1 p.2) b

/-- R84 step 4: the records on the marked list. -/
def Book.markedRecords (b : Book) : List (Nat × Record) := sortBy (·.2.id) (b.sound.filter fun p => b.isMarked p.2.id)

/-- R84 step 4: the marked records become CANCELLED. -/
def Book.marksApplied (b : Book) : Book := b.markedRecords.foldl (fun b p => b.applyMark p.1 p.2) b

/-- R84: the book after each step of PUBLISH in turn, and the counts. -/
theorem applyDraft_eq (b : Book) (t : Ctu) :
    b.applyDraft t =
      let dropped := b.withoutLapsed t
      let written := dropped.rowsReplaced
      let made := written.draftsLive
      (made.marksApplied.emptyDraft.tellPpu
          (.published ((dropped.draftDays.filter fun z => made.marksApplied.isToday z.date).map (·.room))),
        Answer.ok
          (.published dropped.draftDays.length written.draftRecords.length
            (made.squ.runs.size - written.squ.runs.size) made.markedRecords.length (b.lapsedRecords t).length
            (((b.lapsedRecords t).map (·.2.id)).take 8))) := rfl

theorem withoutLapsed_touched (b : Book) (t : Ctu) : StoreTouched b (b.withoutLapsed t) :=
  .foldl (f := fun b (p : Nat × Record) => b.removeDraft p.1 p.2) (fun c p => removeDraft_touched c p.1 p.2) _ b

theorem draftsLive_settings (b : Book) : SameSettings b b.draftsLive :=
  .foldl (f := fun b (p : Nat × Record) => b.makeLive p.1 p.2) (fun c p => makeLive_settings c p.1 p.2) _ b

theorem marksApplied_settings (b : Book) : SameSettings b b.marksApplied :=
  .foldl (f := fun b (p : Nat × Record) => b.applyMark p.1 p.2) (fun _ _ => ⟨rfl, rfl, rfl⟩) _ b

theorem applyDraft_settings (b : Book) (t : Ctu) : SameSettings b (b.applyDraft t).1 := by
  have written (c : Book) : SameSettings c c.rowsReplaced := (StoreTouched.foldl replaceRow_touched _ c).settings
  have told (c : Book) (x : PpuNews) : SameSettings c (c.tellPpu x) := ⟨rfl, rfl, rfl⟩
  rw [applyDraft_eq]
  exact (((((withoutLapsed_touched b t).settings.trans (written _)).trans (draftsLive_settings _)).trans
    (marksApplied_settings _)).trans (emptyDraft_touched _).settings).trans (told _ _)

/-! ## PUBLISH and DISCARD as a whole (R72) -/

theorem refuseIf_error {b : Book} {checks : List (Bool × Answer)} {e : Book × Answer} (h : refuseIf b checks = .error e) :
    e.1 = b := by
  unfold refuseIf at h
  split at h
  · cases h
    rfl
  · cases h

/-- A claim keeps the settings when its checks refuse with a book that has them and what follows keeps them. -/
theorem SameSettings.checked {b c : Book} {checks : List (Bool × Answer)} {f : Unit → Attempt (Book × Answer)}
    (h : SameSettings b c) (hf : SameSettings b (f ()).ends.1) : SameSettings b (refuseIf c checks >>= f).ends.1 := by
  cases hc : refuseIf c checks with
  | ok u => exact hf
  | error e =>
    show SameSettings b e.1
    rw [refuseIf_error hc]
    exact h

/-- R72: whatever becomes of a PUBLISH, it leaves the editions and the requests. -/
theorem publish_settings (t : Ctu) (b : Book) : SameSettings b (Book.publish t b).ends.1 := by
  have same : SameSettings b b := ⟨rfl, rfl, rfl⟩
  have read := (readForPublish_touched b).settings
  refine same.checked (same.checked (same.checked (read.checked ?_)))
  split
  · exact read
  · exact read.checked (read.trans (applyDraft_settings _ t))

/-- R85: the listed draft records leave the table. -/
def Book.withoutListed (b : Book) : Book := b.bke.draft.records.foldl Book.dropListed b

/-- R85: every marked record is read, and loses its mark. -/
def Book.marksCleared (b : Book) : Book :=
  (b.sound.filter fun p => p.2.cancelMark).foldl (fun b p => (b.readSlot .demand p.1).clearMark p.1) b

/-- R85: the book after each step of DISCARD in turn, and the counts. -/
theorem discardDraft_eq (b : Book) :
    b.discardDraft =
      (b.withoutListed.marksCleared.emptyDraft.unlist,
        Answer.ok (.discarded b.bke.draft.rows.size b.bke.draft.records.length b.bke.draft.marked.length)) := rfl

/-- R72, R85: DISCARD leaves the editions, the requests, the runs and the orders, and posts no more than notices. -/
theorem discardDraft_touched (b : Book) : StoreTouched b b.discardDraft.1 := by
  have dropped (c : Book) (id : Nat) : StoreTouched c (c.dropListed id) := by
    unfold Book.dropListed
    split
    · exact dropSlot_touched c _
    · exact .refl c
  have cleared (c : Book) (n : Nat) : StoreTouched c (c.clearMark n) := by
    unfold Book.clearMark
    split
    · exact .silent ⟨rfl, rfl, rfl⟩ rfl rfl rfl
    · exact .refl c
  have listed : StoreTouched b b.withoutListed := .foldl dropped _ b
  have marks (c : Book) : StoreTouched c c.marksCleared :=
    .foldl (fun c (p : Nat × Record) => (readSlot_touched c .demand p.1).trans (cleared _ p.1)) _ c
  have unlisted (c : Book) : StoreTouched c c.unlist := .silent ⟨rfl, rfl, rfl⟩ rfl rfl rfl
  rw [discardDraft_eq]
  exact ((listed.trans (marks _)).trans (emptyDraft_touched _)).trans (unlisted _)

end Sys2Proof.Machine

/-! PROOFS. The edition settings (R72). -/

namespace Sys2Proof.Machine

/-- A step of a request of the BKE that keeps the settings where it is served. -/
theorem runs_editions {s t : State} {i : Instr} {f : Request → Ctx → Book → Option Book}
    (hi : exec i s = .next { s with book := s.book.serve .bke f })
    (hf : ∀ q c b b', f q c b = some b' → SameSettings b b') (h : Runs i s t) :
    t.book.bke.readEdition = s.book.bke.readEdition ∧ t.book.bke.writeEdition = s.book.bke.writeEdition := by
  cases hi.symm.trans h
  show (s.book.serve .bke f).bke.readEdition = _ ∧ (s.book.serve .bke f).bke.writeEdition = _
  unfold Book.serve Book.nextRequest
  cases takeFirst (fun h => h.request.owner == .bke) s.book.mail.requests with
  | none => exact ⟨rfl, rfl⟩
  | some p =>
    cases hb : f p.1.request p.1.ctx (s.book.withRequests p.2) with
    | none => simp only [Option.map_some, hb]; exact ⟨rfl, rfl⟩
    | some b =>
      have kept := hf _ _ (s.book.withRequests p.2) b hb
      simp only [Option.map_some, hb]
      exact ⟨kept.read, kept.write⟩

theorem answer_settings {b : Book} {c : Ctx} {op : Book → Book × Answer} (h : SameSettings b (op b).1) :
    SameSettings b (b.answer c op) := by
  unfold Book.answer
  exact ⟨by rw [Book.reply_bke]; exact h.read, by rw [Book.reply_bke]; exact h.write,
    by rw [Book.reply_mail]; exact h.requests⟩

/-- R72: SET_EDITIONS with a value that names no edition. -/
theorem setEditions_refused (b : Book) {r w : EditionField} (h : editionOf r = none ∨ editionOf w = none) :
    b.setEditions r w = (b, Answer.of .badRequest) := by
  unfold Book.setEditions
  split
  · next hx hy => rcases h with h | h <;> simp [h] at hx hy
  · rfl

/-- R72: SET_EDITIONS with two editions. -/
theorem setEditions_taken (b : Book) {r w : EditionField} {x y : Edition} (hr : editionOf r = some x)
    (hw : editionOf w = some y) :
    b.setEditions r w =
      (b.withBke { b.bke with readEdition := x, writeEdition := y }, Answer.ok (.editions x y)) := by
  unfold Book.setEditions
  rw [hr, hw]

/-- The state after a request of the BKE that is answered by `op`. -/
def State.afterAnswer (s : State) (rest : List Handed) (c : Ctx) (op : Book → Book × Answer) : State :=
  { s with book := (s.book.withRequests rest).answer c op }

theorem Asks.runs_afterAnswer {i : Instr} {s : State} {c : Ctx} {q : Request} {rest : List Handed}
    {f : Request → Ctx → Book → Option Book} {op : Book → Book × Answer} (h : Asks s c q rest)
    (hi : exec i s = .next { s with book := s.book.serve q.owner f })
    (hf : f q c (s.book.withRequests rest) = some ((s.book.withRequests rest).answer c op)) :
    Runs i s (s.afterAnswer rest c op) := by
  unfold Runs
  rw [hi, h.serve hf]
  rfl

/-- R185: what is left by a request whose answer was made without a notice. -/
theorem State.afterAnswer_answers (s : State) {rest : List Handed} (c : Ctx) {op : Book → Book × Answer} {b : Book}
    {a : Answer} (ho : op (s.book.withRequests rest) = (b, a)) (hh : b.hmp = s.book.hmp) :
    (s.afterAnswer rest c op).book.bke = b.bke ∧ (s.afterAnswer rest c op).book.mail = b.mail ∧
      Replied s (s.afterAnswer rest c op) c a := by
  have answered : (s.afterAnswer rest c op).book = b.reply c a := by
    show ((s.book.withRequests rest).answer c op) = _
    simp only [Book.answer, ho]
  refine ⟨by rw [answered, Book.reply_bke], by rw [answered, Book.reply_mail], ?_⟩
  exact Book.reply_replied s _ b c a answered (congrArg Hmp.out hh)

/-- Settles O37: the settings by what sets and reports them; PUBLISH and DISCARD leave them whatever they meet. -/
theorem editionSettings : Obligations.EditionSettings := by
  refine ⟨fun s k => ⟨rfl, rfl⟩, fun s c r w rest hq => ?_, fun s c rest hq => ?_, fun s t i hi hrun => ?_⟩
  · have run := hq.runs_afterAnswer (i := .setEditions) (op := fun b => b.setEditions r w) rfl rfl
    by_cases named : editionOf r = none ∨ editionOf w = none
    · obtain ⟨bke, mail, replied⟩ := s.afterAnswer_answers (rest := rest) (op := fun b => b.setEditions r w) c
        (setEditions_refused _ named) rfl
      refine ⟨_, run, congrArg Mail.requests mail, congrArg Bke.records bke, congrArg Bke.rows bke, congrArg Bke.draft bke,
        fun x y hr hw => ?_, fun _ => ⟨congrArg Bke.readEdition bke, congrArg Bke.writeEdition bke, replied⟩⟩
      rcases named with h | h
      · cases h.symm.trans hr
      · cases h.symm.trans hw
    · obtain ⟨hr, hw⟩ := not_or.mp named
      obtain ⟨x, hx⟩ := Option.ne_none_iff_exists'.mp hr
      obtain ⟨y, hy⟩ := Option.ne_none_iff_exists'.mp hw
      obtain ⟨bke, mail, replied⟩ := s.afterAnswer_answers (rest := rest) (op := fun b => b.setEditions r w) c
        (setEditions_taken _ hx hy) rfl
      refine ⟨_, run, congrArg Mail.requests mail, (congrArg Bke.records bke).trans rfl, (congrArg Bke.rows bke).trans rfl,
        (congrArg Bke.draft bke).trans rfl, fun x' y' hx' hy' => ?_, fun h => absurd h named⟩
      cases hx.symm.trans hx'
      cases hy.symm.trans hy'
      exact ⟨congrArg Bke.readEdition bke, congrArg Bke.writeEdition bke, replied⟩
  · exact hq.runs_read (i := .readEditions) rfl rfl
  · rcases hi with rfl | rfl
    · refine runs_editions rfl (fun q c b b' hf => ?_) hrun
      cases q <;> cases hf
      exact answer_settings (publish_settings s.ctu b)
    · refine runs_editions rfl (fun q c b b' hf => ?_) hrun
      cases q <;> cases hf
      exact answer_settings (discardDraft_touched b).settings

end Sys2Proof.Machine


/-! SUPPORT. BOOK in the write edition DRAFT (R77), the draft rows in order and those of them that are stale, the draft records
that are lapsed, and the runs that PUBLISH counts (R81 to R83). -/

namespace Sys2Proof.Machine

/-! ## BOOK (R77) -/

/-- R24, R76: over rows that are open, and without draft rows of them, the test of a draft write passes as that of a live
claim does. -/
theorem RowsOpen.draft_passes {b : Book} {room : Nat} {d : Date} {start count buf : Nat}
    (h : RowsOpen b room d start (count + buf)) (hnone : ∀ x ∈ rowFamily b.bke.rooms room, b.draftRow x d = none) :
    b.conflict .draft room d start count buf none = none := by
  have views : b.testViews .draft room d none = b.testViews .live room d none := by
    unfold Book.testViews
    refine congrArg _ (List.filterMap_congr fun x hx => ?_)
    simp only [Book.view, Book.draftView, hnone x hx, if_true, if_false, reduceCtorEq]
  unfold Book.conflict
  rw [views]
  exact testOutcome_open _ _ _ _ _ _ _ h.views

/-- R75: open rows without draft rows can be copied, where there are places for the copies. -/
theorem RowsOpen.draftReady {b : Book} {room : Nat} {d : Date} {start n : Nat} (h : RowsOpen b room d start n)
    (hnone : ∀ x ∈ rowFamily b.bke.rooms room, b.draftRow x d = none) (hd : b.bke.draft.damaged = false)
    (hp : b.bke.draft.rows.size + (rowFamily b.bke.rooms room).length ≤ 256) : DraftReady b (b.familyDays room d) where
  sound := hd
  places := by
    unfold Book.familyDays
    rwa [List.length_map]
  rows := by
    rintro ⟨x, e⟩ hp
    obtain ⟨rfl, hx⟩ := mem_familyDays.mp hp
    obtain ⟨y, hy, hroom, hdate, hgood, hlen, -⟩ := h x hx
    exact .inr ⟨hnone x hx, y, hy, hroom, hdate, hgood, hlen⟩

/-- R77: what BOOK makes in the write edition DRAFT where its checks pass. -/
theorem bookDraft_makes {t : Ctu} {b : Book} {f : BookFields} {rm : Room} (hs : StoreSound b) (hf : FieldsOk f)
    (hspan : SpanPasses t b f.date f.start f.count) (hroom : RoomTakes b f.room f.attendees rm)
    (hfull : b.tableFull = false) (hlist : b.bke.draft.records.length < 512)
    (hready : DraftReady b (b.familyDays f.room f.date))
    (htest : b.conflict .draft f.room f.date f.start f.count (clipBuffer (f.start + f.count) (b.squ.bufferOf rm)) none =
      none) :
    let buf := clipBuffer (f.start + f.count) (b.squ.bufferOf rm)
    let r := bookRecord f b.newId buf .draft .host .confirmed
    ∃ b', Book.bookDraft t f b = .ok (b', Answer.ok (.booked (b.placed r) .confirmed none)) ∧ DraftClaim b b' ∧
      (∀ m, b'.slot m = if m = b.newSlot then some (.sound r) else b.slot m) ∧
      b'.bke.draft.records = b.bke.draft.records ++ [r.id] ∧
      ∀ x ∈ rowFamily b.bke.rooms f.room, DraftHolds b b'.bke.draft.rows x f.date
        (spanWritten f.room f.start f.count buf .booked x) := by
  intro buf r
  obtain ⟨rows, hrows, hheld⟩ := tryDraftRows_ready hs hready
  have hheld' : ∀ x ∈ rowFamily b.bke.rooms f.room, DraftHolds b rows x f.date fun _ c => c := fun x hx =>
    hheld (x, f.date) (mem_familyDays.mpr ⟨rfl, hx⟩)
  obtain ⟨claim, hslot, hrecords, -, hwritten⟩ := addDraft_makes (b := b.withDraftRows rows) (b₀ := b) hs r
    fun x hx => ⟨_, hheld' x hx⟩
  have claim := (withDraft_claim b _).trans claim
  refine ⟨_, ?_, claim, hslot, hrecords, fun x hx => (hwritten x f.date _ (hheld' x hx)).congr fun k _ c => ?_⟩
  · rw [← claim.placed]
    unfold Book.bookDraft
    simp only [trySoundDraft_sound hready.sound, spanCheck_of hspan hf, hroom.bookable, tryConflict_passes hs htest, hfull,
      draftListFull_short hlist, hrows, refuseWith, refuseIf, firstFail, bind, Except.bind, pure, Except.pure]
    rfl
  · rw [if_pos ⟨rfl, hx⟩, Record.written_booked (r := r) rfl rfl (fun h => by cases h), heldBuffer_fitted (r := r) rfl]
    rfl

/-! ## The draft rows in order (R82) -/

theorem mem_draftDays (b : Book) (z : DraftRow) : z ∈ b.draftDays ↔ z ∈ b.bke.draft.rows.values := mem_sortBy ..

theorem placeOf_lt {d : Date} {l : List Date} {i : Nat} (h : placeOf d l = some i) : i < l.length := by
  induction l generalizing i with
  | nil => cases h
  | cons x l ih =>
    unfold placeOf at h
    split at h
    · cases h
      exact Nat.zero_lt_succ _
    · obtain ⟨j, hj, rfl⟩ := Option.map_eq_some_iff.mp h
      exact Nat.succ_lt_succ (ih hj)

/-- R6: a day offset is one of 14. -/
theorem offset_lt {b : Book} {d : Date} {i : Nat} (h : b.offset d = some i) : i < 14 := by
  obtain ⟨x, -, hx⟩ := Option.bind_eq_some_iff.mp h
  simpa [Horizon.dates_eq] using placeOf_lt hx

/-- R82: the draft rows stand by rising room index, those of one room by rising date. -/
theorem draftDays_rising (b : Book) :
    b.draftDays.Pairwise fun y z =>
      y.room < z.room ∨
        y.room = z.room ∧ ∀ i j, b.offset y.date = some i → b.offset z.date = some j → i ≤ j := by
  refine (sortBy_rising _ _).imp fun {y z} h => ?_
  have bound (d : Date) : (b.offset d).getD 15 ≤ 15 := by
    cases hd : b.offset d with
    | none => exact Nat.le_refl 15
    | some i => exact Nat.le_of_lt ((offset_lt hd).trans (by decide))
  have hy := bound y.date
  have hz := bound z.date
  by_cases hroom : y.room < z.room
  · exact .inl hroom
  · refine .inr ⟨by omega, fun i j hi hj => ?_⟩
    rw [hi] at h hy
    rw [hj] at h hz
    simp only [Option.getD_some] at h hy hz
    omega

/-! ## Stale draft rows (R81) -/

/-- R81: a marked record whose cells were freed in the draft row is no longer CONFIRMED. -/
def EndedMark (b : Book) (z : DraftRow) (q : Record) : Prop :=
  (∃ m, b.slot m = some (.sound q)) ∧ q.id ∈ b.bke.draft.marked ∧ q.id ∈ z.freed ∧ q.state ≠ .confirmed

theorem staleMark_iff {b : Book} (hw : b.bke.records.wf = true) (z : DraftRow) :
    (b.staleMark z = none ↔ ∀ q, ¬EndedMark b z q) ∧
      ∀ id, b.staleMark z = some id → ∃ q, EndedMark b z q ∧ q.id = id := by
  have tested (p : Nat × Record) (hp : p ∈ b.sound) :
      (b.isMarked p.2.id && p.2.state != .confirmed && z.freed.contains p.2.id) = true ↔ EndedMark b z p.2 := by
    have stands : ∃ m, b.slot m = some (.sound p.2) := ⟨p.1, (mem_sound hw _ _).mp hp⟩
    simp only [EndedMark, stands, true_and, Bool.and_eq_true, isMarked_eq, bne_iff_ne, List.contains_iff_mem]
    tauto
  unfold Book.staleMark
  refine ⟨?_, fun id h => ?_⟩
  · rw [Option.map_eq_none_iff, List.find?_eq_none]
    constructor
    · intro h q hq
      obtain ⟨m, hm⟩ := hq.1
      have hp := (mem_sound hw m q).mpr hm
      exact h _ hp ((tested _ hp).mpr hq)
    · exact fun h p hp hq => h _ ((tested p hp).mp hq)
  · obtain ⟨p, hp, rfl⟩ := Option.map_eq_some_iff.mp h
    have passed := List.find?_some hp
    exact ⟨p.2, (tested p (List.mem_of_find?_eq_some hp)).mp passed, rfl⟩

/-- R81: the room-day of a draft row as stale, beside the version of its live row. -/
theorem staleDay_eq {b : Book} {z : DraftRow} {y : Row} (hy : b.row z.room z.date = some y) :
    b.staleDay z =
      if y.version ≠ z.base ∨ (b.staleMark z).isSome then
        some
          { room := z.room, code := b.code z.room, date := z.date, base := z.base, version := y.version,
            marked := if y.version = z.base then b.staleMark z else none }
      else none := by
  simp only [Book.staleDay, hy, Option.map_some, Option.getD_some]

/-- R81: which draft rows are stale, and what is told of one. -/
theorem staleDay_iff {b : Book} {z : DraftRow} {y : Row} (hw : b.bke.records.wf = true) (hy : b.row z.room z.date = some y) :
    (b.staleDay z = none ↔ y.version = z.base ∧ ∀ q, ¬EndedMark b z q) ∧
      ∀ e, b.staleDay z = some e →
        e.room = z.room ∧ e.code = b.code z.room ∧ e.date = z.date ∧ e.base = z.base ∧ e.version = y.version ∧
          (y.version ≠ z.base → e.marked = none) ∧
          (y.version = z.base → ∃ q, EndedMark b z q ∧ e.marked = some q.id) := by
  obtain ⟨unmarked, marked⟩ := staleMark_iff hw z
  rw [staleDay_eq hy]
  refine ⟨?_, fun e he => ?_⟩
  · rw [ite_eq_right_iff, ← unmarked]
    simp [not_or]
  · split at he
    · next stale =>
      cases he
      refine ⟨rfl, rfl, rfl, rfl, rfl, fun hv => if_neg hv, fun hv => ?_⟩
      obtain ⟨id, hid⟩ := Option.isSome_iff_exists.mp (stale.resolve_left fun h => h hv)
      obtain ⟨q, hq, rfl⟩ := marked id hid
      exact ⟨q, hq, (if_pos hv).trans hid⟩
    · cases he

/-! ## Lapsed draft records and the count of runs (R83) -/

theorem lapsedDraft_iff (t : Ctu) (b : Book) (r : Record) :
    b.lapsedDraft t r = true ↔
      ∃ h c, b.bke.horizon = some h ∧ h.today = r.date ∧ t.clock = some c ∧
        ((∃ l, c.lastBoundary = some l ∧ r.start ≤ l) ∨ 360 + 15 * r.start ≤ c.reach) := by
  unfold Book.lapsedDraft Book.startPast Book.isToday Ctu.passed Ctu.delivered Ctu.lastBoundary Ctu.reach boundaryMinute
  cases hh : b.bke.horizon with
  | none => simp
  | some h =>
    cases hc : t.clock with
    | none => simp
    | some c => cases hl : c.lastBoundary <;> simp [hl]

/-- R83: the count is that of the kept draft meetings whose room has a template. -/
theorem runCount_eq (t : Ctu) (b : Book) :
    b.runCount t =
      b.sound.countP fun p =>
        p.2.edition == .draft && !b.lapsedDraft t p.2 && p.2.kind == .meeting &&
          (b.room p.2.room).any fun rm => rm.template.isSome := by
  unfold Book.runCount Book.draftRecords
  rw [← List.countP_eq_length_filter, (sortBy_perm _ _).countP_eq, List.countP_filter]
  refine congrArg (fun f => List.countP f b.sound) (funext fun p => ?_)
  cases p.2.edition == .draft <;> simp

end Sys2Proof.Machine


/-! SUPPORT. PUBLISH refused (R82) and DISCARD (R85) over a store without errors. -/

namespace Sys2Proof.Machine

/-! ## The checks of PUBLISH (R82) -/

/-- R82: the first draft row whose live row is being rebuilt. -/
def Book.rebuildingDay (b : Book) : Option DraftRow :=
  b.draftDays.find? fun r => (b.row r.room r.date).any fun x => x.state == .rebuilding

theorem readForPublish_sound {b : Book} (hs : StoreSound b) : b.readForPublish = b := by
  have rows (l : List DraftRow) :
      l.foldl (fun b r => (b.readDraft .demand r.room r.date).readLive .demand r.room r.date) b = b := by
    induction l with
    | nil => rfl
    | cons z l ih => rw [List.foldl_cons, Book.readDraft_sound hs, Book.readLive_sound hs, ih]
  have records (l : List Nat) : l.foldl (fun b id => (b.fetch id).1) b = b := by
    induction l with
    | nil => rfl
    | cons id l ih => rw [List.foldl_cons, Book.fetch_sound hs, ih]
  unfold Book.readForPublish
  simp only [rows, records]

section

variable {t : Ctu} {b : Book} (hs : StoreSound b) (hh : b.bke.horizon ≠ none) (hd : b.bke.draft.damaged = false)
  (he : b.bke.draft.isEmpty = false)
include hs hh hd he

/-- R82: PUBLISH of a draft that is SOUND and not empty. -/
theorem publish_eq :
    Book.publish t b =
      match b.rebuildingDay with
      | some r =>
        .error (b, { status := .busy, detail := .rebuilding, data := .roomDay r.room (b.code r.room) r.date })
      | none =>
        if b.draftDays.filterMap b.staleDay ≠ [] then
          .error
            (b,
              { status := .stale, detail := .none
                data := .stale (b.draftDays.filterMap b.staleDay).length ((b.draftDays.filterMap b.staleDay).take 8) })
        else if 511 - b.squ.runs.size < b.runCount t then
          .error
            (b, { status := .full, detail := .runs, data := .runsNeeded (b.runCount t) (511 - b.squ.runs.size) })
        else .ok (b.applyDraft t) := by
  unfold Book.publish
  simp only [Book.tryHorizon_open hh, trySoundDraft_sound hd, he, readForPublish_sound hs, refuseIf, firstFail, bind,
    Except.bind, Book.rebuildingDay]
  cases b.draftDays.find? fun r => (b.row r.room r.date).any fun x => x.state == .rebuilding with
  | some r => rfl
  | none =>
    cases b.draftDays.filterMap b.staleDay with
    | cons z l => rfl
    | nil =>
      by_cases hruns : 511 - b.squ.runs.size < b.runCount t
      · simp [firstFail, Config.maxRuns, hruns]
      · simp [firstFail, Config.maxRuns, hruns, pure, Except.pure]

end

/-- R185: an answer made from the book as it was changes nothing of the book and the runs. -/
theorem State.afterAnswer_same (s : State) {rest : List Handed} (c : Ctx) {op : Book → Book × Answer} {a : Answer}
    (ho : op (s.book.withRequests rest) = (s.book.withRequests rest, a)) :
    SameBke s (s.afterAnswer rest c op) ∧ (s.afterAnswer rest c op).book.squ = s.book.squ ∧
      Replied s (s.afterAnswer rest c op) c a := by
  obtain ⟨bke, -, replied⟩ := s.afterAnswer_answers (rest := rest) c ho rfl
  refine ⟨⟨?_, fun x d => ?_⟩, ?_, replied⟩
  · rw [bke]
    rfl
  · exact congrArg (fun k : Bke => k.rows.find (rowKey x d)) bke
  · show ((s.book.withRequests rest).answer c op).squ = _
    simp only [Book.answer, ho, Book.reply_squ]
    rfl

/-! ## What a step on the records leaves -/

/-- Of the BKE the step has changed the records alone; nothing is posted, and the store stays as it is. -/
structure RecordsStep (b b' : Book) : Prop where
  hmp : b'.hmp = b.hmp
  bss : b'.bss = b.bss
  bke : b'.bke = { b.bke with records := b'.bke.records }
  wf : b.bke.records.wf = true → b'.bke.records.wf = true

theorem RecordsStep.refl (b : Book) : RecordsStep b b := ⟨rfl, rfl, rfl, id⟩

theorem RecordsStep.trans {a b c : Book} (h : RecordsStep a b) (k : RecordsStep b c) : RecordsStep a c where
  hmp := k.hmp.trans h.hmp
  bss := k.bss.trans h.bss
  bke := by rw [k.bke, h.bke]
  wf := fun ha => k.wf (h.wf ha)

section

variable {b b' : Book} (h : RecordsStep b b')
include h

theorem RecordsStep.sound (hs : StoreSound b) : StoreSound b' := by unfold StoreSound; rw [h.bss]; exact hs

theorem RecordsStep.rows : b'.bke.rows = b.bke.rows := by rw [h.bke]

theorem RecordsStep.rooms : b'.bke.rooms = b.bke.rooms := by rw [h.bke]

theorem RecordsStep.draft : b'.bke.draft = b.bke.draft := by rw [h.bke]

theorem RecordsStep.horizon : b'.bke.horizon = b.bke.horizon := by rw [h.bke]

end

theorem putSlot_step (b : Book) (n : Nat) (x : RecSlot) : RecordsStep b (b.putSlot n x) :=
  ⟨rfl, rfl, rfl, Table.wf_put _ _ _⟩

theorem dropSlot_step {b : Book} (hs : StoreSound b) (n : Nat) : RecordsStep b (b.dropSlot n) := by
  rw [Book.dropSlot_sound hs]
  exact ⟨rfl, rfl, rfl, Table.wf_drop _ _⟩

theorem dropSlot_slot {b : Book} (hs : StoreSound b) (n m : Nat) :
    (b.dropSlot n).slot m = if m = n then none else b.slot m := by
  rw [Book.dropSlot_sound hs]
  exact Table.find_drop ..

/-! ## The listed draft records (R85) -/

theorem find?_drop {α : Type} {t : Table α} (hw : t.wf = true) {p : Nat × α → Bool} {m : Nat}
    (hm : ∀ a, t.find m = some a → p (m, a) = false) : (t.drop m).entries.find? p = t.entries.find? p := by
  show (dropKey m t.entries).find? p = _
  rw [dropKey_eq_filter, List.find?_filter]
  refine List.find?_congr fun e he => ?_
  by_cases hk : e.1 = m
  · obtain ⟨i, a⟩ := e
    subst hk
    simp [hm a ((Table.mem_entries hw i a).mp he)]
  · simp [hk]

section

variable {b : Book} (hs : StoreSound b)
include hs

theorem dropListed_step (id : Nat) : RecordsStep b (b.dropListed id) := by
  unfold Book.dropListed
  split
  · exact dropSlot_step hs _
  · exact .refl b

theorem dropListed_slot (id m : Nat) :
    (b.dropListed id).slot m = if b.slotOf id = some m then none else b.slot m := by
  unfold Book.dropListed
  cases h : b.slotOf id with
  | none => simp
  | some n =>
    dsimp only
    rw [dropSlot_slot hs]
    simp [eq_comm]

variable (hw : b.bke.records.wf = true)
include hw

omit hs in
/-- The record found by an id is known by that id. -/
theorem slotOf_id {id n : Nat} (h : b.slotOf id = some n) {x : RecSlot} (hx : b.slot n = some x) : x.id = some id := by
  obtain ⟨e, he, rfl⟩ := Option.map_eq_some_iff.mp h
  have known := List.find?_some he
  have stands := (Table.mem_entries hw e.1 e.2).mp (List.mem_of_find?_eq_some he)
  obtain rfl : e.2 = x := Option.some.inj (stands.symm.trans hx)
  simpa using known

/-- A record that does not go is found as before. -/
theorem dropListed_slotOf {id i : Nat} (hi : i ≠ id) : (b.dropListed id).slotOf i = b.slotOf i := by
  unfold Book.dropListed
  cases h : b.slotOf id with
  | none => rfl
  | some n =>
    dsimp only
    rw [Book.dropSlot_sound hs]
    refine congrArg (Option.map _) (find?_drop hw fun x hx => ?_)
    rw [slotOf_id hw h hx]
    simpa using Ne.symm hi

/-- R85: the records of the list go, each found by its id, and no other record. -/
theorem withoutListed_spec (l : List Nat) :
    RecordsStep b (l.foldl Book.dropListed b) ∧
      ∀ n r, b.slot n = some (.sound r) →
        (r.id ∈ l → b.slotOf r.id = some n → (l.foldl Book.dropListed b).slot n = none) ∧
          (r.id ∉ l → (l.foldl Book.dropListed b).slot n = some (.sound r)) := by
  have gone (l : List Nat) {b : Book} (hs : StoreSound b) {n : Nat} (h : b.slot n = none) :
      (l.foldl Book.dropListed b).slot n = none := by
    induction l generalizing b with
    | nil => exact h
    | cons i l ih =>
      refine ih ((dropListed_step hs i).sound hs) ?_
      rw [dropListed_slot hs, h, ite_self]
  induction l generalizing b with
  | nil => exact ⟨.refl b, fun n r hr => ⟨fun h => absurd h List.not_mem_nil, fun _ => hr⟩⟩
  | cons i l ih =>
    have step := dropListed_step hs i
    obtain ⟨steps, records⟩ := ih (step.sound hs) (step.wf hw)
    refine ⟨step.trans steps, fun n r hr => ?_⟩
    rw [List.foldl_cons]
    by_cases hi : r.id = i
    · refine ⟨fun _ found => gone l (step.sound hs) ?_, fun h => absurd (hi ▸ List.mem_cons_self) h⟩
      rw [dropListed_slot hs, if_pos (hi ▸ found)]
    · have kept : (b.dropListed i).slot n = some (.sound r) := by
        rw [dropListed_slot hs, if_neg fun h => hi ?_, hr]
        exact Option.some.inj (slotOf_id hw h hr)
      obtain ⟨listed, unlisted⟩ := records n r kept
      refine ⟨fun h found => listed ((List.mem_cons.mp h).resolve_left hi) ?_,
        fun h => unlisted fun h' => h (List.mem_cons_of_mem i h')⟩
      rwa [dropListed_slotOf hs hw hi]

end

/-! ## The marks (R85) -/

/-- A record without its draft-cancel mark. -/
def Record.withoutMark (r : Record) : Record := { r with cancelMark := false }

section

variable {b : Book} (hs : StoreSound b)
include hs

theorem clearMark_step (m : Nat) : RecordsStep b (b.clearMark m) := by
  unfold Book.clearMark
  split
  · rw [Book.putRecord_sound hs]
    exact putSlot_step b m _
  · exact .refl b

theorem clearMark_slot {n : Nat} {r : Record} (hr : b.slot n = some (.sound r)) (m : Nat) :
    (b.clearMark m).slot n = some (.sound (if n = m then r.withoutMark else r)) := by
  unfold Book.clearMark
  by_cases hm : n = m
  · subst hm
    simp only [Book.soundAt, hr, if_true]
    exact putRecord_slot hs n _
  · rw [if_neg hm, ← hr]
    split
    · exact (putRecord_only hs m _).slots n hm
    · rfl

theorem clearMark_empty {n : Nat} (hn : b.slot n = none) (m : Nat) : (b.clearMark m).slot n = none := by
  unfold Book.clearMark
  split
  · next r hr =>
    have hne : n ≠ m := by
      rintro rfl
      simp [Book.soundAt, hn] at hr
    exact ((putRecord_only hs m _).slots n hne).trans hn
  · exact hn

/-- R85: each SOUND record of the list loses its mark. -/
theorem clearMarks_spec (l : List (Nat × Record)) :
    let b' := l.foldl (fun b p => (b.readSlot .demand p.1).clearMark p.1) b
    RecordsStep b b' ∧ (∀ n, b.slot n = none → b'.slot n = none) ∧
      ∀ n r, b.slot n = some (.sound r) → b'.slot n = some (.sound (if n ∈ l.map (·.1) then r.withoutMark else r)) := by
  induction l generalizing b with
  | nil => exact ⟨.refl b, fun n hn => hn, fun n r hr => hr⟩
  | cons p l ih =>
    have step := clearMark_step hs p.1
    obtain ⟨steps, empty, records⟩ := ih (step.sound hs)
    rw [List.foldl_cons, Book.readSlot_sound hs]
    refine ⟨step.trans steps, fun n hn => empty n (clearMark_empty hs hn p.1), fun n r hr => ?_⟩
    refine (records n _ (clearMark_slot hs hr p.1)).trans ?_
    by_cases hp : n = p.1 <;> by_cases hl : n ∈ l.map (·.1) <;> simp [hp, hl, Record.withoutMark]

theorem marksCleared_spec (hw : b.bke.records.wf = true) :
    RecordsStep b b.marksCleared ∧ (∀ n, b.slot n = none → b.marksCleared.slot n = none) ∧
      ∀ n r, b.slot n = some (.sound r) → b.marksCleared.slot n = some (.sound r.withoutMark) := by
  obtain ⟨step, empty, records⟩ := clearMarks_spec hs (b.sound.filter fun p => p.2.cancelMark)
  refine ⟨step, empty, fun n r hr => (records n r hr).trans ?_⟩
  split
  · rfl
  · next h =>
    have unmarked : r.cancelMark = false := by
      by_contra marked
      refine h (List.mem_map.mpr ⟨(n, r), List.mem_filter.mpr ⟨(mem_sound hw n r).mpr hr, ?_⟩, rfl⟩)
      simpa using marked
    rw [show r.withoutMark = r by unfold Record.withoutMark; rw [← unmarked]]

/-- R84, R85: the draft emptied. -/
theorem emptyDraft_sound : b.emptyDraft = b.withDraft Draft.empty := by
  have dropped (l : List DraftRow) : ∃ d, l.foldl Book.dropDraftRow b = b.withDraft d := by
    induction l generalizing b with
    | nil => exact ⟨b.bke.draft, rfl⟩
    | cons z l ih =>
      have drop : b.dropDraftRow z =
          b.withDraft { b.bke.draft with rows := b.bke.draft.rows.drop (rowKey z.room z.date) } :=
        Book.fresh_sound (by exact hs) _
      obtain ⟨d, hd⟩ := ih (b := b.dropDraftRow z) (by rw [drop]; exact hs)
      exact ⟨d, by rw [List.foldl_cons, hd, drop]; rfl⟩
  obtain ⟨d, hd⟩ := dropped b.bke.draft.rows.values
  unfold Book.emptyDraft
  rw [hd]
  rfl

/-- R85: DISCARD over a sound store. -/
theorem discardDraft_spec (hw : b.bke.records.wf = true) :
    b.discardDraft.1.hmp = b.hmp ∧ b.discardDraft.1.bke.rows = b.bke.rows ∧
      ∀ n r, b.slot n = some (.sound r) →
        (r.id ∈ b.bke.draft.records → b.slotOf r.id = some n → b.discardDraft.1.slot n = none) ∧
          (r.id ∉ b.bke.draft.records → b.discardDraft.1.slot n = some (.sound r.withoutMark)) := by
  obtain ⟨listed, records⟩ := withoutListed_spec hs hw b.bke.draft.records
  obtain ⟨cleared, empty, marks⟩ := marksCleared_spec (b := b.withoutListed) (listed.sound hs) (listed.wf hw)
  have steps := listed.trans cleared
  rw [discardDraft_eq, emptyDraft_sound (steps.sound hs)]
  refine ⟨steps.hmp, steps.rows, fun n r hr => ?_⟩
  have unlisted : ((b.withoutListed.marksCleared.withDraft Draft.empty).unlist).slot n =
      (b.withoutListed.marksCleared.slot n).map RecSlot.unlisted := Table.find_mapValues ..
  obtain ⟨dropped, kept⟩ := records n r hr
  refine ⟨fun hl found => ?_, fun hl => ?_⟩
  · rw [unlisted, empty n (dropped hl found)]
    rfl
  · rw [unlisted, marks n r (kept hl)]
    rfl

end

/-- R85: the draft is empty after DISCARD, in whatever state the store is. -/
theorem discardDraft_empty (b : Book) : b.discardDraft.1.bke.draft = Draft.empty := rfl

end Sys2Proof.Machine


/-! SUPPORT. The first two steps of PUBLISH over a store without errors (R84): the lapsed draft records go, with their cells in
the draft rows, and every draft row is written into its live row. -/

namespace Sys2Proof

variable {α : Type}

/-! ## Tables changed in place -/

theorem mapValues_kept {t : Table α} {f : Nat → α → α} (h : ∀ e ∈ t.entries, f e.1 e.2 = e.2) : t.mapValues f = t := by
  have same : (t.entries.map fun e => (e.1, f e.1 e.2)) = t.entries.map id :=
    List.map_congr_left fun e he => by rw [h e he]; rfl
  exact congrArg Table.mk (same.trans (List.map_id _))

theorem mapValues_mapValues (t : Table α) (f g : Nat → α → α) :
    (t.mapValues f).mapValues g = t.mapValues fun k a => g k (f k a) :=
  congrArg Table.mk (List.map_map ..)

theorem putKey_found {k low : Nat} {a : α} {l : List (Nat × α)} (h : risingFrom low l = true)
    (hf : findKey k l = some a) (b : α) : putKey k b l = l.map fun e => (e.1, if e.1 = k then b else e.2) := by
  induction l generalizing low with
  | nil => cases hf
  | cons e l ih =>
    obtain ⟨i, x⟩ := e
    simp only [risingFrom, Bool.and_eq_true, decide_eq_true_eq] at h
    unfold findKey at hf
    by_cases hi : i = k
    · subst hi
      have behind : (l.map fun e => (e.1, if e.1 = i then b else e.2)) = l.map id :=
        List.map_congr_left fun e he => by
          have := Machine.risingFrom_low (k := e.1) (a := e.2) h.2 he
          rw [if_neg (by omega)]
          rfl
      simp [putKey, behind]
    · rw [if_neg hi] at hf
      have low := Machine.risingFrom_low h.2 (Machine.findKey_mem hf)
      simp only [putKey, List.map_cons, ih h.2 hf, if_neg hi, if_neg (show ¬k < i by omega), if_neg (Ne.symm hi)]

/-- To write anew what a canonical table finds is to change it in its place. -/
theorem Table.put_found {t : Table α} (hw : t.wf = true) {k : Nat} {a : α} (hf : t.find k = some a) (b : α) :
    t.put k b = t.mapValues fun j x => if j = k then b else x :=
  congrArg Table.mk (putKey_found hw hf b)

theorem Table.put_same {t : Table α} (hw : t.wf = true) {k : Nat} {a : α} (hf : t.find k = some a) : t.put k a = t := by
  rw [t.put_found hw hf]
  refine mapValues_kept fun e he => ?_
  split
  · next hk =>
    have found := (Machine.Table.mem_entries hw e.1 e.2).mp he
    rw [hk] at found
    exact Option.some.inj (hf.symm.trans found)
  · rfl

theorem Table.wf_dropAll {t : Table α} (hw : t.wf = true) (l : List Nat) : (t.dropAll l).wf = true := by
  induction l generalizing t with
  | nil => exact hw
  | cons k l ih => exact ih (t.wf_drop k hw)

theorem Table.nodup_keys {t : Table α} (hw : t.wf = true) : t.keys.Nodup := by
  unfold Table.keys
  rw [List.nodup_iff_pairwise_ne, List.pairwise_map]
  exact (Machine.risingFrom_pairwise hw).imp Nat.ne_of_lt

end Sys2Proof

namespace Sys2Proof.Machine

theorem insertBy_map {α β : Type} (rank : β → Nat) (f : α → β) (a : α) (l : List α) :
    insertBy rank (f a) (l.map f) = (insertBy (fun x => rank (f x)) a l).map f := by
  induction l with
  | nil => rfl
  | cons x l ih =>
    simp only [List.map_cons, insertBy, ih]
    split <;> rfl

/-- Sorting commutes with a change that is sorted by what it makes. -/
theorem sortBy_map {α β : Type} (rank : β → Nat) (f : α → β) (l : List α) :
    sortBy rank (l.map f) = (sortBy (fun x => rank (f x)) l).map f := by
  have sorted (acc : List α) :
      (l.map f).foldl (fun acc a => insertBy rank a acc) (acc.map f) =
        (l.foldl (fun acc a => insertBy (fun x => rank (f x)) a acc) acc).map f := by
    induction l generalizing acc with
    | nil => rfl
    | cons a l ih => rw [List.map_cons, List.foldl_cons, List.foldl_cons, insertBy_map, ih]
  exact sorted []

/-! ## Cells freed in draft rows (R84) -/

theorem freePatches_append (p q : List Patch) (c : List Cell) :
    freePatches (p ++ q) c = freePatches q (freePatches p c) := List.foldl_append ..

/-- R20: a cell after patches are freed, also beyond the cells there are. -/
theorem cellAt_freed (l : List Patch) (c : List Cell) (k : Nat) :
    cellAt (freePatches l c) k = if l.any (·.has k) then .free else cellAt c k := by
  induction l generalizing c with
  | nil => rfl
  | cons p l ih =>
    rw [show freePatches (p :: l) c = freePatches l (paint .free p.start p.count c) from rfl, ih]
    by_cases hk : k < c.length
    · by_cases hp : p.start ≤ k ∧ k < p.start + p.count <;> simp [cellAt_paint, hk, hp, Patch.has]
    · have beyond := Nat.le_of_not_lt hk
      rw [cellAt_beyond (by simpa using beyond), cellAt_beyond beyond]
      simp

/-- R75: the cells of a draft row are written, unless it is damaged. -/
def DraftRow.paintedBy (f : List Cell → List Cell) (z : DraftRow) : DraftRow :=
  if z.damaged then z else { z with cells := f z.cells }

theorem paintedBy_place (f : List Cell → List Cell) (z : DraftRow) :
    (z.paintedBy f).room = z.room ∧ (z.paintedBy f).date = z.date := by
  unfold DraftRow.paintedBy
  split <;> exact ⟨rfl, rfl⟩

theorem paintedBy_whole (f : List Cell → List Cell) {z : DraftRow} (h : z.damaged = false) :
    (z.paintedBy f).cells = f z.cells := by
  unfold DraftRow.paintedBy
  rw [h]
  rfl

theorem paintedBy_paintedBy (f g : List Cell → List Cell) (z : DraftRow) :
    (z.paintedBy f).paintedBy g = z.paintedBy fun c => g (f c) := by
  unfold DraftRow.paintedBy
  cases hd : z.damaged <;> simp [hd]

theorem paintedBy_same (z : DraftRow) : z.paintedBy (fun c => c) = z := by
  unfold DraftRow.paintedBy
  split <;> rfl

/-- The draft rows with the patches freed that `p` gives for each key. -/
def freedRows (t : Table DraftRow) (p : Nat → List Patch) : Table DraftRow :=
  t.mapValues fun k z => z.paintedBy (freePatches (p k))

theorem freedRows_freedRows (t : Table DraftRow) (p q : Nat → List Patch) :
    freedRows (freedRows t p) q = freedRows t fun k => p k ++ q k := by
  unfold freedRows
  rw [mapValues_mapValues]
  exact congrArg (fun f => t.mapValues f) (funext fun k => funext fun z =>
    (paintedBy_paintedBy _ _ z).trans (congrArg (z.paintedBy ·) (funext fun c => (freePatches_append _ _ c).symm)))

theorem freedRows_none (t : Table DraftRow) : freedRows t (fun _ => []) = t :=
  mapValues_kept fun e _ => paintedBy_same e.2

theorem freedRows_find (t : Table DraftRow) (p : Nat → List Patch) (k : Nat) :
    (freedRows t p).find k = (t.find k).map (·.paintedBy (freePatches (p k))) := Table.find_mapValues ..

/-- Patches freed for one key change the row that stands there. -/
theorem freedRows_at {t : Table DraftRow} (hw : t.wf = true) {k : Nat} {z : DraftRow} (hz : t.find k = some z)
    (l : List Patch) : freedRows t (fun j => if j = k then l else []) = t.put k (z.paintedBy (freePatches l)) := by
  rw [t.put_found hw hz]
  refine congrArg Table.mk (List.map_congr_left fun e he => congrArg (Prod.mk e.1) ?_)
  dsimp only
  by_cases hk : e.1 = k
  · have found := (Table.mem_entries hw e.1 e.2).mp he
    rw [hk] at found
    rw [if_pos hk, if_pos hk, Option.some.inj (hz.symm.trans found)]
  · rw [if_neg hk, if_neg hk]
    exact paintedBy_same e.2

/-- Patches freed for one key change nothing where no row stands. -/
theorem freedRows_missing {t : Table DraftRow} (hw : t.wf = true) {k : Nat} (hz : t.find k = none) (l : List Patch) :
    freedRows t (fun j => if j = k then l else []) = t := by
  refine mapValues_kept fun e he => ?_
  have hk : e.1 ≠ k := by
    rintro rfl
    cases hz.symm.trans ((Table.mem_entries hw e.1 e.2).mp he)
  dsimp only
  rw [if_neg hk]
  exact paintedBy_same e.2

/-- Every draft row stands under the key of its room and date. -/
def DraftKeyed (t : Table DraftRow) : Prop := ∀ k z, t.find k = some z → k = rowKey z.room z.date

theorem freedRows_keyed {t : Table DraftRow} (h : DraftKeyed t) (p : Nat → List Patch) : DraftKeyed (freedRows t p) := by
  intro k z hz
  rw [freedRows_find] at hz
  obtain ⟨y, hy, rfl⟩ := Option.map_eq_some_iff.mp hz
  rw [(paintedBy_place _ y).1, (paintedBy_place _ y).2]
  exact h k y hy

/-- What can be freed in canonical draft rows under their keys, over a sound store. -/
structure DraftFreeable (b : Book) : Prop where
  sound : StoreSound b
  wf : b.bke.draft.rows.wf = true
  keyed : DraftKeyed b.bke.draft.rows

theorem DraftFreeable.freed {b : Book} (h : DraftFreeable b) (p : Nat → List Patch) :
    DraftFreeable (b.withDraftRows (freedRows b.bke.draft.rows p)) :=
  ⟨h.sound, (Table.wf_mapValues ..).trans h.wf, freedRows_keyed h.keyed p⟩

section

variable {b : Book} (h : DraftFreeable b)
include h

theorem paintDraft_freed (x : Nat) (d : Date) (l : List Patch) :
    b.paintRow .draft x d (freePatches l) =
      b.withDraftRows (freedRows b.bke.draft.rows fun k => if k = rowKey x d then l else []) := by
  show b.paintDraft x d (freePatches l) = _
  unfold Book.paintDraft
  rw [Book.readDraft_sound h.sound]
  cases hz : b.draftRow x d with
  | none =>
    rw [freedRows_missing h.wf hz]
    simp only [hz]
    rfl
  | some z =>
    rw [freedRows_at h.wf hz]
    simp only [hz]
    by_cases hd : z.damaged = true
    · have same : z.paintedBy (freePatches l) = z := if_pos hd
      rw [if_pos hd, same, Table.put_same h.wf hz]
      rfl
    · have painted : z.paintedBy (freePatches l) = { z with cells := freePatches l z.cells } := if_neg hd
      rw [if_neg hd, painted, h.keyed _ z hz]
      exact Book.fresh_sound (by exact h.sound) _

/-- R20: what freeing the cover of `r` frees in the draft row of a key. -/
def Record.freedAt (r : Record) (rooms : Table Room) (k : Nat) : List Patch :=
  (rowFamily rooms r.room).flatMap fun x => if k = rowKey x r.date then r.patches x else []

theorem uncoverDraft_freed (r : Record) :
    b.uncover .draft r = b.withDraftRows (freedRows b.bke.draft.rows (r.freedAt b.bke.rooms)) := by
  have freed (l : List Nat) : ∀ {b : Book}, DraftFreeable b →
      l.foldl (fun b x => b.paintRow .draft x r.date (freePatches (r.patches x))) b =
        b.withDraftRows
          (freedRows b.bke.draft.rows fun k => l.flatMap fun x => if k = rowKey x r.date then r.patches x else []) := by
    induction l with
    | nil =>
      intro b _
      simp only [List.flatMap_nil, freedRows_none]
      rfl
    | cons x l ih =>
      intro b hb
      rw [List.foldl_cons, paintDraft_freed hb, ih (hb.freed _)]
      exact congrArg b.withDraftRows (freedRows_freedRows b.bke.draft.rows
        (fun k => if k = rowKey x r.date then r.patches x else []) _)
  exact freed _ h

/-- R84: what dropping these records frees in the draft row of a key. -/
def freedByAll (rooms : Table Room) (l : List (Nat × Record)) (k : Nat) : List Patch :=
  l.flatMap fun p => p.2.freedAt rooms k

/-- R84 step 1: draft records go from the table, from the draft record list and from their draft cells. -/
theorem removeDrafts_spec (l : List (Nat × Record)) :
    let b' := l.foldl (fun b p => b.removeDraft p.1 p.2) b
    DraftClaim b b' ∧ b'.bke.records = b.bke.records.dropAll (l.map (·.1)) ∧
      b'.bke.draft.rows = freedRows b.bke.draft.rows (freedByAll b.bke.rooms l) ∧
      b'.bke.draft.marked = b.bke.draft.marked := by
  induction l generalizing b with
  | nil => exact ⟨.refl b, rfl, (freedRows_none _).symm, rfl⟩
  | cons p l ih =>
    have removed : b.removeDraft p.1 p.2 =
        (b.withBke { b.bke with records := b.bke.records.drop p.1 }).withDraft
          { b.bke.draft with
            rows := freedRows b.bke.draft.rows (p.2.freedAt b.bke.rooms)
            records := b.bke.draft.records.filter (· != p.2.id) } := by
      unfold Book.removeDraft
      rw [uncoverDraft_freed h, Book.dropSlot_sound (by exact h.sound)]
      rfl
    have hb : DraftFreeable (b.removeDraft p.1 p.2) := by
      have freed := h.freed (p.2.freedAt b.bke.rooms)
      rw [removed]
      exact ⟨freed.sound, freed.wf, freed.keyed⟩
    obtain ⟨claim, records, rows, marked⟩ := ih hb
    have first : DraftClaim b (b.removeDraft p.1 p.2) := by
      rw [removed]
      exact ⟨rfl, rfl, rfl, rfl, rfl, rfl⟩
    rw [List.foldl_cons]
    refine ⟨first.trans claim, records.trans ?_, rows.trans ?_, marked.trans ?_⟩
    · rw [removed]
      rfl
    · rw [removed]
      exact freedRows_freedRows ..
    · rw [removed]
      rfl

end

/-! ## The draft rows that remain -/

/-- The draft row with the patches freed that `p` gives for its key. -/
def DraftRow.freedBy (p : Nat → List Patch) (z : DraftRow) : DraftRow :=
  z.paintedBy (freePatches (p (rowKey z.room z.date)))

theorem freedBy_place (p : Nat → List Patch) (z : DraftRow) :
    (z.freedBy p).room = z.room ∧ (z.freedBy p).date = z.date := paintedBy_place _ z

/-- R82: freeing cells leaves the draft rows in their order. -/
theorem draftDays_freed {b c : Book} (hw : b.bke.draft.rows.wf = true) (hk : DraftKeyed b.bke.draft.rows)
    {p : Nat → List Patch} (hr : c.bke.draft.rows = freedRows b.bke.draft.rows p)
    (hh : c.bke.horizon = b.bke.horizon) : c.draftDays = b.draftDays.map (DraftRow.freedBy p) := by
  have values : (freedRows b.bke.draft.rows p).values = b.bke.draft.rows.values.map (DraftRow.freedBy p) := by
    unfold Table.values freedRows Table.mapValues
    rw [List.map_map, List.map_map]
    refine List.map_congr_left fun e he => ?_
    have key := hk e.1 e.2 ((Table.mem_entries hw e.1 e.2).mp he)
    simp only [Function.comp, DraftRow.freedBy, ← key]
  have ranked : (fun z : DraftRow => (z.freedBy p).room * 16 + (c.offset (z.freedBy p).date).getD 15) =
      fun z => z.room * 16 + (b.offset z.date).getD 15 := by
    funext z
    rw [(freedBy_place p z).1, (freedBy_place p z).2]
    unfold Book.offset
    rw [hh]
  unfold Book.draftDays
  rw [hr, values, sortBy_map, ranked]

/-- No two draft rows stand under one key. -/
theorem draftDays_keys {b : Book} (hw : b.bke.draft.rows.wf = true) (hk : DraftKeyed b.bke.draft.rows) :
    (b.draftDays.map fun z => rowKey z.room z.date).Nodup := by
  have keys : (b.bke.draft.rows.values.map fun z => rowKey z.room z.date) = b.bke.draft.rows.keys := by
    unfold Table.values Table.keys
    rw [List.map_map]
    exact List.map_congr_left fun e he => (hk e.1 e.2 ((Table.mem_entries hw e.1 e.2).mp he)).symm
  refine ((sortBy_perm _ _).map _).nodup_iff.mpr ?_
  rw [keys]
  exact Table.nodup_keys hw

/-- R82: the draft rows are those that their keys find. -/
theorem mem_draftDays_iff {b : Book} (hw : b.bke.draft.rows.wf = true) (hk : DraftKeyed b.bke.draft.rows) (z : DraftRow) :
    z ∈ b.draftDays ↔ b.draftRow z.room z.date = some z := by
  rw [mem_draftDays]
  unfold Table.values
  rw [List.mem_map]
  constructor
  · rintro ⟨e, he, rfl⟩
    have found := (Table.mem_entries hw e.1 e.2).mp he
    rwa [hk e.1 e.2 found] at found
  · exact fun hz => ⟨_, (Table.mem_entries hw _ _).mpr hz, rfl⟩

/-! ## The live rows (R84 step 2) -/

/-- R84: the live row with the cells of its draft row, at the next version. -/
def Row.replacedBy (z : DraftRow) (y : Row) : Row := { y with cells := z.cells, version := y.version + 1 }

/-- R84: the live rows after one of them is replaced. -/
def replacedTable (t : Table Row) (z : DraftRow) : Table Row := t.modify (rowKey z.room z.date) (Row.replacedBy z)

theorem replacedTables_find (l : List DraftRow) (hl : (l.map fun z => rowKey z.room z.date).Nodup) (t : Table Row) :
    (∀ z ∈ l, (l.foldl replacedTable t).find (rowKey z.room z.date) =
        (t.find (rowKey z.room z.date)).map (Row.replacedBy z)) ∧
      ∀ k, k ∉ l.map (fun z => rowKey z.room z.date) → (l.foldl replacedTable t).find k = t.find k := by
  induction l generalizing t with
  | nil => exact ⟨fun z hz => absurd hz List.not_mem_nil, fun k _ => rfl⟩
  | cons y l ih =>
    obtain ⟨hy, hl⟩ := List.nodup_cons.mp hl
    obtain ⟨changed, others⟩ := ih hl (replacedTable t y)
    have first (k : Nat) : (replacedTable t y).find k =
        if k = rowKey y.room y.date then (t.find (rowKey y.room y.date)).map (Row.replacedBy y) else t.find k :=
      Table.find_modify ..
    refine ⟨fun z hz => ?_, fun k hk => ?_⟩
    · rcases List.mem_cons.mp hz with rfl | hz
      · exact (others _ hy).trans ((first _).trans (if_pos rfl))
      · have hne : rowKey z.room z.date ≠ rowKey y.room y.date := fun h => hy (List.mem_map.mpr ⟨z, hz, h⟩)
        rw [List.foldl_cons, changed z hz, first, if_neg hne]
    · obtain ⟨hne, hk⟩ := not_or.mp fun h => hk (List.mem_cons.mpr h)
      exact (others k hk).trans ((first k).trans (if_neg hne))

/-- R84: a draft row is written into its live row. -/
theorem replaceRow_sound {b : Book} (hs : StoreSound b) (hb : RowsAtKeys b) (z : DraftRow) :
    b.replaceRow z = b.withRows (replacedTable b.bke.rows z) ∧ RowsAtKeys (b.replaceRow z) := by
  have replaced : b.replaceRow z = b.withRows (replacedTable b.bke.rows z) := by
    unfold Book.replaceRow replacedTable Table.modify Book.row
    cases hy : b.bke.rows.find (rowKey z.room z.date) with
    | none => rfl
    | some y =>
      dsimp only
      rw [Book.fresh_sound (by exact hs), hb _ y hy]
      rfl
  refine ⟨replaced, ?_⟩
  rw [replaced]
  intro k r hr
  rw [show (b.withRows (replacedTable b.bke.rows z)).bke.rows.find k = _ from Table.find_modify ..] at hr
  split at hr
  · next hk =>
    obtain ⟨y, hy, rfl⟩ := Option.map_eq_some_iff.mp hr
    rw [hk]
    exact hb _ y hy
  · exact hb k r hr

theorem replaceRows_sound {b : Book} (hs : StoreSound b) (hb : RowsAtKeys b) (l : List DraftRow) :
    l.foldl Book.replaceRow b = b.withRows (l.foldl replacedTable b.bke.rows) := by
  induction l generalizing b with
  | nil => rfl
  | cons z l ih =>
    obtain ⟨replaced, keyed⟩ := replaceRow_sound hs hb z
    rw [List.foldl_cons, ih (by rw [replaced]; exact hs) keyed, replaced]
    rfl

end Sys2Proof.Machine


/-! SUPPORT. The steps of PUBLISH on the records over a store without errors (R84): a kept draft record becomes live with its
run, and a marked record becomes CANCELLED. -/

namespace Sys2Proof.Machine

/-! ## A run id that is free (R153) -/

/-- The number that stands `j` places after the one that follows `last`, the number after `top` being 1. -/
def numberAfter (top last j : Nat) : Nat := ((if last < top then last else 0) + j) % top + 1

theorem numberAfter_zero (top last : Nat) :
    numberAfter top last 0 = if last < top then last + 1 else 1 := by
  unfold numberAfter
  split
  · next h => exact congrArg (· + 1) (Nat.mod_eq_of_lt h)
  · rw [Nat.zero_mod]

theorem numberAfter_succ {top : Nat} (ht : 0 < top) (last j : Nat) :
    numberAfter top (numberAfter top last 0) j = numberAfter top last (j + 1) := by
  rw [numberAfter_zero]
  unfold numberAfter
  by_cases h : last < top
  · rw [if_pos h, if_pos h]
    by_cases h' : last + 1 < top
    · rw [if_pos h', Nat.add_right_comm, Nat.add_assoc]
    · have : last + 1 = top := by omega
      rw [if_neg h', ← Nat.add_assoc, Nat.add_right_comm, this, Nat.add_mod_left, Nat.zero_add]
  · rw [if_neg h, if_neg h]
    by_cases h' : 1 < top
    · rw [if_pos h', Nat.zero_add, Nat.add_comm 1 j]
    · have : top = 1 := by omega
      subst this
      rw [Nat.mod_one, Nat.mod_one]

theorem numberAfter_inj {top last i j : Nat} (hi : i < top) (hj : j < top)
    (h : numberAfter top last i = numberAfter top last j) : i = j := by
  have same : (if last < top then last else 0) + i ≡ (if last < top then last else 0) + j [MOD top] :=
    Nat.succ_injective h
  exact (Nat.ModEq.add_left_cancel' _ same).eq_of_lt_of_lt hi hj

/-- A search that ends on a number in use has passed only numbers in use. -/
theorem nextId_used {top : Nat} (ht : 0 < top) {used : List Nat} {last fuel : Nat}
    (h : nextId used top last fuel ∈ used) : ∀ j ≤ fuel, numberAfter top last j ∈ used := by
  induction fuel generalizing last with
  | zero =>
    intro j hj
    obtain rfl := Nat.le_zero.mp hj
    rw [numberAfter_zero]
    exact h
  | succ fuel ih =>
    unfold nextId at h
    simp only [← numberAfter_zero] at h
    by_cases hn : numberAfter top last 0 ∈ used
    · rw [if_pos (by simpa using hn)] at h
      intro j hj
      cases j with
      | zero => exact hn
      | succ j =>
        rw [← numberAfter_succ ht]
        exact ih h j (by omega)
    · rw [if_neg (by simpa using hn)] at h
      exact absurd h hn

/-- Where fewer numbers are in use than there are, the number found is free. -/
theorem nextId_unused {top : Nat} {used : List Nat} (last : Nat) (h : used.length < top) :
    nextId used top last used.length ∉ used := by
  intro found
  have passed := nextId_used (by omega) found
  have distinct : ((List.range (used.length + 1)).map (numberAfter top last)).Nodup :=
    List.Nodup.map_on (fun i hi j hj => numberAfter_inj
      (by have := List.mem_range.mp hi; omega) (by have := List.mem_range.mp hj; omega)) List.nodup_range
  have within : (List.range (used.length + 1)).map (numberAfter top last) ⊆ used := fun n hn => by
    obtain ⟨j, hj, rfl⟩ := List.mem_map.mp hn
    exact passed j (by have := List.mem_range.mp hj; omega)
  have short := (List.subperm_of_subset distinct within).length_le
  simp at short

/-- R153: while a run entry is free the next run id is not in use. -/
theorem newRunId_free {q : Squ} (h : q.runs.size < 511) : q.newRunId ∉ q.runs.keys := by
  have len : q.runs.keys.length = q.runs.size := List.length_map ..
  unfold Squ.newRunId
  rw [← len] at h ⊢
  exact nextId_unused q.lastRun h

theorem putKey_length {α : Type} {k : Nat} {l : List (Nat × α)} (hk : k ∉ l.map (·.1)) (a : α) :
    (putKey k a l).length = l.length + 1 := by
  induction l with
  | nil => rfl
  | cons e l ih =>
    obtain ⟨i, x⟩ := e
    obtain ⟨hi, hl⟩ := not_or.mp fun h => hk (List.mem_cons.mpr h)
    unfold putKey
    split
    · rfl
    · exact congrArg (· + 1) (ih hl)

theorem create_templates (q : Squ) (id booking room : Nat) (rm : Room) (d : Date) (start count : Nat)
    (checkin : Option Nat) : (q.create id booking room rm d start count checkin).templates = q.templates := by
  unfold Squ.create
  split
  · rfl
  · exact (oweFor_spec _ _).2.1

/-- R155: a run that is made takes one more entry. -/
theorem create_size {q : Squ} {rm : Room} (ht : (q.templateOf rm).isSome = true) {id : Nat} (hid : id ∉ q.runs.keys)
    (booking room : Nat) (d : Date) (start count : Nat) (checkin : Option Nat) :
    (q.create id booking room rm d start count checkin).runs.size = q.runs.size + 1 := by
  obtain ⟨⟨k, x⟩, hk⟩ := Option.isSome_iff_exists.mp ht
  unfold Squ.create
  rw [hk]
  exact (congrArg Table.size (oweFor_spec _ _).1).trans (putKey_length hid _)

/-! ## What a step of PUBLISH on a record leaves -/

/-- R84: the records alone have changed of the BKE; the SQU holds the same templates, the hand-overs to the PPU and the CSC
have only grown. -/
structure PublishStep (b b' : Book) : Prop extends RecordsStep b b' where
  templates : b'.squ.templates = b.squ.templates
  news : ∃ l, b'.mail.bkeToPpu = b.mail.bkeToPpu ++ l
  told : ∀ x ∈ b.mail.bkeToCsc, x ∈ b'.mail.bkeToCsc

theorem PublishStep.refl (b : Book) : PublishStep b b :=
  ⟨.refl b, rfl, ⟨[], (List.append_nil _).symm⟩, fun _ hx => hx⟩

theorem PublishStep.trans {a b c : Book} (h : PublishStep a b) (k : PublishStep b c) : PublishStep a c where
  toRecordsStep := h.toRecordsStep.trans k.toRecordsStep
  templates := k.templates.trans h.templates
  news := by
    obtain ⟨l, hl⟩ := h.news
    obtain ⟨m, hm⟩ := k.news
    exact ⟨l ++ m, by rw [hm, hl, List.append_assoc]⟩
  told := fun x hx => k.told x (h.told x hx)

theorem putSlot_publish (b : Book) (n : Nat) (x : RecSlot) : PublishStep b (b.putSlot n x) :=
  ⟨putSlot_step b n x, rfl, ⟨[], (List.append_nil _).symm⟩, fun _ hx => hx⟩

theorem news_publish (b : Book) (k : ChangeKind) (r : Record) : PublishStep b (b.news k r) :=
  ⟨⟨rfl, rfl, rfl, id⟩, rfl, ⟨_, rfl⟩, fun _ hx => hx⟩

theorem inClaim_publish (b : Book) {f : Squ → Squ} (h : (f b.squTaken).templates = b.squ.templates) :
    PublishStep b (b.inClaim f) :=
  ⟨⟨rfl, rfl, rfl, id⟩, h, ⟨[], (List.append_nil _).symm⟩, fun _ hx => hx⟩

/-- R83, R84: the record is given a run when it becomes live: it is a meeting, and the SQU holds the template of its room (logs
63 and 68). -/
def Book.needsRun (b : Book) (r : Record) : Bool :=
  r.kind == .meeting && (b.room r.room).any fun rm => (b.squ.templateOf rm).isSome

theorem PublishStep.needsRun {b b' : Book} (h : PublishStep b b') : b'.needsRun = b.needsRun := by
  funext r
  unfold Book.needsRun Book.room Squ.templateOf
  rw [h.rooms, h.templates]

theorem needsRun_iff (b : Book) (r : Record) :
    b.needsRun r = true ↔ r.kind = .meeting ∧ ∃ rm, b.room r.room = some rm ∧ (b.squ.templateOf rm).isSome = true := by
  unfold Book.needsRun
  rw [Bool.and_eq_true, beq_iff_eq, Option.any_eq_true]

/-! ## A kept draft record becomes live (R84 step 3) -/

/-- R84: a draft record that has become live, with the run given. -/
def Record.madeLive (r : Record) (run : Option Nat) : Record := { r with edition := .live, run := run }

section

variable {b : Book} (hs : StoreSound b) (n : Nat) (r : Record)
include hs

theorem makeLive_bare (h : b.needsRun r = false) :
    b.makeLive n r = (b.putSlot n (.sound (r.madeLive r.run))).news .confirmed r := by
  have put : b.putRecord n { r with edition := .live } = b.putSlot n (.sound (r.madeLive r.run)) :=
    Book.putRecord_sound hs n _
  unfold Book.makeLive
  rw [put]
  dsimp only
  split
  · next hk =>
    rw [makeRun_none (r := r.madeLive r.run) (Book.putSlot_self ..) fun rm hrm => ?_]
    by_contra ht
    have needed := (needsRun_iff b r).mpr ⟨hk, rm, hrm, Bool.of_not_eq_false ht⟩
    rw [h] at needed
    cases needed
  · rfl

/-- R42, R155: the runs after one is made for the record `r`, behind the check-in reports handed before. -/
def Book.squWithRun (b : Book) (r : Record) (rm : Room) : Squ :=
  { b.squTaken.create b.squ.newRunId r.id r.room rm r.date r.start r.count none with lastRun := b.squ.newRunId }

theorem makeLive_run {rm : Room} (hk : r.kind = .meeting) (hrm : b.room r.room = some rm)
    (ht : (b.squ.templateOf rm).isSome = true) :
    b.makeLive n r =
      (((b.putSlot n (.sound (r.madeLive r.run))).inClaim fun _ => b.squWithRun r rm).putSlot n
        (.sound (r.madeLive (some b.squ.newRunId)))).news .confirmed r := by
  have put : b.putRecord n { r with edition := .live } = b.putSlot n (.sound (r.madeLive r.run)) :=
    Book.putRecord_sound hs n _
  unfold Book.makeLive
  rw [put]
  dsimp only
  rw [if_pos hk, makeRun_some (r := r.madeLive r.run) (Book.putSlot_self ..) hrm ht, Book.putRecord_sound (by exact hs)]
  rfl

/-- R84: what becomes of a draft record that is kept. -/
theorem makeLive_spec :
    PublishStep b (b.makeLive n r) ∧ (∀ m, m ≠ n → (b.makeLive n r).slot m = b.slot m) ∧
      (∃ run, (b.makeLive n r).slot n = some (.sound (r.madeLive run)) ∧ (b.needsRun r = true → run ≠ none) ∧
        (b.needsRun r = false → run = r.run)) ∧
      (b.squ.runs.size + (if b.needsRun r = true then 1 else 0) ≤ 511 →
        (b.makeLive n r).squ.runs.size = b.squ.runs.size + if b.needsRun r = true then 1 else 0) := by
  cases h : b.needsRun r with
  | false =>
    rw [makeLive_bare hs n r h]
    exact ⟨(putSlot_publish b n _).trans (news_publish _ _ _), fun m hm => Table.find_put_ne _ _ _ _ hm,
      ⟨r.run, Book.putSlot_self .., nofun, fun _ => rfl⟩, fun _ => rfl⟩
  | true =>
    obtain ⟨hk, rm, hrm, ht⟩ := (needsRun_iff b r).mp h
    have taken := squTaken_same b
    have held : (b.squTaken.templateOf rm).isSome = true := by rwa [taken.templateOf]
    have templates : (b.squWithRun r rm).templates = b.squ.templates := (create_templates _ _ ..).trans taken.templates
    rw [makeLive_run hs n r hk hrm ht]
    refine ⟨(((putSlot_publish b n _).trans (inClaim_publish _ templates)).trans (putSlot_publish _ n _)).trans
      (news_publish _ _ _), fun m hm => ?_, ⟨some b.squ.newRunId, Book.putSlot_self .., nofun, nofun⟩, fun free => ?_⟩
    · exact (Table.find_put_ne _ _ _ _ hm).trans (Table.find_put_ne _ _ _ _ hm)
    · have unused : b.squ.newRunId ∉ b.squTaken.runs.keys := by
        rw [taken.keys]
        exact newRunId_free free
      exact (create_size held unused r.id r.room r.date r.start r.count none).trans (congrArg (· + 1) taken.size)

end

/-- R84: what becomes of the draft records of a list that are kept, where there are entries for their runs. -/
theorem makeLives_spec {b : Book} (hs : StoreSound b) (l : List (Nat × Record)) (hl : (l.map (·.1)).Nodup) :
    let b' := l.foldl (fun b p => b.makeLive p.1 p.2) b
    PublishStep b b' ∧ (∀ m, m ∉ l.map (·.1) → b'.slot m = b.slot m) ∧
      (∀ p ∈ l, ∃ run, b'.slot p.1 = some (.sound (p.2.madeLive run)) ∧ (b.needsRun p.2 = true → run ≠ none) ∧
        (b.needsRun p.2 = false → run = p.2.run)) ∧
      (b.squ.runs.size + l.countP (fun p => b.needsRun p.2) ≤ 511 →
        b'.squ.runs.size = b.squ.runs.size + l.countP fun p => b.needsRun p.2) := by
  induction l generalizing b with
  | nil => exact ⟨.refl b, fun _ _ => rfl, fun p hp => absurd hp List.not_mem_nil, fun _ => rfl⟩
  | cons p l ih =>
    obtain ⟨hp, hl⟩ := List.nodup_cons.mp hl
    obtain ⟨step, others, made, size⟩ := makeLive_spec hs p.1 p.2
    obtain ⟨steps, rest, lives, sizes⟩ := ih (b := b.makeLive p.1 p.2) (step.sound hs) hl
    rw [step.needsRun] at lives sizes
    refine ⟨step.trans steps, fun m hm => ?_, fun q hq => ?_, fun room => ?_⟩
    · obtain ⟨hne, hm⟩ := not_or.mp fun h => hm (List.mem_cons.mpr h)
      exact (rest m hm).trans (others m hne)
    · rcases List.mem_cons.mp hq with rfl | hq
      · obtain ⟨run, hrun, needed, bare⟩ := made
        exact ⟨run, (rest _ hp).trans hrun, needed, bare⟩
      · exact lives q hq
    · rw [List.countP_cons] at room ⊢
      generalize (if b.needsRun p.2 = true then 1 else 0) = one at size room ⊢
      have first := size (by omega)
      rw [List.foldl_cons, sizes (by omega), first]
      omega

/-! ## A marked record becomes CANCELLED (R84 step 4) -/

/-- R84: the record after its mark is applied. -/
def Record.markApplied (r : Record) : Record :=
  { r with state := .cancelled, bufState := r.bufState.freed, run := none, cancelMark := false }

theorem dropFound_templates (q : Squ) (x : Option Run) : (q.dropFound x).templates = q.templates := by
  cases x <;> rfl

/-- R84: what becomes of a marked record. -/
theorem applyMark_spec {b : Book} (hs : StoreSound b) (n : Nat) (r : Record) :
    PublishStep b (b.applyMark n r) ∧ (∀ m, m ≠ n → (b.applyMark n r).slot m = b.slot m) ∧
      (b.applyMark n r).slot n = some (.sound r.markApplied) ∧
      { booking := r.id, change := .cancelled } ∈ (b.applyMark n r).mail.bkeToCsc := by
  have applied : b.applyMark n r =
      (((b.inClaim fun q => q.abort r).putSlot n (.sound r.markApplied)).news .cancelled r.markApplied).tellCsc r.id
        .cancelled := by
    have put : (b.inClaim fun q => q.abort r).putRecord n r.markApplied =
        (b.inClaim fun q => q.abort r).putSlot n (.sound r.markApplied) := Book.putRecord_sound (by exact hs) _ _
    rw [← put]
    rfl
  have aborted : (b.squTaken.abort r).templates = b.squ.templates :=
    (dropFound_templates _ _).trans (squTaken_same b).templates
  have told (c : Book) : PublishStep c (c.tellCsc r.id .cancelled) :=
    ⟨⟨rfl, rfl, rfl, id⟩, rfl, ⟨[], (List.append_nil _).symm⟩, fun _ hx => List.mem_append_left _ hx⟩
  rw [applied]
  exact ⟨(((inClaim_publish b aborted).trans (putSlot_publish _ n _)).trans (news_publish _ _ _)).trans (told _),
    fun m hm => Table.find_put_ne _ _ _ _ hm, Book.putSlot_self .., List.mem_append_right _ List.mem_cons_self⟩

/-- R84: what becomes of the marked records of a list. -/
theorem applyMarks_spec {b : Book} (hs : StoreSound b) (l : List (Nat × Record)) (hl : (l.map (·.1)).Nodup) :
    let b' := l.foldl (fun b p => b.applyMark p.1 p.2) b
    PublishStep b b' ∧ (∀ m, m ∉ l.map (·.1) → b'.slot m = b.slot m) ∧
      ∀ p ∈ l, b'.slot p.1 = some (.sound p.2.markApplied) ∧
        { booking := p.2.id, change := .cancelled } ∈ b'.mail.bkeToCsc := by
  induction l generalizing b with
  | nil => exact ⟨.refl b, fun _ _ => rfl, fun p hp => absurd hp List.not_mem_nil⟩
  | cons p l ih =>
    obtain ⟨hp, hl⟩ := List.nodup_cons.mp hl
    obtain ⟨step, others, applied, told⟩ := applyMark_spec hs p.1 p.2
    obtain ⟨steps, rest, marks⟩ := ih (b := b.applyMark p.1 p.2) (step.sound hs) hl
    refine ⟨step.trans steps, fun m hm => ?_, fun q hq => ?_⟩
    · obtain ⟨hne, hm⟩ := not_or.mp fun h => hm (List.mem_cons.mpr h)
      exact (rest m hm).trans (others m hne)
    · rcases List.mem_cons.mp hq with rfl | hq
      · exact ⟨(rest _ hp).trans applied, steps.told _ told⟩
      · exact marks q hq

end Sys2Proof.Machine


/-! SUPPORT. PUBLISH applied over a store without errors (R83, R84): what becomes of each record and of each row. -/

namespace Sys2Proof.Machine

/-! ## The records by their slots -/

section

variable {b : Book} (hw : b.bke.records.wf = true)
include hw

theorem sound_slots : (b.sound.map (·.1)).Nodup := by
  rw [List.nodup_iff_pairwise_ne, List.pairwise_map]
  exact (sound_rising hw).imp Nat.ne_of_lt

/-- Records sorted from the table stand in slots of their own. -/
theorem sorted_slots (rank : Nat × Record → Nat) (p : Nat × Record → Bool) :
    ((sortBy rank (b.sound.filter p)).map (·.1)).Nodup :=
  ((sortBy_perm _ _).map _).nodup_iff.mpr ((List.filter_sublist.map _).nodup (sound_slots hw))

theorem mem_draftRecords (n : Nat) (r : Record) :
    (n, r) ∈ b.draftRecords ↔ b.slot n = some (.sound r) ∧ r.edition = .draft := by
  unfold Book.draftRecords
  rw [mem_sortBy, List.mem_filter, mem_sound hw, beq_iff_eq]

theorem mem_lapsedRecords (t : Ctu) (n : Nat) (r : Record) :
    (n, r) ∈ b.lapsedRecords t ↔ b.slot n = some (.sound r) ∧ r.edition = .draft ∧ b.lapsedDraft t r = true := by
  unfold Book.lapsedRecords
  rw [List.mem_filter, mem_draftRecords hw, and_assoc]

theorem mem_markedRecords (n : Nat) (r : Record) :
    (n, r) ∈ b.markedRecords ↔ b.slot n = some (.sound r) ∧ r.id ∈ b.bke.draft.marked := by
  unfold Book.markedRecords
  rw [mem_sortBy, List.mem_filter, mem_sound hw, isMarked_eq]

end

/-- Which slots a list of records names, where it holds the records of the table that pass. -/
theorem mem_slots {b : Book} {l : List (Nat × Record)} {P : Record → Prop}
    (hl : ∀ n r, (n, r) ∈ l ↔ b.slot n = some (.sound r) ∧ P r) (n : Nat) :
    n ∈ l.map (·.1) ↔ ∃ r, b.slot n = some (.sound r) ∧ P r := by
  rw [List.mem_map]
  constructor
  · rintro ⟨⟨m, r⟩, hm, rfl⟩
    exact ⟨r, (hl m r).mp hm⟩
  · rintro ⟨r, hr⟩
    exact ⟨(n, r), (hl n r).mpr hr, rfl⟩

/-! ## Steps 1 and 2 -/

/-- R82: what PUBLISH finds where it is applied. -/
structure PublishReady (t : Ctu) (b : Book) : Prop where
  sound : StoreSound b
  horizon : b.bke.horizon ≠ none
  whole : b.bke.draft.damaged = false
  filled : b.bke.draft.isEmpty = false
  records : b.bke.records.wf = true
  drafts : b.bke.draft.rows.wf = true
  keyed : RowsKeyed b
  standing : ∀ z ∈ b.draftDays, ∀ y, b.row z.room z.date = some y → y.state ≠ .rebuilding
  fresh : b.draftDays.filterMap b.staleDay = []
  runs : b.runCount t + b.squ.runs.size ≤ 511

/-- R84 steps 1 and 2: `c` is `b` without its lapsed draft records and with its draft rows written into the live rows. -/
structure DraftRowsOut (t : Ctu) (b c : Book) : Prop where
  hmp : c.hmp = b.hmp
  mail : c.mail = b.mail
  squ : c.squ = b.squ
  bss : c.bss = b.bss
  rooms : c.bke.rooms = b.bke.rooms
  horizon : c.bke.horizon = b.bke.horizon
  marked : c.bke.draft.marked = b.bke.draft.marked
  records : c.bke.records = b.bke.records.dropAll ((b.lapsedRecords t).map (·.1))

/-- R84 step 1: the draft rows without the cells of the lapsed draft records. -/
def DraftRow.unlapsed (t : Ctu) (b : Book) (z : DraftRow) : DraftRow :=
  z.freedBy (freedByAll b.bke.rooms (b.lapsedRecords t))

theorem lapsedCovers_iff (s : State) (z : DraftRow) (k : Nat) :
    LapsedCovers s z k ↔
      (freedByAll s.book.bke.rooms (s.book.lapsedRecords s.ctu) (rowKey z.room z.date)).any (·.has k) = true := by
  unfold LapsedCovers freedByAll Record.freedAt Book.lapsedRecords
  simp only [List.any_eq_true, List.mem_flatMap, List.mem_filter]
  constructor
  · rintro ⟨p, hp, hlapsed, y, hy, hkey, q, hq, hk⟩
    exact ⟨q, ⟨p, ⟨hp, hlapsed⟩, y, hy, by rwa [if_pos hkey.symm]⟩, hk⟩
  · rintro ⟨q, ⟨p, ⟨hp, hlapsed⟩, y, hy, hq⟩, hk⟩
    split at hq
    · next hkey => exact ⟨p, hp, hlapsed, y, hy, hkey.symm, q, hq, hk⟩
    · cases hq

section

variable {t : Ctu} {b : Book} (h : PublishReady t b)
include h

theorem PublishReady.dropped :
    DraftClaim b (b.withoutLapsed t) ∧
      (b.withoutLapsed t).bke.records = b.bke.records.dropAll ((b.lapsedRecords t).map (·.1)) ∧
      (b.withoutLapsed t).draftDays = b.draftDays.map (DraftRow.unlapsed t b) ∧
      (b.withoutLapsed t).bke.draft.marked = b.bke.draft.marked := by
  obtain ⟨claim, records, rows, marked⟩ :=
    removeDrafts_spec ⟨h.sound, h.drafts, h.keyed.2⟩ (b.lapsedRecords t)
  exact ⟨claim, records, draftDays_freed h.drafts h.keyed.2 rows ((congrArg Bke.horizon claim.bke).trans rfl), marked⟩

/-- R84: what the first two steps leave, and what they make of the live rows. -/
theorem PublishReady.written :
    DraftRowsOut t b (b.withoutLapsed t).rowsReplaced ∧
      (∀ x d z, b.draftRow x d = some z →
        (b.withoutLapsed t).rowsReplaced.row x d = (b.row x d).map (Row.replacedBy (z.unlapsed t b))) ∧
      ∀ x d, b.draftRow x d = none → (b.withoutLapsed t).rowsReplaced.row x d = b.row x d := by
  obtain ⟨claim, records, days, marked⟩ := h.dropped
  have atKeys : RowsAtKeys (b.withoutLapsed t) := by
    unfold RowsAtKeys
    rw [claim.rows]
    exact h.keyed.1
  have replaced : (b.withoutLapsed t).rowsReplaced =
      (b.withoutLapsed t).withRows ((b.withoutLapsed t).draftDays.foldl replacedTable (b.withoutLapsed t).bke.rows) :=
    replaceRows_sound (claim.sound h.sound) atKeys _
  have key (z : DraftRow) : rowKey (z.unlapsed t b).room (z.unlapsed t b).date = rowKey z.room z.date := by
    unfold DraftRow.unlapsed
    rw [(freedBy_place _ z).1, (freedBy_place _ z).2]
  have keys : ((b.draftDays.map (DraftRow.unlapsed t b)).map fun z => rowKey z.room z.date) =
      b.draftDays.map fun z => rowKey z.room z.date := by
    rw [List.map_map]
    exact List.map_congr_left fun z _ => key z
  obtain ⟨changed, others⟩ := replacedTables_find (b.draftDays.map (DraftRow.unlapsed t b))
    (by rw [keys]; exact draftDays_keys h.drafts h.keyed.2) b.bke.rows
  rw [days, claim.rows] at replaced
  rw [replaced]
  refine ⟨⟨claim.hmp, claim.mail, claim.squ, claim.bss, claim.rooms, ?_, marked, records⟩, fun x d z hz => ?_,
    fun x d hz => others _ ?_⟩
  · show (b.withoutLapsed t).bke.horizon = _
    rw [claim.bke]
  · have hkey := h.keyed.2 _ z hz
    have stands : b.draftRow z.room z.date = some z := by
      unfold Book.draftRow at hz ⊢
      rw [← hkey, hz]
    have listed : z.unlapsed t b ∈ b.draftDays.map (DraftRow.unlapsed t b) :=
      List.mem_map.mpr ⟨z, (mem_draftDays_iff h.drafts h.keyed.2 z).mpr stands, rfl⟩
    have found := changed _ listed
    rw [key, ← hkey] at found
    exact found
  · rw [keys, List.mem_map]
    rintro ⟨z, hmem, hkey⟩
    have found := (mem_draftDays_iff h.drafts h.keyed.2 z).mp hmem
    have : b.draftRow x d = some z := by
      unfold Book.draftRow at found ⊢
      rw [← hkey]
      exact found
    cases hz.symm.trans this

/-! ## The records after steps 1 and 2 -/

/-- R83: the record is a draft record that is lapsed. -/
def DraftLapsed (t : Ctu) (b : Book) (r : Record) : Prop := r.edition = .draft ∧ b.lapsedDraft t r = true

variable {c : Book} (hc : DraftRowsOut t b c)
include hc

omit h in
theorem DraftRowsOut.sound (hs : StoreSound b) : StoreSound c := by unfold StoreSound; rw [hc.bss]; exact hs

theorem DraftRowsOut.wf : c.bke.records.wf = true := by
  rw [hc.records]
  exact Table.wf_dropAll h.records _

theorem DraftRowsOut.slot_lapsed {n : Nat} {r : Record} (hr : b.slot n = some (.sound r)) (hl : DraftLapsed t b r) :
    c.slot n = none := by
  unfold Book.slot
  rw [hc.records, Table.find_dropAll, if_pos ((mem_slots (mem_lapsedRecords h.records t) n).mpr ⟨r, hr, hl⟩)]

theorem DraftRowsOut.slot_kept {n : Nat} (hn : ∀ r, b.slot n = some (.sound r) → ¬DraftLapsed t b r) :
    c.slot n = b.slot n := by
  unfold Book.slot
  rw [hc.records, Table.find_dropAll, if_neg fun hmem => ?_]
  obtain ⟨r, hr, hl⟩ := (mem_slots (mem_lapsedRecords h.records t) n).mp hmem
  exact hn r hr hl

theorem DraftRowsOut.slot_iff (n : Nat) (r : Record) :
    c.slot n = some (.sound r) ↔ b.slot n = some (.sound r) ∧ ¬DraftLapsed t b r := by
  by_cases gone : ∃ r, b.slot n = some (.sound r) ∧ DraftLapsed t b r
  · obtain ⟨q, hq, hl⟩ := gone
    rw [hc.slot_lapsed h hq hl]
    refine ⟨nofun, fun ⟨hr, hn⟩ => ?_⟩
    cases hq.symm.trans hr
    exact absurd hl hn
  · have kept (r : Record) (hr : b.slot n = some (.sound r)) : ¬DraftLapsed t b r := fun hl => gone ⟨r, hr, hl⟩
    rw [hc.slot_kept h kept]
    exact ⟨fun hr => ⟨hr, kept r hr⟩, And.left⟩

/-- R83: the kept draft records. -/
theorem DraftRowsOut.kept_perm : c.draftRecords.Perm (b.draftRecords.filter fun p => !b.lapsedDraft t p.2) := by
  have distinct {b : Book} (hw : b.bke.records.wf = true) : b.draftRecords.Nodup :=
    List.Nodup.of_map _ (sorted_slots hw _ _)
  refine (List.perm_ext_iff_of_nodup (distinct (hc.wf h)) ((distinct h.records).filter _)).mpr ?_
  rintro ⟨n, r⟩
  rw [mem_draftRecords (hc.wf h), hc.slot_iff h, List.mem_filter, mem_draftRecords h.records, Bool.not_eq_true',
    ← Bool.not_eq_true]
  unfold DraftLapsed
  tauto

omit h in
theorem DraftRowsOut.needsRun : c.needsRun = b.needsRun := by
  funext r
  unfold Book.needsRun Book.room
  rw [hc.rooms, hc.squ]

/-- R83: there are entries for the runs of the kept draft meetings. -/
theorem DraftRowsOut.runs : c.squ.runs.size + c.draftRecords.countP (fun p => c.needsRun p.2) ≤ 511 := by
  have counted : c.draftRecords.countP (fun p => c.needsRun p.2) ≤ b.runCount t := by
    rw [(hc.kept_perm h).countP_eq, hc.needsRun, List.countP_filter, runCount_eq]
    unfold Book.draftRecords
    rw [(sortBy_perm _ _).countP_eq, List.countP_filter]
    refine List.countP_mono_left fun p _ hp => ?_
    simp only [Bool.and_eq_true] at hp ⊢
    obtain ⟨⟨needed, kept⟩, draft⟩ := hp
    obtain ⟨meeting, rm, hrm, ht⟩ := (needsRun_iff b p.2).mp needed
    refine ⟨⟨⟨draft, kept⟩, beq_iff_eq.mpr meeting⟩, ?_⟩
    rw [hrm]
    obtain ⟨x, hx⟩ := Option.isSome_iff_exists.mp ht
    obtain ⟨k, hk, -⟩ := Option.bind_eq_some_iff.mp hx
    exact Option.isSome_of_eq_some hk
  have room := h.runs
  rw [hc.squ]
  omega

end

end Sys2Proof.Machine


/-! SUPPORT. PUBLISH applied over a store without errors (R84): the draft records made live, the marked ones cancelled, and the
book and the answer that PUBLISH ends with. -/

namespace Sys2Proof.Machine

/-! ## Steps 3 and 4 -/

/-- R84 steps 1 to 3: what stands in the slots of `c` where `b` is published. -/
structure DraftsMadeLive (t : Ctu) (b c : Book) : Prop where
  lapsed : ∀ n r, b.slot n = some (.sound r) → DraftLapsed t b r → c.slot n = none
  kept : ∀ n r, b.slot n = some (.sound r) → r.edition = .draft → ¬DraftLapsed t b r →
    ∃ run, c.slot n = some (.sound (r.madeLive run)) ∧ (b.needsRun r = true → run ≠ none) ∧
      (b.needsRun r = false → run = r.run)
  live : ∀ n r, b.slot n = some (.sound r) → r.edition = .live → c.slot n = some (.sound r)
  only : ∀ n q, c.slot n = some (.sound q) →
    q.edition = .live ∧ ∃ r, b.slot n = some (.sound r) ∧ ¬DraftLapsed t b r ∧ q.id = r.id

section

variable {t : Ctu} {b : Book} (h : PublishReady t b) {c : Book} (hc : DraftRowsOut t b c)
include h hc

/-- R84: what the third step makes of the records. -/
theorem DraftRowsOut.draftsLive :
    PublishStep c c.draftsLive ∧ DraftsMadeLive t b c.draftsLive ∧
      c.draftsLive.squ.runs.size = c.squ.runs.size + c.draftRecords.countP fun p => c.needsRun p.2 := by
  have hw := hc.wf h
  obtain ⟨step, others, made, size⟩ := makeLives_spec (hc.sound h.sound) c.draftRecords (sorted_slots hw _ _)
  have notDraft (n : Nat) (hn : ∀ r, c.slot n = some (.sound r) → r.edition ≠ .draft) :
      c.draftsLive.slot n = c.slot n := by
    refine others n fun hmem => ?_
    obtain ⟨r, hr, hd⟩ := (mem_slots (mem_draftRecords hw) n).mp hmem
    exact hn r hr hd
  refine ⟨step, ⟨fun n r hr hl => ?_, fun n r hr hd hl => ?_, fun n r hr he => ?_, fun n q hq => ?_⟩,
    size (hc.runs h)⟩
  · have gone := hc.slot_lapsed h hr hl
    rw [notDraft n fun q hq => (by rw [gone] at hq; cases hq), gone]
  · obtain ⟨run, hrun, needed, bare⟩ :=
      made (n, r) ((mem_draftRecords hw n r).mpr ⟨(hc.slot_iff h n r).mpr ⟨hr, hl⟩, hd⟩)
    rw [hc.needsRun] at needed bare
    exact ⟨run, hrun, needed, bare⟩
  · have stands := (hc.slot_iff h n r).mpr ⟨hr, fun hl => by cases he.symm.trans hl.1⟩
    rw [notDraft n fun q hq => ?_, stands]
    cases stands.symm.trans hq
    rw [he]
    exact nofun
  · by_cases draft : ∃ r, c.slot n = some (.sound r) ∧ r.edition = .draft
    · obtain ⟨r, hr, hd⟩ := draft
      obtain ⟨run, hrun, -⟩ := made (n, r) ((mem_draftRecords hw n r).mpr ⟨hr, hd⟩)
      cases hrun.symm.trans hq
      exact ⟨rfl, r, ((hc.slot_iff h n r).mp hr).1, ((hc.slot_iff h n r).mp hr).2, rfl⟩
    · rw [notDraft n fun r hr hd => draft ⟨r, hr, hd⟩] at hq
      refine ⟨?_, q, ((hc.slot_iff h n q).mp hq).1, ((hc.slot_iff h n q).mp hq).2, rfl⟩
      cases he : q.edition with
      | live => rfl
      | draft => exact absurd ⟨q, hq, he⟩ draft

end

/-- R84: what stands in the slots of `c`, and what the CSC is told, where `b` has been published. -/
structure RecordsPublished (t : Ctu) (b c : Book) : Prop where
  lapsed : ∀ n r, b.slot n = some (.sound r) → DraftLapsed t b r → c.slot n = none
  kept : ∀ n r, b.slot n = some (.sound r) → r.edition = .draft → ¬DraftLapsed t b r → r.id ∉ b.bke.draft.marked →
    ∃ run, c.slot n = some (.sound (r.madeLive run)) ∧ (b.needsRun r = true → run ≠ none) ∧
      (b.needsRun r = false → run = r.run)
  marked : ∀ n r, b.slot n = some (.sound r) → r.edition = .live → r.id ∈ b.bke.draft.marked →
    c.slot n = some (.sound r.markApplied) ∧ { booking := r.id, change := .cancelled } ∈ c.mail.bkeToCsc
  stays : ∀ n r, b.slot n = some (.sound r) → r.edition = .live → r.id ∉ b.bke.draft.marked →
    c.slot n = some (.sound r)
  live : ∀ n r, c.slot n = some (.sound r) → r.edition = .live

section

variable {t : Ctu} {b c : Book} (hl : DraftsMadeLive t b c) (hs : StoreSound c) (hw : c.bke.records.wf = true)
  (hm : c.bke.draft.marked = b.bke.draft.marked)
include hl hs hw hm

/-- R84: what the fourth step makes of the records. -/
theorem DraftsMadeLive.published : PublishStep c c.marksApplied ∧ RecordsPublished t b c.marksApplied := by
  obtain ⟨step, others, applied⟩ := applyMarks_spec hs c.markedRecords (sorted_slots hw _ _)
  have unmarked (n : Nat) (hn : ∀ r, c.slot n = some (.sound r) → r.id ∉ b.bke.draft.marked) :
      c.marksApplied.slot n = c.slot n := by
    refine others n fun hmem => ?_
    obtain ⟨r, hr, hd⟩ := (mem_slots (mem_markedRecords hw) n).mp hmem
    exact hn r hr (hm ▸ hd)
  refine ⟨step, fun n r hr hlapsed => ?_, fun n r hr hd hlapsed hn => ?_, fun n r hr he hmarked => ?_,
    fun n r hr he hn => ?_, fun n q hq => ?_⟩
  · have gone := hl.lapsed n r hr hlapsed
    rw [unmarked n fun q hq => (by rw [gone] at hq; cases hq), gone]
  · obtain ⟨run, hrun, needed⟩ := hl.kept n r hr hd hlapsed
    refine ⟨run, ?_, needed⟩
    rw [unmarked n fun q hq => ?_, hrun]
    cases hrun.symm.trans hq
    exact hn
  · exact applied (n, r) ((mem_markedRecords hw n r).mpr ⟨hl.live n r hr he, hm ▸ hmarked⟩)
  · have stands := hl.live n r hr he
    rw [unmarked n fun q hq => ?_, stands]
    cases stands.symm.trans hq
    exact hn
  · by_cases marked : ∃ r, c.slot n = some (.sound r) ∧ r.id ∈ b.bke.draft.marked
    · obtain ⟨r, hr, hmarked⟩ := marked
      obtain ⟨cancelled, -⟩ := applied (n, r) ((mem_markedRecords hw n r).mpr ⟨hr, hm ▸ hmarked⟩)
      cases cancelled.symm.trans hq
      exact (hl.only n r hr).1
    · rw [unmarked n fun r hr hmarked => marked ⟨r, hr, hmarked⟩] at hq
      exact (hl.only n q hq).1

omit hs in
/-- R84: how many records are cancelled: those on the marked list but for the lapsed draft records. -/
theorem DraftsMadeLive.marked_length (hb : b.bke.records.wf = true) :
    c.markedRecords.length =
      b.sound.countP fun p => b.isMarked p.2.id && !(p.2.edition == .draft && b.lapsedDraft t p.2) := by
  have slots : (c.markedRecords.map (·.1)).Perm
      ((b.sound.filter fun p => b.isMarked p.2.id && !(p.2.edition == .draft && b.lapsedDraft t p.2)).map (·.1)) := by
    have distinct : (c.markedRecords.map (·.1)).Nodup := sorted_slots hw _ _
    refine (List.perm_ext_iff_of_nodup distinct ((List.filter_sublist.map _).nodup (sound_slots hb))).mpr fun n => ?_
    rw [mem_slots (mem_markedRecords hw), mem_slots (b := b)
      (P := fun r => r.id ∈ b.bke.draft.marked ∧ ¬DraftLapsed t b r) fun n r => ?_, hm]
    · constructor
      · rintro ⟨q, hq, hmarked⟩
        obtain ⟨-, r, hr, hn, hid⟩ := hl.only n q hq
        exact ⟨r, hr, hid ▸ hmarked, hn⟩
      · rintro ⟨r, hr, hmarked, hn⟩
        cases he : r.edition with
        | live => exact ⟨r, hl.live n r hr he, hmarked⟩
        | draft =>
          obtain ⟨run, hrun, -⟩ := hl.kept n r hr he hn
          exact ⟨_, hrun, hmarked⟩
    · rw [List.mem_filter, mem_sound hb]
      simp [isMarked_eq, DraftLapsed, imp_iff_not_or]
  rw [List.countP_eq_length_filter]
  simpa using slots.length_eq

end

/-! ## The book that PUBLISH ends with -/

/-- R84: what stands in `c` where `b` has been published. -/
structure Published (t : Ctu) (b c : Book) : Prop where
  draft : c.bke.draft = Draft.empty
  records : RecordsPublished t b c
  written : ∀ x d z, b.draftRow x d = some z → c.row x d = (b.row x d).map (Row.replacedBy (z.unlapsed t b))
  others : ∀ x d, b.draftRow x d = none → c.row x d = b.row x d
  told : ∃ l, c.mail.bkeToPpu =
    b.mail.bkeToPpu ++ l ++ [.published ((b.draftDays.filter fun z => b.isToday z.date).map (·.room))]

theorem RecordsPublished.congr {t : Ctu} {b c c' : Book} (h : RecordsPublished t b c)
    (hr : c'.bke.records = c.bke.records) (hm : c'.mail.bkeToCsc = c.mail.bkeToCsc) : RecordsPublished t b c' := by
  have slot (n : Nat) : c'.slot n = c.slot n := by
    unfold Book.slot
    rw [hr]
  constructor
  · simpa only [slot] using h.lapsed
  · simpa only [slot] using h.kept
  · simpa only [slot, hm] using h.marked
  · simpa only [slot] using h.stays
  · simpa only [slot] using h.live

theorem Published.congr {t : Ctu} {b c c' : Book} (h : Published t b c) (hb : c'.bke = c.bke) (hm : c'.mail = c.mail) :
    Published t b c' := by
  have row (x : Nat) (d : Date) : c'.row x d = c.row x d := by
    unfold Book.row
    rw [hb]
  constructor
  · rw [hb, h.draft]
  · exact h.records.congr (congrArg Bke.records hb) (congrArg Mail.bkeToCsc hm)
  · simpa only [row] using h.written
  · simpa only [row] using h.others
  · rw [hm]
    exact h.told

/-- R83, R84: the answer of a PUBLISH that is applied: its draft rows, the kept draft records, those of them that need a run,
the marked records, and the lapsed ones with their first ids. -/
def Book.publishedAnswer (b : Book) (t : Ctu) : Answer :=
  let kept := b.draftRecords.filter fun p => !b.lapsedDraft t p.2
  Answer.ok
    (.published b.bke.draft.rows.size kept.length (kept.countP fun p => b.needsRun p.2)
      (b.sound.countP fun p => b.isMarked p.2.id && !(p.2.edition == .draft && b.lapsedDraft t p.2))
      (b.lapsedRecords t).length (((b.lapsedRecords t).map (·.2.id)).take 8))

/-- R83, R84: PUBLISH applied, with its counts. -/
theorem PublishReady.applied {t : Ctu} {b : Book} (h : PublishReady t b) :
    (b.applyDraft t).1.hmp = b.hmp ∧ Published t b (b.applyDraft t).1 ∧ (b.applyDraft t).2 = b.publishedAnswer t := by
  obtain ⟨-, -, days, -⟩ := h.dropped
  obtain ⟨out, written, others⟩ := h.written
  rw [applyDraft_eq]
  unfold Book.publishedAnswer
  dsimp only
  generalize (b.withoutLapsed t).rowsReplaced = c at out written others
  obtain ⟨made, lives, size⟩ := out.draftsLive h
  have hs := made.sound (out.sound h.sound)
  have hw := made.wf (out.wf h)
  have hm : c.draftsLive.bke.draft.marked = b.bke.draft.marked := (congrArg Draft.marked made.draft).trans out.marked
  obtain ⟨marks, records⟩ := lives.published hs hw hm
  have marked := lives.marked_length hw hm h.records
  have steps := made.trans marks
  rw [emptyDraft_sound (marks.sound hs), days, marked, size, (out.kept_perm h).length_eq, (out.kept_perm h).countP_eq,
    out.needsRun]
  generalize c.draftsLive.marksApplied = e at records steps
  have today : (((b.draftDays.map (DraftRow.unlapsed t b)).filter fun z => e.isToday z.date).map (·.room)) =
      (b.draftDays.filter fun z => b.isToday z.date).map (·.room) := by
    rw [List.filter_map, List.map_map]
    have date (z : DraftRow) : (z.unlapsed t b).date = z.date := (freedBy_place _ z).2
    have room (z : DraftRow) : (z.unlapsed t b).room = z.room := (freedBy_place _ z).1
    have same (d : Date) : e.isToday d = b.isToday d := by
      unfold Book.isToday
      rw [steps.horizon, out.horizon]
    simp only [Function.comp_def, date, room, same]
  refine ⟨steps.hmp.trans out.hmp, ⟨rfl, records.congr rfl rfl, fun x d z hz => ?_, fun x d hz => ?_, ?_⟩, ?_⟩
  · exact (congrArg (fun r : Table Row => r.find (rowKey x d)) steps.rows).trans (written x d z hz)
  · exact (congrArg (fun r : Table Row => r.find (rowKey x d)) steps.rows).trans (others x d hz)
  · obtain ⟨l, hl⟩ := steps.news
    refine ⟨l, ?_⟩
    show e.mail.bkeToPpu ++ [_] = _
    rw [hl, out.mail, today]
  · rw [Nat.add_sub_cancel_left, List.length_map]
    unfold Book.draftDays
    rw [sortBy_length]
    simp [Table.values, Table.size]

end Sys2Proof.Machine


/-! PROOFS. The draft edition (R77, R81 to R85): BOOK, PUBLISH and DISCARD. -/

namespace Sys2Proof.Machine

/-- R185: the reply joins the queue behind the notices of the claim that it answers. -/
theorem State.afterAnswer_repliedAfter (s : State) {rest : List Handed} (c : Ctx) {op : Book → Book × Answer} {a : Answer}
    (ha : (op (s.book.withRequests rest)).2 = a)
    (ho : ∃ l, (op (s.book.withRequests rest)).1.hmp.out = s.book.hmp.out ++ l ∧ ∀ f ∈ l, f.isNotice = true) :
    RepliedAfter s (s.afterAnswer rest c op) c a := by
  obtain ⟨l, hl, notices⟩ := ho
  obtain ⟨more, hmore, last⟩ := ((op (s.book.withRequests rest)).1.reply_after c a).out
  refine ⟨l, more, ?_, notices, last⟩
  show ((op (s.book.withRequests rest)).1.reply c (op (s.book.withRequests rest)).2).hmp.out = _
  rw [ha, hmore, ← hl]
  simp [Hmp.postReply]

/-- The blocks that a reply leaves as the claim made them. -/
theorem State.afterAnswer_blocks (s : State) (rest : List Handed) (c : Ctx) (op : Book → Book × Answer) :
    (s.afterAnswer rest c op).book.bke = (op (s.book.withRequests rest)).1.bke ∧
      (s.afterAnswer rest c op).book.mail = (op (s.book.withRequests rest)).1.mail ∧
      (s.afterAnswer rest c op).book.squ = (op (s.book.withRequests rest)).1.squ ∧
      (s.afterAnswer rest c op).book.csc = (op (s.book.withRequests rest)).1.csc :=
  ⟨Book.reply_bke .., Book.reply_mail .., Book.reply_squ .., Book.reply_csc ..⟩

section

variable {s : State} {c : Ctx} {rest : List Handed}

/-- R77: BOOK in the write edition DRAFT, over open rows without draft rows. -/
theorem bookDraft_claimed {f : BookFields} {rm : Room} (hq : Asks s c (.book f) rest)
    (hdraft : s.book.bke.writeEdition = .draft) (hs : StoreSound s.book) (hf : FieldsOk f)
    (hd : s.book.bke.draft.damaged = false) (hspan : SpanPasses s.ctu s.book f.date f.start f.count)
    (hroom : RoomTakes s.book f.room f.attendees rm) (hfull : s.book.tableFull = false)
    (hlist : s.book.bke.draft.records.length < 512)
    (hplaces : s.book.bke.draft.rows.size + (rowFamily s.book.bke.rooms f.room).length ≤ 256)
    (hopen : RowsOpen s.book f.room f.date f.start
      (f.count + clipBuffer (f.start + f.count) (s.book.squ.bufferOf rm)))
    (hnone : ∀ x ∈ rowFamily s.book.bke.rooms f.room, s.book.draftRow x f.date = none) :
    let buf := clipBuffer (f.start + f.count) (s.book.squ.bufferOf rm)
    let r := bookRecord f s.book.newId buf .draft .host .confirmed
    ∃ t, Runs .book s t ∧ DraftOnly s t rest ∧ t.book.slot s.book.newSlot = some (.sound r) ∧
      t.book.bke.draft.records = s.book.bke.draft.records ++ [r.id] ∧
      Replied s t c (Answer.ok (.booked (s.book.placed r) .confirmed none)) ∧
      DraftWritten s t f.room f.date fun x k => spanWritten f.room f.start f.count buf .booked x k := by
  intro buf r
  obtain ⟨b', hbook, claim, hslot, hrecords, hwritten⟩ := bookDraft_makes (t := s.ctu) (b := s.book.withRequests rest) hs hf
    hspan hroom hfull hlist ((hopen.draftReady hnone hd hplaces).taken _) (hopen.draft_passes hnone)
  have run := hq.runs_claim (i := .book) rfl rfl
    ((bookRequest_draft (b := s.book.withRequests rest) f hdraft).trans hbook)
  have taken := s.answered_taken b' c (Answer.ok (.booked (s.book.placed r) .confirmed none))
  exact ⟨_, run, taken.draftOnly claim (s.answered_mail ..), (taken.slot _).trans ((hslot _).trans (if_pos rfl)),
    (congrArg Draft.records taken.draft).trans hrecords, s.answered_replied c _ claim.hmp, taken.drafts hwritten⟩

/-- R75: without a draft row a draft write starts from the live row. -/
theorem draftStart_live {b : Book} {x : Nat} {d : Date} {cells : List Cell} {base : Half} (hnone : b.draftRow x d = none)
    (h : draftStart b x d = some (cells, base)) : ∃ y, b.row x d = some y ∧ y.cells = cells ∧ y.version = base := by
  unfold draftStart at h
  rw [hnone] at h
  obtain ⟨y, hy, hp⟩ := Option.map_eq_some_iff.mp h
  cases hp
  exact ⟨y, hy, rfl, rfl⟩

end

/-! ## PUBLISH and DISCARD as requests (R82 to R85) -/

/-- The state after a PUBLISH. -/
def State.afterPublish (s : State) (rest : List Handed) (c : Ctx) : State :=
  s.afterAnswer rest c fun b => (Book.publish s.ctu b).ends

theorem State.afterPublish_requests (s : State) (rest : List Handed) (c : Ctx) :
    (s.afterPublish rest c).book.mail.requests = rest := by
  obtain ⟨-, mail, -⟩ := s.afterAnswer_blocks rest c fun b => (Book.publish s.ctu b).ends
  exact (congrArg Mail.requests mail).trans (publish_settings s.ctu (s.book.withRequests rest)).requests

/-- R82: a PUBLISH that is refused changes neither the book nor the runs. -/
theorem State.afterPublish_refused (s : State) {rest : List Handed} (c : Ctx) {a : Answer}
    (h : Book.publish s.ctu (s.book.withRequests rest) = .error (s.book.withRequests rest, a)) :
    SameBke s (s.afterPublish rest c) ∧ (s.afterPublish rest c).book.squ = s.book.squ ∧
      Replied s (s.afterPublish rest c) c a :=
  s.afterAnswer_same c (congrArg Attempt.ends h)

/-- R82: PUBLISH that finds no REBUILDING row, no stale draft row and entries for its runs is applied. -/
theorem PublishReady.publish_ends {t : Ctu} {b : Book} (h : PublishReady t b) :
    ∃ c, (Book.publish t b).ends = (c, b.publishedAnswer t) ∧ c.hmp = b.hmp ∧ Published t b c := by
  have standing : b.rebuildingDay = none := by
    refine List.find?_eq_none.mpr fun z hz => ?_
    rw [Option.any_eq_true]
    rintro ⟨y, hy, hr⟩
    exact h.standing z hz y hy (beq_iff_eq.mp hr)
  have taken : Book.publish t b = .ok (b.applyDraft t) := by
    have runs := h.runs
    rw [publish_eq h.sound h.horizon h.whole h.filled, standing]
    simp only [h.fresh, ne_eq, not_true_eq_false, if_false]
    exact if_neg (by omega)
  obtain ⟨hmp, published, answer⟩ := h.applied
  exact ⟨_, (congrArg Attempt.ends taken).trans (Prod.ext rfl answer), hmp, published⟩

/-- R83, R84: what a PUBLISH that is applied leaves, and its answer. -/
theorem State.afterPublish_applied (s : State) {rest : List Handed} (c : Ctx)
    (h : PublishReady s.ctu (s.book.withRequests rest)) :
    Published s.ctu (s.book.withRequests rest) (s.afterPublish rest c).book ∧
      Replied s (s.afterPublish rest c) c ((s.book.withRequests rest).publishedAnswer s.ctu) := by
  obtain ⟨b, ends, hmp, published⟩ := h.publish_ends
  obtain ⟨bke, mail, replied⟩ := s.afterAnswer_answers (op := fun b => (Book.publish s.ctu b).ends) c ends hmp
  exact ⟨published.congr bke mail, replied⟩

/-- R84: the live row of a draft row that is not damaged has its cells, free where a lapsed record covered them. -/
theorem Published.row_cells {s : State} {c : Book} (h : Published s.ctu s.book c) {x : Nat} {d : Date} {z : DraftRow} {y : Row}
    (hz : s.book.draftRow x d = some z) (hd : z.damaged = false) (hy : s.book.row x d = some y) :
    ∃ y', c.row x d = some y' ∧ y'.version = y.version + 1 ∧ y'.state = y.state ∧
      ∀ k, (LapsedCovers s z k → cellAt y'.cells k = .free) ∧
        (¬LapsedCovers s z k → cellAt y'.cells k = cellAt z.cells k) := by
  refine ⟨y.replacedBy (z.unlapsed s.ctu s.book), by rw [h.written x d z hz, hy]; rfl, rfl, rfl, fun k => ?_⟩
  have cells : (z.unlapsed s.ctu s.book).cells = _ := paintedBy_whole _ hd
  show (_ → cellAt (z.unlapsed s.ctu s.book).cells k = _) ∧ (_ → cellAt (z.unlapsed s.ctu s.book).cells k = _)
  rw [cells, cellAt_freed, lapsedCovers_iff]
  exact ⟨fun covered => if_pos covered, fun covered => if_neg covered⟩

/-- R85: what DISCARD leaves over any store. -/
theorem afterDiscard (s : State) (rest : List Handed) (c : Ctx) :
    let t := s.afterAnswer rest c Book.discardDraft
    t.book.mail.requests = rest ∧ t.book.bke.draft = Draft.empty ∧ t.book.squ = s.book.squ ∧ t.book.csc = s.book.csc ∧
      RepliedAfter s t c (s.book.withRequests rest).discardDraft.2 := by
  have touched := discardDraft_touched (s.book.withRequests rest)
  obtain ⟨bke, mail, squ, csc⟩ := s.afterAnswer_blocks rest c Book.discardDraft
  exact ⟨(congrArg Mail.requests mail).trans touched.settings.requests,
    (congrArg Bke.draft bke).trans (discardDraft_empty _), squ.trans touched.squ, csc.trans touched.csc,
    s.afterAnswer_repliedAfter c rfl touched.out⟩

/-- Settles O38: BOOK by what it makes of the draft; PUBLISH by what it finds; DISCARD over any store and over a sound one;
stale rows, lapsed records and the count of runs by what they are. -/
theorem draftIsWrittenPublishedAndDiscarded : Obligations.DraftIsWrittenPublishedAndDiscarded := by
  refine ⟨fun s c f rest rm hq hdraft hs hf hd hspan hroom hfull hlist hplaces => ?_,
    fun s c rest hq hs hh hd he => ?_, fun s c rest hq hs hh hd he hw hdw hk hstand hfresh hruns => ?_,
    fun s c rest hq => ?_, fun b z y hw hy => staleDay_iff hw hy, lapsedDraft_iff,
    fun t b => ⟨mem_draftDays b, draftDays_rising b, runCount_eq t b⟩⟩
  · intro buf hopen hnone
    obtain ⟨t, run, only, hslot, hrecords, replied, written⟩ :=
      bookDraft_claimed hq hdraft hs hf hd hspan hroom hfull hlist hplaces hopen hnone
    refine ⟨t, _, run, hslot, rfl, rfl, rfl, rfl, rfl, hrecords, congrArg Mail.requests only.mail, only.squ, replied,
      only.rows, fun x hx => ?_⟩
    obtain ⟨z, cells, base, start, hz, hbase, hcells⟩ := written x hx
    obtain ⟨y, hy, rfl, rfl⟩ := draftStart_live (hnone x hx) start
    exact ⟨y, z, hy, hz, hbase, hcells⟩
  · intro rebuilding stale free
    have outcome := publish_eq (t := s.ctu) (b := s.book.withRequests rest) hs hh hd he
    refine ⟨s.afterPublish rest c, hq.runs_afterAnswer (i := .publish) rfl rfl, s.afterPublish_requests rest c,
      fun r hr => ?_, fun standing hstale => ?_, fun standing fresh short => ?_⟩
    · rw [show (s.book.withRequests rest).rebuildingDay = some r from hr] at outcome
      exact s.afterPublish_refused c outcome
    · rw [show (s.book.withRequests rest).rebuildingDay = none from standing] at outcome
      exact s.afterPublish_refused c (outcome.trans (if_pos hstale))
    · rw [show (s.book.withRequests rest).rebuildingDay = none from standing] at outcome
      exact s.afterPublish_refused c (outcome.trans ((if_neg (not_not_intro fresh)).trans (if_pos short)))
  · intro lapsed kept withRun
    have ready : PublishReady s.ctu (s.book.withRequests rest) := ⟨hs, hh, hd, he, hw, hdw, hk, hstand, hfresh, hruns⟩
    obtain ⟨published, replied⟩ := s.afterPublish_applied c ready
    have records := published.records
    refine ⟨_, hq.runs_afterAnswer (i := .publish) rfl rfl, s.afterPublish_requests rest c, published.draft, replied,
      records.live, fun n r hr => ⟨fun hd hl => records.lapsed n r hr ⟨hd, hl⟩, fun hd hl => ?_, fun he hm => ?_,
        records.stays n r hr⟩, fun x d z y hz hd hy => ?_, published.others, published.told⟩
    · exact records.kept n r hr hd fun ⟨_, lapsed⟩ => Bool.false_ne_true (hl.symm.trans lapsed)
    · rw [← BufState.freed_eq]
      exact records.marked n r hr he hm
    · exact Published.row_cells (s := { s with book := s.book.withRequests rest }) published hz hd hy
  · obtain ⟨requests, empty, squ, csc, after⟩ := afterDiscard s rest c
    refine ⟨_, hq.runs_afterAnswer (i := .discard) (op := Book.discardDraft) rfl rfl, requests, empty, squ, csc, after,
      fun hs hw => ?_⟩
    obtain ⟨hmp, rows, slots⟩ := discardDraft_spec (b := s.book.withRequests rest) hs hw
    obtain ⟨bke, -, replied⟩ := s.afterAnswer_answers (rest := rest) (op := Book.discardDraft) c rfl hmp
    refine ⟨replied, (congrArg Bke.rows bke).trans rows, fun n r hr => ?_⟩
    obtain ⟨gone, kept⟩ := slots n r hr
    have slot : (s.afterAnswer rest c Book.discardDraft).book.slot n = (s.book.withRequests rest).discardDraft.1.slot n :=
      congrArg (fun k : Bke => k.records.find n) bke
    exact ⟨fun hl found => slot.trans (gone hl found), fun hl => slot.trans (kept hl)⟩

end Sys2Proof.Machine


/-! SUPPORT. The parts of the SBC's state (R89, R90) and what it hands to the CSC and the PPU (R96, R99, R103): one rule
for each operation, so that no proof about a step of the bus opens a table, a segment or the mail. -/

namespace Sys2Proof.Machine

/-- A command of the SBC runs to what its operation answers. -/
theorem runs_onSbc {i : Instr} {s : State} {f : Ctu → Book → Sbc → Book × Sbc} {b : Book} {x : Sbc}
    (hi : exec i s = onSbc f s) (hf : f s.ctu s.book s.sbc = (b, x)) : Runs i s { s with book := b, sbc := x } := by
  unfold Runs onSbc at *
  rw [hi, hf]

/-- R185: a reply is queued behind everything queued before; only the LAST of a batch may bring a notice after it. -/
theorem Book.reply_out (b : Book) (c : Ctx) (a : Answer) :
    ∃ more, (b.reply c a).hmp.out = b.hmp.out ++ .reply c a :: more ∧ (c.mark ≠ .last → more = []) := by
  obtain ⟨more, out, last⟩ := (b.reply_after c a).out
  exact ⟨more, by rw [out, Hmp.postReply, List.append_assoc]; rfl, last⟩

/-! ## Segments and stations -/

theorem Segments.get_set {x : Segments} {n : Nat} {g : Segment} (h : x.get n = some g) (g' : Segment) (k : Nat) :
    (x.set n g').get k = if k = n then some g' else x.get k := by
  match n with
  | 0 | 1 | 2 | 3 => rcases k with _ | _ | _ | _ | k <;> rfl
  | _ + 4 => exact nomatch h

theorem Sbc.seg_putSeg {x : Sbc} {n : Nat} {g : Segment} (h : x.seg n = some g) (g' : Segment) :
    (x.putSeg n g').seg n = some g' :=
  (Segments.get_set h g' n).trans (if_pos rfl)

theorem Sbc.seg_putSeg_ne {x : Sbc} {n k : Nat} {g : Segment} (h : x.seg n = some g) (g' : Segment) (hk : k ≠ n) :
    (x.putSeg n g').seg k = x.seg k :=
  (Segments.get_set h g' k).trans (if_neg hk)

@[simp] theorem Sbc.putSeg_stations (x : Sbc) (n : Nat) (g : Segment) : (x.putSeg n g).stations = x.stations := rfl
@[simp] theorem Sbc.putSeg_station (x : Sbc) (n k a : Nat) (g : Segment) : (x.putSeg n g).station k a = x.station k a := rfl
@[simp] theorem Sbc.putStation_segments (x : Sbc) (y : Station) : (x.putStation y).segments = x.segments := rfl
@[simp] theorem Sbc.putStation_seg (x : Sbc) (y : Station) (n : Nat) : (x.putStation y).seg n = x.seg n := rfl

@[simp] theorem Sbc.station_putStation (x : Sbc) (y : Station) :
    (x.putStation y).station y.segment y.address = some y := Table.find_put_self _ _ _

theorem Sbc.stations_putStation_ne (x : Sbc) (y : Station) {k : Nat} (h : k ≠ stationKey y.segment y.address) :
    (x.putStation y).stations.find k = x.stations.find k := Table.find_put_ne _ _ _ _ h

/-- R89: the transaction of a segment is ended. -/
theorem Sbc.endFlight_eq {x : Sbc} {n : Nat} {g : Segment} (h : x.seg n = some g) :
    x.endFlight n = x.putSeg n { g with inFlight := none } := by
  simp only [Sbc.endFlight, h]

@[simp] theorem Sbc.endFlight_stations (x : Sbc) (n : Nat) : (x.endFlight n).stations = x.stations := by
  unfold Sbc.endFlight
  split <;> rfl

@[simp] theorem Sbc.endFlight_station (x : Sbc) (n k a : Nat) : (x.endFlight n).station k a = x.station k a :=
  congrArg (fun t : Table Station => t.find (stationKey k a)) (x.endFlight_stations n)

theorem Sbc.seg_endFlight {x : Sbc} {n : Nat} {g : Segment} (h : x.seg n = some g) :
    (x.endFlight n).seg n = some { g with inFlight := none } := by
  rw [Sbc.endFlight_eq h, Sbc.seg_putSeg h]

/-! ## What is handed to the CSC and the PPU -/

/-- The book with the reports `c` handed to the CSC and `p` to the PPU, behind those handed before. -/
def Book.handed (b : Book) (c : List (Nat × CscReport)) (p : List (Nat × PpuReport)) : Book :=
  b.withMail { b.mail with sbcToCsc := b.mail.sbcToCsc ++ c, sbcToPpu := b.mail.sbcToPpu ++ p }

section

variable (b : Book) (c : List (Nat × CscReport)) (p : List (Nat × PpuReport))

@[simp] theorem Book.handed_hmp : (b.handed c p).hmp = b.hmp := rfl
@[simp] theorem Book.handed_bke : (b.handed c p).bke = b.bke := rfl
@[simp] theorem Book.handed_csc : (b.handed c p).csc = b.csc := rfl
@[simp] theorem Book.handed_sbcToCsc : (b.handed c p).mail.sbcToCsc = b.mail.sbcToCsc ++ c := rfl
@[simp] theorem Book.handed_sbcToPpu : (b.handed c p).mail.sbcToPpu = b.mail.sbcToPpu ++ p := rfl
@[simp] theorem Book.handed_requests : (b.handed c p).mail.requests = b.mail.requests := rfl
@[simp] theorem Book.handed_ppuToSbc : (b.handed c p).mail.ppuToSbc = b.mail.ppuToSbc := rfl
@[simp] theorem Book.handed_stationCode (x : Station) : (b.handed c p).stationCode x = b.stationCode x := rfl

theorem Book.handed_nil : b.handed [] [] = b := by
  simp [Book.handed, Book.withMail]

@[simp] theorem Book.handed_handed (c' : List (Nat × CscReport)) (p' : List (Nat × PpuReport)) :
    (b.handed c p).handed c' p' = b.handed (c ++ c') (p ++ p') := by
  simp [Book.handed, Book.withMail]

end

theorem Book.tellPanel_eq (b : Book) (n : Nat) (r : PpuReport) : b.tellPanel n r = b.handed [] [(n, r)] := by
  simp [Book.tellPanel, Book.handed]

theorem Book.tellKitchen_eq (b : Book) (n : Nat) (r : CscReport) : b.tellKitchen n r = b.handed [(n, r)] [] := by
  simp [Book.tellKitchen, Book.handed]

theorem ticketReturned_eq (b : Book) (x : Station) (k : Option Ticket) :
    b.ticketReturned x k = b.handed ((k.map (ticketBack x)).getD []) [] := by
  cases k with
  | none => exact b.handed_nil.symm
  | some k => simp only [Book.ticketReturned, Book.tellKitchen_eq, Book.handed_handed]; rfl

theorem callReturned_eq (b : Book) (x : Station) (k : Option Call) :
    b.callReturned x k = b.handed ((k.map (callBack x)).getD []) [] := by
  cases k with
  | none => exact b.handed_nil.symm
  | some k => simp only [Book.callReturned, Book.tellKitchen_eq, Book.handed_handed]; rfl

/-- R96, R106: the tickets in flight and in the slot go back before the calls (log 106). -/
theorem handedBack_eq (x : Station) (flight : Option Transaction) :
    handedBack x flight =
      ((flight.bind Transaction.ticket).map (ticketBack x)).getD [] ++ (x.ticketSlot.map (ticketBack x)).getD [] ++
        ((flight.bind Transaction.call).map (callBack x)).getD [] ++ (x.callSlot.map (callBack x)).getD [] := by
  cases flight with
  | none => rfl
  | some f => cases hw : f.work <;> simp [handedBack, Transaction.ticket, Transaction.call, hw]

theorem handBack_eq (b : Book) (x : Station) (flight : Option Transaction) :
    b.handBack x flight = b.handed (handedBack x flight) [] := by
  simp only [Book.handBack, ticketReturned_eq, callReturned_eq, Book.handed_handed, handedBack_eq,
    List.append_nil, List.append_assoc]

/-- R96, R97, R106: what the owner of a station is told of its state. -/
def ownerNews (x : Station) : List (Nat × CscReport) × List (Nat × PpuReport) :=
  match x.type with
  | .panel => ([], [(x.segment, .link x.address (if x.state = .online then .online x.session else .offline))])
  | .terminal => ([(x.segment, .link x.binding (if x.state = .online then some x.session else none) (some x.state))], [])

theorem Book.tellOwner_eq (b : Book) (x : Station) : b.tellOwner x = b.handed (ownerNews x).1 (ownerNews x).2 := by
  cases hx : x.type <;> simp only [Book.tellOwner, ownerNews, hx, Book.tellPanel_eq, Book.tellKitchen_eq]

/-- R96, R106: the owner of a station that is not ONLINE is told so, as `OwnerTold` says. -/
theorem ownerNews_offline {x : Station} (h : x.state ≠ .online) :
    ownerNews x =
      (if x.type = .terminal then [(x.segment, .link x.binding none (some x.state))] else [],
        if x.type = .panel then [(x.segment, .link x.address .offline)] else []) := by
  cases hx : x.type <;> simp [ownerNews, hx, h]

/-- R96, R106: what a station held goes back, and its owner is told of the state it leaves ONLINE for. -/
theorem OwnerTold.of_handed {s t : State} {x y : Station} {flight : Option Transaction}
    (hc : t.book.mail.sbcToCsc = s.book.mail.sbcToCsc ++ (handedBack x flight ++ (ownerNews y).1))
    (hp : t.book.mail.sbcToPpu = s.book.mail.sbcToPpu ++ (ownerNews y).2) (ho : y.state ≠ .online)
    (htype : y.type = x.type) (hseg : y.segment = x.segment) (ha : y.address = x.address) (hb : y.binding = x.binding) :
    OwnerTold s t x flight y.state := by
  rw [ownerNews_offline ho, htype, hseg] at hc hp
  rw [hb, ← List.append_assoc] at hc
  rw [ha] at hp
  exact ⟨hc, hp⟩

end Sys2Proof.Machine


/-! PROOFS. The reads of the part's identity, of orders, kitchens, stations and the site configuration (R107, R150, R190,
R194). -/

namespace Sys2Proof.Machine

/-! ## What each read answers -/

section

variable {b : Book} {k : Nat} {kit : Kitchen}

theorem orderById_found {id : Nat} {o : Order} (hh : b.csc.horizon ≠ none) (h1 : 1 ≤ id) (h1023 : id ≤ 1023)
    (ho : b.csc.orders.find id = some o) : b.orderById id = .ok o := by
  have range : ¬(id = 0 ∨ 1023 < id) := by omega
  simp only [Book.orderById, Option.isNone_iff_eq_none, if_neg hh, if_neg range, ho]

theorem readOrderAnswer_found {id : Nat} {o : Order} (hh : b.csc.horizon ≠ none) (h1 : 1 ≤ id) (h1023 : id ≤ 1023)
    (ho : b.csc.orders.find id = some o) :
    b.readOrderAnswer id = Answer.ok (.readOrder o.view (360 + 15 * o.slot) (b.code o.copy.room)) := by
  simp only [Book.readOrderAnswer, orderById_found hh h1 h1023 ho]
  rfl

/-- R150: without a first window READ_CAPACITY shows the windows 0 to 7. -/
theorem readCapacityAnswer_first {d : Date} {h : Horizon} (hh : b.csc.horizon = some h) (hk : k ≤ 5)
    (hd : (h.offset d).isSome = true) (hkit : b.csc.kitchen k = some kit) :
    b.readCapacityAnswer k d none =
      Answer.ok
        (.capacity kit.view ((List.range 8).filterMap fun w => (b.csc.entry k d w).map CapEntry.view) true) := by
  have range : ¬(5 < k ∨ (h.offset d).isNone = true ∨ 31 < 0) := by simp [hk, Option.isSome_iff_ne_none.mp hd]
  simp only [Book.readCapacityAnswer, hh, Option.getD_none, if_neg range, hkit, List.range_eq_range']
  rfl

/-- R150: an order on a waitlist as READ_WAITLIST shows it. -/
def Csc.waiting (c : Csc) (id : Nat) : Option (Nat × Nat × Date × Nat × Nat) :=
  (c.orders.find id).map fun o => (o.id, o.booking, o.date, o.window, o.covers)

theorem readWaitlistAnswer_eq (hh : b.csc.horizon ≠ none) (hk : k ≤ 5) (hkit : b.csc.kitchen k = some kit) :
    b.readWaitlistAnswer k = Answer.ok (.waitlist (kit.waitlist.filterMap b.csc.waiting)) := by
  simp only [Book.readWaitlistAnswer, Option.isNone_iff_eq_none, if_neg hh, if_neg (Nat.not_lt.mpr hk), hkit]
  rfl

/-- R150: where each id on the list is that of an order, all are shown in their order. -/
theorem waiting_ids {c : Csc} {l : List Nat} (h : ∀ id ∈ l, ∃ o, c.orders.find id = some o ∧ o.id = id) :
    (l.filterMap c.waiting).map (fun e => e.1) = l := by
  induction l with
  | nil => rfl
  | cons id l ih =>
    obtain ⟨⟨o, ho, hid⟩, rest⟩ := List.forall_mem_cons.mp h
    have first : c.waiting id = some (o.id, o.booking, o.date, o.window, o.covers) := by
      simp only [Csc.waiting, ho, Option.map_some]
    rw [List.filterMap_cons_some first, List.map_cons, ih rest, hid]

theorem stationReply_found {x : Sbc} {g a : Nat} {y : Station} (hg : g ≤ 3) (h1 : 1 ≤ a) (h48 : a ≤ 48)
    (hy : x.station g a = some y) :
    b.stationReply x g a = Answer.ok (.station (y.view (b.stationCode y) (x.flightWith g a))) := by
  simp [Book.stationReply, stationRange, hg, h1, h48, hy]

theorem getAnswer_item {c : Cfs} {key : ItemKey} (hc : c.commit = none) (hk : key.inRange = true) :
    c.getAnswer key false =
      (c.loadSet.find key).elim (Answer.of .notFound) fun i => Answer.ok (.item i none (c.settingsExtra i)) := by
  simp only [Cfs.getAnswer, hc, Option.isSome_none, hk, Bool.not_true, if_neg Bool.false_ne_true]
  cases c.loadSet.find key <;> rfl

end

/-! ## What takes the reads -/

/-- R107: READ_STATION overtakes the SBC's other request. -/
theorem readStation_eq {b : Book} {x : Sbc} {c : Ctx} {g a : Nat} {rest : List Handed}
    (h : takeFirst Handed.isReadStation b.mail.requests = some ({ ctx := c, request := .readStation g a }, rest)) :
    readStation b x = (b.withRequests rest).reply c ((b.withRequests rest).stationReply x g a) := by
  simp only [readStation, Book.pickRequest, h, Option.map_some]

theorem readIdentity_eq {s : State} {c : Ctx} {rest : List Handed} (h : Asks s c .readIdentity rest) :
    s.book.readIdentity = (s.book.withRequests rest).reply c (Answer.ok s.book.identity) := by
  have next : s.book.nextRequest .hmp = _ := h.next
  simp only [Book.readIdentity, next]

/-- Settles O35: each read by the answer that its operation gives over the part as it stands. -/
theorem otherReadsChangeNothing : Obligations.OtherReadsChangeNothing := by
  refine ⟨fun s c id o rest hq hh h1 h1023 ho => ?_, fun s c k d h kit rest hq hh hk hd hkit => ?_,
    fun s c k kit rest hq hh hk hkit => ?_, fun s c g a x rest hq hg h1 h48 hx => ?_,
    fun s c key rest hq hc hk => ?_, fun s c rest hq => ?_⟩
  · exact hq.runs_read (i := .readOrder) rfl
      (congrArg (fun a => some (Book.reply _ c a)) (readOrderAnswer_found (b := s.book.withRequests rest) hh h1 h1023 ho))
  · obtain ⟨t, run, reads, replied⟩ := hq.runs_read (i := .readCapacity) rfl
      (congrArg (fun a => some (Book.reply _ c a)) (readCapacityAnswer_first (b := s.book.withRequests rest) hh hk hd hkit))
    exact ⟨t, _, run, reads, replied, rfl⟩
  · obtain ⟨t, run, reads, replied⟩ := hq.runs_read (i := .readWaitlist) rfl
      (congrArg (fun a => some (Book.reply _ c a)) (readWaitlistAnswer_eq (b := s.book.withRequests rest) hh hk hkit))
    exact ⟨t, _, run, reads, replied, waiting_ids⟩
  · obtain ⟨reads, replied⟩ := OnlyReads.of_reply s _ rest c _ rfl
    have found := stationReply_found (b := s.book.withRequests rest) hg h1 h48 hx
    refine ⟨_, s.book.stationCode x, runs_onSbc (f := fun _ b x => (readStation b x, x)) rfl
      (congrArg (fun b => (b, s.sbc)) ((readStation_eq hq).trans (congrArg _ found))), reads, replied, fun ht => ?_,
      fun ht => ?_⟩
    · exact if_pos ht
    · exact if_neg (by rw [ht]; decide)
  · obtain ⟨t, run, reads, replied⟩ := hq.runs_read (i := .configGet) rfl
      (congrArg (fun a => some (Book.reply _ c a)) (getAnswer_item (c := s.book.cfs) hc hk))
    refine ⟨t, run, reads, fun i hi => ?_, fun hn => ?_⟩
    · rw [hi] at replied
      exact ⟨_, replied⟩
    · rwa [hn] at replied
  · obtain ⟨reads, replied⟩ := OnlyReads.of_reply s _ rest c (Answer.ok s.book.identity) rfl
    have run : Runs .readIdentity s { s with book := s.book.readIdentity } := rfl
    rw [readIdentity_eq hq] at run
    exact ⟨_, run, reads, replied⟩

end Sys2Proof.Machine


/-! SUPPORT. The arbiter (R97, R98, R104, R105): the order of turns over a segment, the work chosen within a station, and
what each of the arbiter's choices does. -/

namespace Sys2Proof.Machine

/-! ## The order of turns -/

/-- In a list ordered by an asymmetric relation, what is found is the one that stands before all others that pass. -/
theorem find?_first {α : Type} {R : α → α → Prop} (asymm : ∀ a b, R a b → ¬R b a) {l : List α} (hl : l.Pairwise R)
    (p : α → Bool) (y : α) :
    l.find? p = some y ↔ (y ∈ l ∧ p y = true) ∧ ∀ z ∈ l, p z = true → z ≠ y → R y z := by
  have first {y : α} (h : l.find? p = some y) : ∀ z ∈ l, p z = true → z ≠ y → R y z := by
    intro z hz hp hne
    obtain ⟨-, before, behind, rfl, fails⟩ := List.find?_eq_some_iff_append.mp h
    rcases List.mem_append.mp hz with hz | hz
    · exact absurd hp (by simpa using fails z hz)
    · obtain ⟨-, rest, -⟩ := List.pairwise_append.mp hl
      exact List.rel_of_pairwise_cons rest (List.mem_of_ne_of_mem hne hz)
  refine ⟨fun h => ⟨⟨List.mem_of_find?_eq_some h, List.find?_some h⟩, first h⟩, fun ⟨⟨hy, hp⟩, hfirst⟩ => ?_⟩
  cases hf : l.find? p with
  | none => exact absurd hp (List.find?_eq_none.mp hf y hy)
  | some z =>
    by_contra hne
    have hzy : z ≠ y := fun e => hne (congrArg some e)
    exact asymm y z (hfirst z (List.mem_of_find?_eq_some hf) (List.find?_some hf) hzy) (first hf y hy hp hzy.symm)

theorem ComesBefore.asymm {last : Option Nat} (y z : Station) (h : ComesBefore last y z) : ¬ComesBefore last z y := by
  cases last with
  | none => exact Nat.lt_asymm h
  | some a =>
    unfold ComesBefore at *
    dsimp only at *
    omega

theorem mem_wrapAfter (last : Option Nat) (l : List Station) (y : Station) : y ∈ wrapAfter last l ↔ y ∈ l := by
  cases last with
  | none => rfl
  | some a =>
    simp only [wrapAfter, List.mem_append, List.mem_filter, decide_eq_true_eq, ← and_or_left, Nat.lt_or_ge a y.address,
      and_true]

/-- R97, R104: by rising address, those after the last first. -/
theorem wrapAfter_turns {l : List Station} (h : l.Pairwise fun y z => y.address < z.address) (last : Option Nat) :
    (wrapAfter last l).Pairwise (ComesBefore last) := by
  cases last with
  | none => exact h
  | some a =>
    refine List.pairwise_append.mpr ⟨?_, ?_, fun y hy z hz => .inl ?_⟩
    · refine (h.filter _).imp_of_mem fun {y z} hy hz hlt => .inr ⟨?_, hlt⟩
      simp only [List.mem_filter, decide_eq_true_eq] at hy hz
      exact iff_of_true hy.2 hz.2
    · refine (h.filter _).imp_of_mem fun {y z} hy hz hlt => .inr ⟨?_, hlt⟩
      simp only [List.mem_filter, decide_eq_true_eq] at hy hz
      exact iff_of_false (Nat.not_lt.mpr hy.2) (Nat.not_lt.mpr hz.2)
    · simp only [List.mem_filter, decide_eq_true_eq] at hy hz
      exact ⟨hy.2, hz.2⟩

theorem segment_of_mem_onSegment {x : Sbc} {n : Nat} {y : Station} (h : y ∈ x.onSegment n) : y.segment = n := by
  simpa using (List.mem_filter.mp h).2

section

variable {x : Sbc} (keyed : StationsKeyed x)

include keyed

theorem mem_onSegment (n : Nat) (y : Station) : y ∈ x.onSegment n ↔ x.station n y.address = some y ∧ y.segment = n := by
  obtain ⟨wf, keys⟩ := keyed
  simp only [Sbc.onSegment, List.mem_filter, beq_iff_eq, Table.values, List.mem_map, Prod.exists, exists_eq_right,
    Table.mem_entries wf]
  refine and_congr_left fun hn => ⟨fun ⟨k, hk⟩ => ?_, fun h => ⟨_, h⟩⟩
  rw [← keys k y hk, hn] at hk
  exact hk

theorem onSegment_rising (n : Nat) : (x.onSegment n).Pairwise fun y z => y.address < z.address := by
  obtain ⟨wf, keys⟩ := keyed
  have place {k : Nat} {y : Station} (h : (k, y) ∈ x.stations.entries) : y.segment * 64 + y.address = k :=
    keys k y ((Table.mem_entries wf k y).mp h)
  have keysRise : x.stations.values.Pairwise fun y z => y.segment * 64 + y.address < z.segment * 64 + z.address := by
    refine List.pairwise_map.mpr ((risingFrom_pairwise wf).imp_of_mem fun {p q} hp hq hlt => ?_)
    rwa [place hp, place hq]
  refine (keysRise.filter _).imp_of_mem fun {y z} hy hz hlt => ?_
  have hy := segment_of_mem_onSegment hy
  have hz := segment_of_mem_onSegment hz
  omega

/-- R97, R104: the first in the turn that passes. -/
theorem find_turn (n : Nat) (last : Option Nat) (p : Station → Bool) (y : Station) :
    (wrapAfter last (x.onSegment n)).find? p = some y ↔ FirstInTurn x n last (fun z => p z = true) y := by
  rw [find?_first ComesBefore.asymm (wrapAfter_turns (onSegment_rising keyed n) last)]
  simp only [mem_wrapAfter, mem_onSegment keyed, FirstInTurn, and_assoc, and_imp]

end

theorem FirstInTurn.congr {x : Sbc} {n : Nat} {last : Option Nat} {p q : Station → Prop} (h : ∀ z, p z ↔ q z)
    (y : Station) : FirstInTurn x n last p y ↔ FirstInTurn x n last q y := by
  rw [funext fun z => propext (h z)]

/-- R104: the station is ONLINE and has work. -/
def Station.serves (y : Station) : Bool := y.state == .online && y.choice.isSome

theorem Station.serves_iff (y : Station) : y.serves = true ↔ y.state = .online ∧ y.choice ≠ none := by
  simp [Station.serves, Option.isSome_iff_ne_none]

theorem roundRobin_eq (x : Sbc) (n : Nat) (g : Segment) :
    x.roundRobin n g =
      ((wrapAfter g.lastServed (x.onSegment n)).find? Station.serves).bind fun y => y.choice.map fun w => (y, w) := by
  unfold Sbc.roundRobin
  induction wrapAfter g.lastServed (x.onSegment n) with
  | nil => rfl
  | cons y l ih =>
    rw [List.findSome?_cons, List.find?_cons, ih]
    by_cases ho : y.state = .online
    · cases hc : y.choice <;> simp [Station.serves, ho, hc]
    · simp [Station.serves, ho, beq_eq_false_iff_ne.mpr ho]

theorem roundRobin_some {x : Sbc} {n : Nat} {g : Segment} {y : Station} {w : Work} :
    x.roundRobin n g = some (y, w) ↔
      (wrapAfter g.lastServed (x.onSegment n)).find? Station.serves = some y ∧ y.choice = some w := by
  simp [roundRobin_eq, Option.bind_eq_some_iff]

theorem roundRobin_none {x : Sbc} {n : Nat} {g : Segment} :
    x.roundRobin n g = none ↔ ∀ y ∈ x.onSegment n, y.state = .online → y.choice = none := by
  unfold Sbc.roundRobin
  simp [List.findSome?_eq_none_iff, mem_wrapAfter]

theorem probeNext_some {x : Sbc} {n : Nat} {g : Segment} {y : Station} :
    x.probeNext n g = some y ↔
      g.probeReady = true ∧ (wrapAfter g.pointer (x.onSegment n)).find? (fun z => z.state == .absent) = some y := by
  simp only [Sbc.probeNext, Option.ite_none_right_eq_some]

/-! ## The work chosen within a station -/

section

variable {x : Station}

theorem Station.pollReady_iff :
    x.pollReady = true ↔ x.pollDue = true ∧ (x.type = .panel → x.resultsAwaited = 0 ∧ x.results = []) := by
  cases hx : x.type <;> simp [Station.pollReady, hx]

theorem choice_result (ht : x.type = .panel) {r : ResultItem} {l : List ResultItem} (hr : x.results = r :: l) :
    x.choice = some (.result r) := by
  simp only [Station.choice, ht, hr]

theorem choice_page (ht : x.type = .panel) (hr : x.results = []) {p : PageItem} (hp : x.pageSlot = some p)
    (hc : 0 < x.credits) : x.choice = some (.page p) := by
  simp only [Station.choice, ht, hr, hp, if_pos hc]

theorem choice_call (ht : x.type = .terminal) {c : Call} (hc : x.callSlot = some c) : x.choice = some (.call c) := by
  simp only [Station.choice, ht, hc]

theorem choice_ticket (ht : x.type = .terminal) (hn : x.callSlot = none) {k : Ticket} (hk : x.ticketSlot = some k)
    (hc : 0 < x.credits) : x.choice = some (.ticket k) := by
  simp only [Station.choice, ht, hn, hk, if_pos hc]

/-- R104: a panel with nothing else to be sent is polled when its poll is due. -/
theorem choice_panel_poll (ht : x.type = .panel) (hr : x.results = []) (hp : x.pageSlot = none ∨ x.credits = 0) :
    x.choice = if x.pollReady = true then some .poll else none := by
  cases hs : x.pageSlot with
  | none => simp only [Station.choice, ht, hr, hs]
  | some p =>
    have hc : x.credits = 0 := hp.resolve_left (by rw [hs]; nofun)
    simp only [Station.choice, ht, hr, hs, hc, Nat.lt_irrefl, if_false]

/-- R104: a terminal with nothing else to be sent is polled when its poll is due. -/
theorem choice_terminal_poll (ht : x.type = .terminal) (hn : x.callSlot = none)
    (hp : x.ticketSlot = none ∨ x.credits = 0) : x.choice = if x.pollReady = true then some .poll else none := by
  cases hs : x.ticketSlot with
  | none => simp only [Station.choice, ht, hn, hs]
  | some k =>
    have hc : x.credits = 0 := hp.resolve_left (by rw [hs]; nofun)
    simp only [Station.choice, ht, hn, hs, hc, Nat.lt_irrefl, if_false]

/-- R100: without a credit in hand neither a page nor a ticket is chosen. -/
theorem choice_without_credit {w : Work} (hc : x.credits = 0) (h : x.choice = some w) :
    (∃ r, w = .result r) ∨ (∃ c, w = .call c) ∨ w = .poll := by
  cases ht : x.type with
  | panel =>
    cases hr : x.results with
    | nil =>
      rw [choice_panel_poll ht hr (.inr hc), Option.ite_none_right_eq_some] at h
      exact .inr (.inr (Option.some.inj h.2).symm)
    | cons r l => exact .inl ⟨r, Option.some.inj (h.symm.trans (choice_result ht hr))⟩
  | terminal =>
    cases hs : x.callSlot with
    | none =>
      rw [choice_terminal_poll ht hs (.inr hc), Option.ite_none_right_eq_some] at h
      exact .inr (.inr (Option.some.inj h.2).symm)
    | some c => exact .inr (.inl ⟨c, Option.some.inj (h.symm.trans (choice_call ht hs))⟩)

theorem choice_page_credit {i : PageItem} (h : x.choice = some (.page i)) : 0 < x.credits := by
  by_contra hc
  obtain ⟨r, h⟩ | ⟨k, h⟩ | h := choice_without_credit (Nat.eq_zero_of_not_pos hc) h <;> contradiction

theorem choice_ticket_credit {k : Ticket} (h : x.choice = some (.ticket k)) : 0 < x.credits := by
  by_contra hc
  obtain ⟨r, h⟩ | ⟨k, h⟩ | h := choice_without_credit (Nat.eq_zero_of_not_pos hc) h <;> contradiction

end

/-! ## What each choice does -/

section

variable {n : Nat} {g : Segment} {t : Ctu} {b : Book} {x : Sbc} (hg : x.seg n = some g) (hf : g.inFlight = none)

include hg hf

theorem arbiterChoose_latch (hm : g.mask ≠ []) : arbiterChoose n t b x = latchChosen n g b x := by
  simp [arbiterChoose, hg, hf, hm]

theorem arbiterChoose_clear (hm : g.mask = []) {y : Station}
    (hy : (x.onSegment n).find? (fun y => y.clearMark) = some y) : arbiterChoose n t b x = (b, clearChosen n g y x) := by
  simp [arbiterChoose, hg, hf, hm, hy]

variable (hm : g.mask = []) (hc : (x.onSegment n).find? (fun y => y.clearMark) = none)

include hm hc

theorem arbiterChoose_station {y : Station} {w : Work} (hr : x.roundRobin n g = some (y, w)) :
    arbiterChoose n t b x = (b, stationChosen t.elapsed n g y w x) := by
  simp [arbiterChoose, hg, hf, hm, hc, hr]

theorem arbiterChoose_probe {y : Station} (hr : x.roundRobin n g = none) (hp : x.probeNext n g = some y) :
    arbiterChoose n t b x = (b, probeChosen t.elapsed n g y x) := by
  simp [arbiterChoose, hg, hf, hm, hc, hr, hp]

theorem arbiterChoose_nothing (hr : x.roundRobin n g = none) (hp : x.probeNext n g = none) :
    arbiterChoose n t b x = (b, x) := by
  simp [arbiterChoose, hg, hf, hm, hc, hr, hp]

end

theorem Station.sending_place (y : Station) (now : Nat) (w : Work) :
    (y.sending now w).segment = y.segment ∧ (y.sending now w).address = y.address := by
  cases w <;> exact ⟨rfl, rfl⟩

theorem stationChosen_station (now n : Nat) (g : Segment) (y : Station) (w : Work) (x : Sbc) :
    (stationChosen now n g y w x).station y.segment y.address = some (y.sending now w) := by
  obtain ⟨hseg, haddr⟩ := y.sending_place now w
  rw [← hseg, ← haddr]
  exact Sbc.station_putStation _ _

/-- R104: the arbiter of a segment works on no other. -/
theorem arbiterChoose_segments {n : Nat} {g : Segment} {x : Sbc} (hg : x.seg n = some g) (hf : g.inFlight = none)
    (t : Ctu) (b : Book) :
    ∃ g', (arbiterChoose n t b x).2.seg n = some g' ∧ ∀ k, k ≠ n → (arbiterChoose n t b x).2.seg k = x.seg k := by
  simp only [arbiterChoose, hg, hf, Option.isSome_none, if_neg Bool.false_ne_true]
  split
  · exact ⟨_, Sbc.seg_putSeg hg _, fun k => Sbc.seg_putSeg_ne hg _⟩
  · split
    · exact ⟨_, Sbc.seg_putSeg (x := x.putStation _) hg _, fun k => Sbc.seg_putSeg_ne (x := x.putStation _) hg _⟩
    · split
      · exact ⟨_, Sbc.seg_putSeg (x := x.putStation _) hg _, fun k => Sbc.seg_putSeg_ne (x := x.putStation _) hg _⟩
      · split
        · exact ⟨_, Sbc.seg_putSeg hg _, fun k => Sbc.seg_putSeg_ne hg _⟩
        · exact ⟨g, hg, fun _ _ => rfl⟩

/-! ## Frames sent, polls and the probe interval -/

/-- R89: a CLEAR or a LATCH ends when it has been sent. -/
theorem frameSent_eq {n : Nat} {g : Segment} {f : Transaction} {x : Sbc} (hg : x.seg n = some g)
    (hf : g.inFlight = some f) (hw : f.work.awaited = none) : frameSent n x = x.endFlight n := by
  simp [frameSent, hg, hf, hw]

theorem Ctu.ranOut_iff {t : Ctu} {seconds k : Nat} :
    t.ranOut seconds (some k) = true ↔ k + seconds * 32768 ≤ t.elapsed := by
  rw [Ctu.ranOut, Option.any_some, decide_eq_true_iff, Config.crystal]

theorem pollDue_eq {n a : Nat} {t : Ctu} {x : Sbc} {y : Station} {k : Nat} (hy : x.station n a = some y)
    (ho : y.state = .online) (hk : y.pollStart = some k) :
    pollDue n a t x = if k + x.pollPeriod * 32768 ≤ t.elapsed then x.putStation { y with pollDue := true } else x := by
  simp only [pollDue, hy, ho, hk, Ctu.ranOut_iff, true_and]

theorem probeIntervalExpiry_eq {n : Nat} {t : Ctu} {x : Sbc} {g : Segment} {k : Nat} (hg : x.seg n = some g)
    (hk : g.probeSent = some k) :
    probeIntervalExpiry n t x = if k + 5 * 32768 ≤ t.elapsed then x.putSeg n { g with probeReady := true } else x := by
  simp only [probeIntervalExpiry, hg, hk, Ctu.ranOut_iff, Config.probeSeconds]

theorem probeIntervalExpiry_stations (n : Nat) (t : Ctu) (x : Sbc) :
    (probeIntervalExpiry n t x).stations = x.stations := by
  unfold probeIntervalExpiry
  split
  · rfl
  · split <;> rfl

end Sys2Proof.Machine

/-! PROOFS. The arbiter (R97, R98, R100, R104 to R106). -/

namespace Sys2Proof.Machine

/-- Settles O55: the arbiter by its five choices; a station's work by its type; the turns by what is found first. -/
theorem arbiterChoosesInOrder : Obligations.ArbiterChoosesInOrder := by
  refine ⟨fun s n g hg hf => ?_, fun x => ⟨fun ht r l => choice_result ht, fun ht hr p => choice_page ht hr,
      fun ht hr hp => ?_, fun ht c => choice_call ht, fun ht hn k => choice_ticket ht hn, fun ht hn hp => ?_⟩,
    fun x n g keyed => ⟨fun y w => ?_, ?_, fun y => ?_, fun y => find_turn keyed n none _ y⟩,
    fun s n g f hg hf hw => ?_, fun s n a x hx hn ha ho => ?_, fun s n g hg => ?_⟩
  · obtain ⟨g', hg', others⟩ := arbiterChoose_segments hg hf s.ctu s.book
    rcases chosen : arbiterChoose n s.ctu s.book s.sbc with ⟨b, x⟩
    rw [chosen] at hg' others
    refine ⟨_, g', runs_onSbc (f := arbiterChoose n) rfl chosen, hg', others, fun hm => ?_, fun hm y hy => ?_,
      fun hm hc => ⟨fun y w hr => ?_, fun hr y hp => ?_, fun hr hp => ?_⟩⟩
    · cases (arbiterChoose_latch hg hf hm).symm.trans chosen
      cases hg'.symm.trans (Sbc.seg_putSeg hg _)
      exact ⟨rfl, rfl, rfl, rfl⟩
    · cases (arbiterChoose_clear hg hf hm hy).symm.trans chosen
      cases hg'.symm.trans (Sbc.seg_putSeg (x := s.sbc.putStation _) hg _)
      exact ⟨rfl, Sbc.station_putStation _ _, rfl⟩
    · obtain ⟨-, hw⟩ := roundRobin_some.mp hr
      cases (arbiterChoose_station hg hf hm hc hr).symm.trans chosen
      cases hg'.symm.trans (Sbc.seg_putSeg (x := s.sbc.putStation _) hg _)
      refine ⟨rfl, rfl, rfl, _, stationChosen_station _ _ _ _ _ _, fun i hi => ?_, fun k hk => ?_, fun k hk => ?_,
        fun hp => ?_, fun i hi => ?_⟩
      · exact ⟨choice_page_credit (hi ▸ hw), by rw [hi]; rfl⟩
      · exact ⟨choice_ticket_credit (hk ▸ hw), by rw [hk]; rfl⟩
      · rw [hk]; rfl
      · rw [hp]; rfl
      · rw [hi]; rfl
    · cases (arbiterChoose_probe hg hf hm hc hr hp).symm.trans chosen
      cases hg'.symm.trans (Sbc.seg_putSeg hg _)
      exact ⟨rfl, rfl, rfl, rfl, rfl⟩
    · cases (arbiterChoose_nothing hg hf hm hc hr hp).symm.trans chosen
      rfl
  · simp [choice_panel_poll ht hr hp, Station.pollReady_iff, ht, hr]
  · simp [choice_terminal_poll ht hn hp, Station.pollReady_iff, ht]
  · rw [roundRobin_some, find_turn keyed, FirstInTurn.congr Station.serves_iff]
  · simp only [roundRobin_none, mem_onSegment keyed, and_imp]
  · rw [probeNext_some, find_turn keyed, FirstInTurn.congr fun z => beq_iff_eq]
  · have unanswered : f.work.awaited = none := by
      rcases hw with h | ⟨l, h⟩ <;> rw [h] <;> rfl
    have sent : frameSent n s.sbc = s.sbc.endFlight n := frameSent_eq hg hf unanswered
    exact ⟨_, runs_onSbc (f := fun _ b x => (b, frameSent n x)) rfl (congrArg (Prod.mk s.book) sent),
      Sbc.seg_endFlight hg, rfl, Sbc.endFlight_stations _ _⟩
  · subst hn ha
    refine ⟨_, runs_onSbc (f := fun t b x => (b, pollDue _ _ t x)) rfl rfl, rfl, fun k hk => ?_⟩
    have due := pollDue_eq (t := s.ctu) hx ho hk
    refine ⟨fun h => ?_, fun h => due.trans (if_neg (Nat.not_le.mpr h))⟩
    rw [due, if_pos h]
    exact Sbc.station_putStation _ _
  · refine ⟨_, runs_onSbc (f := fun t b x => (b, probeIntervalExpiry n t x)) rfl rfl, probeIntervalExpiry_stations _ _ _,
      rfl, fun k hk => ?_⟩
    have expired := probeIntervalExpiry_eq (t := s.ctu) hg hk
    refine ⟨fun h => ?_, fun h => expired.trans (if_neg (Nat.not_le.mpr h))⟩
    rw [expired, if_pos h]
    exact Sbc.seg_putSeg hg _

end Sys2Proof.Machine


/-! SUPPORT. The end of an attempt (R92, R95 to R97, R99): what an answer and the end of the wait do, by the four ways an
attempt can end. -/

namespace Sys2Proof.Machine

/-! ## Faults and failures -/

/-- R96: the record of a station that has faulted. -/
def Station.faulty (x : Station) : Station :=
  { bare x with state := .faulted, cause := some .fault, failures := 4, faults := bump 65535 x.faults }

theorem stationFault_eq (x : Station) (f : Transaction) (b : Book) (c : Sbc) :
    stationFault x f b c =
      ((b.handed (handedBack x (some f) ++ (ownerNews x.faulty).1) (ownerNews x.faulty).2).post
          (.stationState x.segment x.address x.type x.binding (b.stationCode x) x.state (some .faulted) .fault
            (bump 65535 x.faults) none (some f.work.frame)),
        (c.putStation x.faulty).endFlight x.segment) := by
  unfold stationFault
  simp only [handBack_eq, Book.tellOwner_eq, Book.handed_handed, List.nil_append]
  rfl

section

variable {s : State} {n : Nat} {g : Segment} {f : Transaction} {x : Station} {b : Book} {c : Sbc}

/-- R96, R108: what a fault leaves. -/
theorem stationFault_faulted (hg : s.sbc.seg n = some g) (hn : x.segment = n) (ha : x.address = f.address)
    (h : stationFault x f s.book s.sbc = (b, c)) : Faulted s { s with book := b, sbc := c } n g f x := by
  subst hn
  rw [stationFault_eq] at h
  cases h
  refine ⟨?_, fun k hk => ?_, Sbc.seg_endFlight hg, .of_handed (y := x.faulty) rfl rfl nofun rfl rfl rfl rfl, ?_⟩
  · rw [← ha]
    exact (Sbc.endFlight_station ..).trans (Sbc.station_putStation _ _)
  · rw [← ha] at hk
    rw [Sbc.endFlight_stations]
    exact Sbc.stations_putStation_ne _ _ hk
  · rw [← ha]
    rfl

/-- R97: a PROBE is sent once. -/
theorem attemptFailed_probe (hw : f.work = .probe) (b : Book) (c : Sbc) : attemptFailed n f b c = (b, c.endFlight n) := by
  simp only [attemptFailed, hw]

/-- R95: the frame of any other transaction is sent again up to the third failure; the fourth faults the station. -/
theorem attemptFailed_station (hw : f.work ≠ .probe) (hx : c.station n f.address = some x) (hg : c.seg n = some g) :
    attemptFailed n f b c =
      if x.failures < 3 then
        (b, (c.putStation { x with failures := x.failures + 1 }).putSeg n
          { g with inFlight := some { f with attempt := f.attempt + 1 } })
      else stationFault x f b c := by
  unfold attemptFailed
  split
  · contradiction
  · next h _ => exact nomatch hx.symm.trans h
  · next h _ =>
    cases hx.symm.trans h
    simp only [Sbc.putStation_seg, hg]

/-- R95: what a failure that is not the fourth leaves. -/
structure SentAgain (s t : State) (n : Nat) (g : Segment) (f : Transaction) (x : Station) : Prop where
  station : t.sbc.station n f.address = some { x with failures := x.failures + 1 }
  flight : t.sbc.seg n = some { g with inFlight := some { f with attempt := f.attempt + 1 } }
  book : t.book = s.book

theorem attemptFailed_sentAgain (hw : f.work ≠ .probe) (hx : s.sbc.station n f.address = some x)
    (hg : s.sbc.seg n = some g) (hn : x.segment = n) (ha : x.address = f.address) (hf : x.failures < 3)
    (h : attemptFailed n f s.book s.sbc = (b, c)) : SentAgain s { s with book := b, sbc := c } n g f x := by
  rw [attemptFailed_station hw hx hg, if_pos hf] at h
  cases h
  subst hn
  refine ⟨?_, Sbc.seg_putSeg (x := s.sbc.putStation _) hg _, rfl⟩
  rw [← ha]
  exact Sbc.station_putStation _ _

theorem attemptFailed_faulted (hw : f.work ≠ .probe) (hx : s.sbc.station n f.address = some x)
    (hg : s.sbc.seg n = some g) (hn : x.segment = n) (ha : x.address = f.address) (hf : 3 ≤ x.failures)
    (h : attemptFailed n f s.book s.sbc = (b, c)) : Faulted s { s with book := b, sbc := c } n g f x := by
  rw [attemptFailed_station hw hx hg, if_neg (Nat.not_lt.mpr hf)] at h
  exact stationFault_faulted hg hn ha h

/-! ## The wait and the answer -/

/-- R95: the wait for an answer runs out. -/
theorem replyWaitExpiry_eq (hg : c.seg n = some g) (hf : g.inFlight = some f) (hk : f.work.awaited.isSome = true) :
    replyWaitExpiry n b c = attemptFailed n f b c := by
  simp only [replyWaitExpiry, hg, Option.bind_some, hf, if_pos hk]

/-- R95: an answer that is received succeeds or fails. -/
theorem stationAnswer_eq {t : Ctu} {k : FrameKind} {l : List Byte} {body : AnswerBody} (hg : c.seg n = some g)
    (hf : g.inFlight = some f) (hk : f.work.awaited = some k) (hx : c.station n f.address = some x)
    (hr : frameReceived l = true) :
    stationAnswer n l body t b c =
      if (frameAnswers l f k && bodyValid x l k body) = true then attemptSucceeded t x f body b c
      else attemptFailed n f b c := by
  simp only [stationAnswer, hg, Option.bind_some, hf, hk, hx, hr, Bool.not_true, if_neg Bool.false_ne_true]

/-- R92: a frame that is not received changes nothing, so that the wait goes on. -/
theorem stationAnswer_notReceived {t : Ctu} {l : List Byte} {body : AnswerBody} (hr : frameReceived l = false) :
    stationAnswer n l body t b c = (b, c) := by
  unfold stationAnswer
  split
  · rfl
  · split
    · rw [hr]
      exact if_pos rfl
    · rfl

end

/-! ## Success -/

/-- R99: the record of a station after a POLL_ANSWER. -/
def Station.polled (t : Ctu) (x : Station) (credits shown : Nat) (events : List StationEvent) : Station :=
  { x.succeeded with
    credits := x.credits + credits
    shown := if x.type = .panel then BitVec.ofNat 16 shown else x.shown
    lastPoll := (t.clock.map (·.minute)).orElse fun _ => x.lastPoll
    resultsAwaited := if x.type = .panel then x.resultsAwaited + events.length else x.resultsAwaited }

/-- R95, R101, R102: the record of a station after the ACK of the work. -/
def Station.acked (x : Station) : Work → Station
  | .page i => { x.succeeded with delivered := (i.version, some i.kind) }
  | .result _ => { x.succeeded with results := x.results.drop 1 }
  | _ => x.succeeded

/-- R95, R97, R99: the record of a station after a valid answer to the work. -/
def Station.answered (t : Ctu) (x : Station) (w : Work) : AnswerBody → Station
  | .probe type credits =>
    if type = x.type ∧ creditsInRange x.type credits = true then x.found credits t.elapsed
    else { x with state := .mismatch, cause := some .mismatch }
  | .poll credits shown events => x.polled t credits shown events
  | _ => x.acked w

/-- R99: what a POLL_ANSWER hands to the station's owner: a panel's shown version, then the events in their order. -/
def pollNews (x : Station) (shown : Nat) (events : List StationEvent) : List (Nat × CscReport) × List (Nat × PpuReport) :=
  match x.type with
  | .panel =>
    ([], (x.segment, .shown x.address x.session (BitVec.ofNat 16 shown)) ::
      events.map fun e => (x.segment, .event x.address x.session x.binding e))
  | .terminal => (events.map fun e => (x.segment, .event x.binding x.address x.session e), [])

/-- R95, R103: what the ACK of the work tells the station's owner (log 106). -/
def ackNews (x : Station) : Work → List (Nat × CscReport) × List (Nat × PpuReport)
  | .page i => ([], [(x.segment, .delivered x.address i.version i.kind i.content.group)])
  | .ticket k => ([(x.segment, .ticketDelivered x.binding k.order k.serial), (x.segment, .slotFree x.binding true)], [])
  | .call k => ([(x.segment, .callDelivered x.binding k), (x.segment, .slotFree x.binding false)], [])
  | _ => ([], [])

theorem handEvent_panel {x : Station} (hx : x.type = .panel) (b : Book) (e : StationEvent) :
    b.handEvent x e = b.handed [] [(x.segment, .event x.address x.session x.binding e)] := by
  simp only [Book.handEvent, hx, Book.tellPanel_eq]

theorem handEvent_terminal {x : Station} (hx : x.type = .terminal) (b : Book) (e : StationEvent) :
    b.handEvent x e = b.handed [(x.segment, .event x.binding x.address x.session e)] [] := by
  simp only [Book.handEvent, hx, Book.tellKitchen_eq]

theorem handEvents_panel {x : Station} (hx : x.type = .panel) (l : List StationEvent) (b : Book) :
    l.foldl (fun b e => b.handEvent x e) b =
      b.handed [] (l.map fun e => (x.segment, .event x.address x.session x.binding e)) := by
  induction l generalizing b with
  | nil => exact b.handed_nil.symm
  | cons e l ih => rw [List.foldl_cons, ih, handEvent_panel hx, Book.handed_handed]; rfl

theorem handEvents_terminal {x : Station} (hx : x.type = .terminal) (l : List StationEvent) (b : Book) :
    l.foldl (fun b e => b.handEvent x e) b =
      b.handed (l.map fun e => (x.segment, .event x.binding x.address x.session e)) [] := by
  induction l generalizing b with
  | nil => exact b.handed_nil.symm
  | cons e l ih => rw [List.foldl_cons, ih, handEvent_terminal hx, Book.handed_handed]; rfl

theorem pollAnswered_eq (t : Ctu) (x : Station) (credits shown : Nat) (events : List StationEvent) (b : Book) (c : Sbc) :
    pollAnswered t x credits shown events b c =
      (b.handed (pollNews x shown events).1 (pollNews x shown events).2,
        (c.putStation (x.polled t credits shown events)).endFlight x.segment) := by
  cases hx : x.type with
  | panel =>
    simp [pollAnswered, handEvents_panel hx, pollNews, hx, Book.tellPanel_eq, Station.polled]
  | terminal =>
    simp [pollAnswered, handEvents_terminal hx, pollNews, hx, Station.polled]

theorem ackEffects_eq (x : Station) (w : Work) (b : Book) :
    ackEffects x w b = (b.handed (ackNews x w).1 (ackNews x w).2, x.acked w) := by
  cases w <;>
    simp [ackEffects, ackNews, Station.acked, Book.tellPanel_eq, Book.tellKitchen_eq, Book.handed_nil]

section

variable {t : Ctu} {x : Station} {f : Transaction} {b : Book} {c : Sbc}

/-- R97: a PROBE_ANSWER of the station's type, with its credits in range, brings the station ONLINE. -/
theorem attemptSucceeded_found {type : StationType} {credits : Nat}
    (h : type = x.type ∧ creditsInRange x.type credits = true) :
    attemptSucceeded t x f (.probe type credits) b c =
      ((b.handed (ownerNews (x.found credits t.elapsed)).1 (ownerNews (x.found credits t.elapsed)).2).post
          (.stationState x.segment x.address x.type x.binding (b.stationCode x) x.state (some .online) .found x.faults none
            none),
        (c.putStation (x.found credits t.elapsed)).endFlight x.segment) := by
  simp only [attemptSucceeded, probeAnswered, if_pos h, Book.tellOwner_eq]
  rfl

theorem attemptSucceeded_poll (credits shown : Nat) (events : List StationEvent) :
    (attemptSucceeded t x f (.poll credits shown events) b c).1 =
      b.handed (pollNews x shown events).1 (pollNews x shown events).2 := by
  rw [attemptSucceeded, pollAnswered_eq]

theorem attemptSucceeded_ack :
    (attemptSucceeded t x f .ack b c).1 = b.handed (ackNews x f.work).1 (ackNews x f.work).2 := by
  simp only [attemptSucceeded, ackEffects_eq]

/-- R95: a valid answer writes the station's record and ends the transaction. -/
theorem attemptSucceeded_sbc (body : AnswerBody) :
    (attemptSucceeded t x f body b c).2 = (c.putStation (x.answered t f.work body)).endFlight x.segment := by
  cases body with
  | probe type credits =>
    simp only [attemptSucceeded, probeAnswered, Station.answered]
    split <;> rfl
  | poll credits shown events => rw [attemptSucceeded, pollAnswered_eq, Station.answered]
  | ack | unreadable => simp only [attemptSucceeded, ackEffects_eq, Station.answered]

theorem Station.answered_place (body : AnswerBody) :
    (x.answered t f.work body).segment = x.segment ∧ (x.answered t f.work body).address = x.address := by
  cases body with
  | probe type credits =>
    simp only [Station.answered]
    split <;> exact ⟨rfl, rfl⟩
  | poll credits shown events => exact ⟨rfl, rfl⟩
  | ack | unreadable => cases hw : f.work <;> exact ⟨rfl, rfl⟩

end

/-- R100: a POLL_ANSWER that is valid returns no more credits than are outstanding. -/
theorem bodyValid_poll_credits {x : Station} {l : List Byte} {k : FrameKind} {credits shown : Nat}
    {events : List StationEvent} (h : bodyValid x l k (.poll credits shown events) = true) :
    credits ≤ x.advertised - x.credits := by
  simp only [bodyValid, pollValid, Bool.and_eq_true, decide_eq_true_eq] at h
  exact h.2.2

end Sys2Proof.Machine


/-! PROOFS. Attempts on the segments (R92, R95 to R100, R103). -/

namespace Sys2Proof.Machine

/-- R95: the state that a valid answer of the station `x` to the transaction `f` leaves. -/
def State.afterValid (s : State) (x : Station) (f : Transaction) (body : AnswerBody) : State :=
  { s with
    book := (attemptSucceeded s.ctu x f body s.book s.sbc).1, sbc := (attemptSucceeded s.ctu x f body s.book s.sbc).2 }

section

variable {s : State} {n : Nat} {g : Segment} {f : Transaction} {x : Station}

theorem stationAnswer_succeeds {l : List Byte} {body : AnswerBody} {k : FrameKind} (hg : s.sbc.seg n = some g)
    (hf : g.inFlight = some f) (hk : f.work.awaited = some k) (hx : s.sbc.station n f.address = some x)
    (hr : frameReceived l = true) (ha : frameAnswers l f k = true) (hb : bodyValid x l k body = true) :
    Runs (.stationAnswer n l body) s (s.afterValid x f body) :=
  runs_onSbc rfl ((stationAnswer_eq hg hf hk hx hr).trans (if_pos (by rw [ha, hb]; rfl)))

theorem stationAnswer_fails {l : List Byte} {body : AnswerBody} {k : FrameKind} {b : Book} {c : Sbc}
    (hg : s.sbc.seg n = some g) (hf : g.inFlight = some f) (hk : f.work.awaited = some k)
    (hx : s.sbc.station n f.address = some x) (hr : frameReceived l = true)
    (hv : (frameAnswers l f k && bodyValid x l k body) = false) (h : attemptFailed n f s.book s.sbc = (b, c)) :
    Runs (.stationAnswer n l body) s { s with book := b, sbc := c } :=
  runs_onSbc rfl ((stationAnswer_eq hg hf hk hx hr).trans ((if_neg (by rw [hv]; exact Bool.false_ne_true)).trans h))

theorem replyWaitExpiry_fails {b : Book} {c : Sbc} (hg : s.sbc.seg n = some g) (hf : g.inFlight = some f)
    (hk : f.work.awaited.isSome = true) (h : attemptFailed n f s.book s.sbc = (b, c)) :
    Runs (.replyWaitExpiry n) s { s with book := b, sbc := c } :=
  runs_onSbc (f := fun _ => replyWaitExpiry n) rfl ((replyWaitExpiry_eq hg hf hk).trans h)

theorem State.afterValid_seg (hg : s.sbc.seg n = some g) (hn : x.segment = n) (body : AnswerBody) :
    (s.afterValid x f body).sbc.seg n = some { g with inFlight := none } := by
  subst hn
  rw [State.afterValid, attemptSucceeded_sbc]
  exact Sbc.seg_endFlight hg

theorem State.afterValid_station (hn : x.segment = n) (ha : x.address = f.address) (body : AnswerBody) :
    (s.afterValid x f body).sbc.station n f.address = some (x.answered s.ctu f.work body) := by
  obtain ⟨hseg, haddr⟩ := Station.answered_place (t := s.ctu) (x := x) (f := f) body
  rw [State.afterValid, attemptSucceeded_sbc, Sbc.endFlight_station, ← hn, ← ha, ← hseg, ← haddr]
  exact Sbc.station_putStation _ _

theorem State.afterValid_poll (credits shown : Nat) (events : List StationEvent) :
    (s.afterValid x f (.poll credits shown events)).book =
      s.book.handed (pollNews x shown events).1 (pollNews x shown events).2 :=
  attemptSucceeded_poll (t := s.ctu) (f := f) (c := s.sbc) credits shown events

theorem State.afterValid_ack :
    (s.afterValid x f .ack).book = s.book.handed (ackNews x f.work).1 (ackNews x f.work).2 :=
  attemptSucceeded_ack (t := s.ctu) (c := s.sbc)

/-- R97, R108: a station that a PROBE finds is announced. -/
theorem State.afterValid_found {type : StationType} {credits : Nat}
    (h : type = x.type ∧ creditsInRange x.type credits = true) :
    (s.afterValid x f (.probe type credits)).book.hmp =
      s.book.hmp.post
        (.stationState x.segment x.address x.type x.binding (s.book.stationCode x) x.state (some .online) .found x.faults
          none none) := by
  rw [State.afterValid, attemptSucceeded_found h]
  rfl

end

/-- Settles O56: a valid answer by its body, a failure by the failures before it. -/
theorem attemptsSucceedOrFault : Obligations.AttemptsSucceedOrFault := by
  refine ⟨fun s n l body g f k x hg hf hk hx hn ha hr hans hb =>
      ⟨_, _, stationAnswer_succeeds hg hf hk hx hr hans hb, State.afterValid_seg hg hn body,
        State.afterValid_station hn ha body, ?_, ?_, ?_, ?_, ?_, ?_, ?_⟩,
    fun s n g f x hg hf hk hw hx hn ha =>
      ⟨_, replyWaitExpiry_fails hg hf hk rfl, fun hlt => ?again, fun hge => attemptFailed_faulted hw hx hg hn ha hge rfl⟩,
    fun s n l body g f k x hg hf hk hw hx hn ha hlt hr hv => ?answeredAgain,
    fun s n l body g f k x hg hf hk hw hx hn ha hge hr hv =>
      ⟨_, stationAnswer_fails hg hf hk hx hr hv rfl, attemptFailed_faulted hw hx hg hn ha hge rfl⟩,
    fun s n l body hr => ⟨_, runs_onSbc rfl (stationAnswer_notReceived hr), rfl, rfl⟩,
    fun s n l body g f x hg hf hw hx hr hv => ?probe⟩
  case again =>
    obtain ⟨station, flight, book⟩ := attemptFailed_sentAgain hw hx hg hn ha hlt rfl
    exact ⟨station, flight, book⟩
  case answeredAgain =>
    obtain ⟨station, flight, book⟩ := attemptFailed_sentAgain hw hx hg hn ha hlt rfl
    exact ⟨_, stationAnswer_fails hg hf hk hx hr hv rfl, book, station, flight⟩
  case probe =>
    have failed := attemptFailed_probe (n := n) hw s.book s.sbc
    have ended := Sbc.seg_endFlight hg
    have waits : f.work.awaited = some .probeAnswer := by rw [hw]; rfl
    exact ⟨_, _, replyWaitExpiry_fails hg hf (by rw [waits]; rfl) failed,
      stationAnswer_fails hg hf waits hx hr hv failed, rfl, Sbc.endFlight_stations _ _, ended, rfl,
      Sbc.endFlight_stations _ _, ended⟩
  all_goals subst hn
  · rintro type credits rfl htype hcredits
    rw [Station.answered, if_pos ⟨htype, hcredits⟩, ← ha]
    exact ⟨rfl, rfl, rfl, rfl, rfl, rfl, State.afterValid_found ⟨htype, hcredits⟩⟩
  · rintro type credits rfl h
    exact if_neg h
  · rintro credits shown events rfl
    rw [State.afterValid_poll, ← ha]
    refine ⟨rfl, rfl, rfl, rfl, fun hle => ?_, fun c hc => ?_, fun hc => ?_, fun hp => ?_, fun ht => ?_⟩
    · have outstanding := bodyValid_poll_credits hb
      show x.credits + credits ≤ x.advertised
      omega
    · simp [Station.answered, Station.polled, hc]
    · simp [Station.answered, Station.polled, hc]
    · simp [Station.answered, Station.polled, pollNews, hp]
    · simp [Station.answered, Station.polled, Station.succeeded, pollNews, ht]
  · rintro i rfl hw
    rw [State.afterValid_ack, ← ha, hw]
    exact ⟨rfl, rfl, rfl⟩
  · rintro i rfl hw
    rw [hw]
    rfl
  · rintro i rfl hw
    rw [State.afterValid_ack, hw]
    rfl
  · rintro c rfl hw
    rw [State.afterValid_ack, hw]
    exact ⟨rfl, rfl⟩

end Sys2Proof.Machine


/-! SUPPORT. What the SBC takes in (R101 to R103, R105, R106): for each item, what it does where it is taken and where it is
refused. -/

namespace Sys2Proof.Machine

/-! ## Items of the PPU -/

@[simp] theorem Book.popSbc_sbcToPpu (b : Book) : b.popSbc.mail.sbcToPpu = b.mail.sbcToPpu := rfl

theorem Book.popSbc_items {b : Book} {i : SbcItem} {l : List SbcItem} (h : b.mail.ppuToSbc = i :: l) :
    b.popSbc.mail.ppuToSbc = l := congrArg (List.drop 1) h

section

variable {b : Book} {c : Sbc} {g a : Nat} {x : Station} {l : List SbcItem}

theorem pageItem_taken {i : PageItem} (h : b.mail.ppuToSbc = .page g a i :: l) (hx : c.station g a = some x)
    (ho : x.state = .online) :
    pageItem b c = (b.popSbc, c.putStation { x with pageSlot := some (slotWith x.pageSlot i) }) := by
  simp only [pageItem, h, hx, if_pos ho]

theorem pageItem_refused {i : PageItem} (h : b.mail.ppuToSbc = .page g a i :: l) (hx : c.station g a = some x)
    (ho : x.state ≠ .online) : pageItem b c = (b.popSbc.handed [] [(g, .refused a)], c) := by
  simp only [pageItem, h, hx, if_neg ho, Book.tellPanel_eq]

/-- R101: the slot keeps the version and content of the later item, and the kind SHOW once one of them has it. -/
theorem slotWith_eq (old : Option PageItem) (i : PageItem) :
    slotWith old i = { i with kind := if old.any (fun o => o.kind = .display) then .display else i.kind } := by
  cases old with
  | none => rfl
  | some o => by_cases ho : o.kind = .display <;> by_cases hi : i.kind = .display <;> simp [slotWith, ho, hi]

/-- R102: the station takes the outcome of an event of its session. -/
def Station.awaits (x : Station) (n : BitVec 8) : Prop := x.state = .online ∧ x.session = n ∧ 0 < x.resultsAwaited

theorem Station.not_awaits_iff {n : BitVec 8} :
    ¬x.awaits n ↔ x.state ≠ .online ∨ x.session ≠ n ∨ x.resultsAwaited = 0 := by
  simp only [Station.awaits, not_and_or, Nat.not_lt, Nat.le_zero, ne_eq]

theorem resultItem_taken {n : BitVec 8} {i : ResultItem} (h : b.mail.ppuToSbc = .result g a n i :: l)
    (hx : c.station g a = some x) (hw : x.awaits n) :
    resultItem b c =
      (b.popSbc, c.putStation { x with results := x.results ++ [i], resultsAwaited := x.resultsAwaited - 1 }) := by
  unfold Station.awaits at hw
  simp only [resultItem, h, hx, if_pos hw]

theorem resultItem_refused {n : BitVec 8} {i : ResultItem} (h : b.mail.ppuToSbc = .result g a n i :: l)
    (hx : c.station g a = some x) (hw : ¬x.awaits n) :
    resultItem b c = (b.popSbc.handed [] [(g, .unsent a)], c) := by
  unfold Station.awaits at hw
  simp only [resultItem, h, hx, if_neg hw, Book.tellPanel_eq]

/-- R105: the groups join the masks of all four segments. -/
theorem latchHanded_eq {groups : List Nat} (h : b.mail.ppuToSbc = .latch groups :: l) :
    latchHanded b c =
      (b.popSbc, { c with segments := c.segments.mapAll fun g => { g with mask := maskWith g.mask groups } }) := by
  simp only [latchHanded, h]

end

theorem Segments.get_mapAll {x : Segments} {n : Nat} {g : Segment} (h : x.get n = some g) (f : Segment → Segment) :
    (x.mapAll f).get n = some (f g) := by
  match n with
  | 0 | 1 | 2 | 3 => exact congrArg (Option.map f) h
  | _ + 4 => exact nomatch h

theorem mem_maskWith {mask groups : List Nat} {k : Nat} (hk : k ≤ 31) :
    k ∈ maskWith mask groups ↔ k ∈ mask ∨ k ∈ groups := by
  simp [maskWith, Nat.lt_succ_of_le hk]

/-! ## Offers of the CSC -/

theorem modifyKitchen_kitchen {b : Book} {k : Nat} {kit : Kitchen} (h : b.csc.kitchen k = some kit)
    (f : Kitchen → Kitchen) : (b.modifyKitchen k f).csc.kitchen k = some (f kit) := by
  have found : b.csc.kitchens.find k = some kit := h
  simp only [Book.modifyKitchen, Csc.kitchen, Book.withCsc_csc, Table.find_modify, if_true, found, Option.map_some]

/-- An offer of a ticket is taken off the queue, whatever comes of it. -/
def Book.ticketOfferTaken (b : Book) (k : Nat) : Book :=
  b.withMail { b.mail with ticketOffers := b.mail.ticketOffers.erase k }

/-- An offer of a call is taken off the queue, whatever comes of it. -/
def Book.callOfferTaken (b : Book) (k : Nat) : Book :=
  b.withMail { b.mail with callOffers := b.mail.callOffers.erase k }

section

variable {b : Book} {c : Sbc} {k : Nat} {kit : Kitchen} {x : Station}

theorem ticketOffer_eq {id : Nat} {l : List Nat} {o : Order} (h : k ∈ b.mail.ticketOffers)
    (hk : b.csc.kitchen k = some kit) (hl : kit.tickets = id :: l) (ho : b.csc.orders.find id = some o)
    (hx : c.terminalOf k = some x) :
    ticketOffer k b c =
      if x.state = .online ∧ x.ticketSlot = none then
        (((b.ticketOfferTaken k).putOrder { o with ticket := .offered }).leaveTickets k o.id,
          c.putStation { x with ticketSlot := some (b.ticketFor o) })
      else (b.ticketOfferTaken k, c) := by
  simp [ticketOffer, h, hk, hl, ho, hx, Book.ticketOfferTaken, Book.ticketFor, Book.code]

theorem callOffer_eq {y : Call} {l : List Call} (h : k ∈ b.mail.callOffers) (hk : b.csc.kitchen k = some kit)
    (hl : kit.calls = y :: l) (hx : c.terminalOf k = some x) :
    callOffer k b c =
      if x.state = .online ∧ x.callSlot = none then
        ((b.callOfferTaken k).modifyKitchen k fun z => { z with calls := z.calls.drop 1, callOut := some y },
          c.putStation { x with callSlot := some y })
      else (b.callOfferTaken k, c) := by
  simp [callOffer, h, hk, hl, hx, Book.callOfferTaken]

end

/-! ## RESET_STATION -/

/-- R106: the record of a station that was reset. -/
def Station.wasReset (x : Station) : Station :=
  { bare x with
    state := .absent, cause := some .reset, failures := 0, delivered := (0, none), shown := 0, clearMark := true }

/-- R106, R108: the STATION_STATE of a reset. -/
def resetNotice (b : Book) (x : Station) : Notice :=
  .stationState x.segment x.address x.type x.binding (b.stationCode x) x.state (some .absent) .reset x.faults none none

/-- R106: what a reset station held goes back and its owner is told; a change of state is announced. -/
def Book.stationReset (b : Book) (x : Station) : Book :=
  let told := b.handed (handedBack x none ++ (ownerNews x.wasReset).1) (ownerNews x.wasReset).2
  if x.state = .absent then told else told.post (resetNotice b x)

theorem resetTaken_eq (x : Station) (b : Book) (c : Sbc) :
    resetTaken x b c = (b.stationReset x, c.putStation x.wasReset) := by
  unfold resetTaken
  simp only [handBack_eq, Book.tellOwner_eq, Book.handed_handed, List.nil_append]
  rfl

theorem resetStation_eq {b : Book} {c : Sbc} {q : Ctx} {g a : Nat} {x : Station} {rest : List Handed}
    (h : takeFirst (resetReady c) b.mail.requests = some ({ ctx := q, request := .resetStation g a }, rest))
    (hg : g ≤ 3) (h1 : 1 ≤ a) (h48 : a ≤ 48) (hx : c.station g a = some x) :
    resetStation b c =
      (((b.withRequests rest).stationReset x).reply q (Answer.ok (.stationReset g a x.state)), c.putStation x.wasReset) := by
  simp [resetStation, Book.pickRequest, h, stationRange, hg, h1, h48, hx, resetTaken_eq]

theorem stationReset_mail (b : Book) (x : Station) :
    (b.stationReset x).mail =
      (b.handed (handedBack x none ++ (ownerNews x.wasReset).1) (ownerNews x.wasReset).2).mail := by
  unfold Book.stationReset
  dsimp only
  split <;> rfl

theorem stationReset_hmp (b : Book) (x : Station) :
    (b.stationReset x).hmp = if x.state = .absent then b.hmp else b.hmp.post (resetNotice b x) := by
  unfold Book.stationReset
  dsimp only
  split <;> rfl

end Sys2Proof.Machine

/-! PROOFS. Items, offers, latches and resets at the SBC (R101 to R103, R105, R106). -/

namespace Sys2Proof.Machine

/-- Settles O57: each item by whether the station takes it; RESET_STATION by the record and the hand-overs it leaves. -/
theorem stationsTakeItemsAndResets : Obligations.StationsTakeItemsAndResets := by
  refine ⟨fun s g a i l x hm hx hg ha => ?_, fun s g a n i l x hm hx hg ha => ?_, fun s groups l hm => ?_,
    fun s k kit id l o x hk hkit hl ho hid hx hst => ?_, fun s k kit c l x hk hkit hl hx hst => ?_,
    fun s c g a x rest hq hg3 h1 h48 hx hg ha => ?_⟩
  · subst hg ha
    by_cases ho : x.state = .online
    · refine ⟨_, runs_onSbc (f := fun _ => pageItem) rfl (pageItem_taken hm hx ho), Book.popSbc_items hm,
        fun _ => ⟨_, Sbc.station_putStation _ _, ?_⟩, fun h => absurd ho h⟩
      rw [slotWith_eq]
      refine ⟨rfl, rfl, fun hi => ?_, fun hn => ?_, fun o hs hd => ?_, fun o hs hd => ?_, rfl⟩
      · simp [hi]
      · simp [hn]
      · simp [hs, hd]
      · simp [hs, hd]
    · exact ⟨_, runs_onSbc (f := fun _ => pageItem) rfl (pageItem_refused hm hx ho), Book.popSbc_items hm,
        fun h => absurd h ho, fun _ => ⟨rfl, rfl⟩⟩
  · subst hg ha
    by_cases hw : x.awaits n
    · exact ⟨_, runs_onSbc (f := fun _ => resultItem) rfl (resultItem_taken hm hx hw), Book.popSbc_items hm,
        fun _ _ _ => Sbc.station_putStation _ _, fun h => absurd hw (Station.not_awaits_iff.mpr h)⟩
    · exact ⟨_, runs_onSbc (f := fun _ => resultItem) rfl (resultItem_refused hm hx hw), Book.popSbc_items hm,
        fun online session awaited => absurd ⟨online, session, awaited⟩ hw, fun _ => ⟨rfl, rfl⟩⟩
  · exact ⟨_, runs_onSbc (f := fun _ => latchHanded) rfl (latchHanded_eq hm), Book.popSbc_items hm, rfl,
      fun n g hg => ⟨_, Segments.get_mapAll hg _, rfl, fun k hk => mem_maskWith hk⟩⟩
  · subst hid
    have offered := ticketOffer_eq hk hkit hl ho hx
    by_cases ht : x.state = .online ∧ x.ticketSlot = none
    · rw [if_pos ht] at offered
      refine ⟨_, runs_onSbc (f := fun _ => ticketOffer k) rfl offered, rfl,
        fun _ _ => ⟨Table.find_put_self _ _ _, ⟨_, Sbc.station_putStation _ _, rfl, rfl, rfl, rfl, rfl⟩,
          _, modifyKitchen_kitchen (b := (s.book.ticketOfferTaken k).putOrder _) hkit _, by simp⟩,
        fun h => absurd ht (not_and_or.mpr h)⟩
    · rw [if_neg ht] at offered
      exact ⟨_, runs_onSbc (f := fun _ => ticketOffer k) rfl offered, rfl,
        fun online free => absurd ⟨online, free⟩ ht, fun _ => ⟨rfl, rfl⟩⟩
  · have offered := callOffer_eq hk hkit hl hx
    by_cases ht : x.state = .online ∧ x.callSlot = none
    · rw [if_pos ht] at offered
      refine ⟨_, runs_onSbc (f := fun _ => callOffer k) rfl offered, rfl, fun _ _ => ⟨Sbc.station_putStation _ _, ?_⟩,
        fun h => absurd ht (not_and_or.mpr h)⟩
      rw [modifyKitchen_kitchen (b := s.book.callOfferTaken k) hkit, hl]
      rfl
    · rw [if_neg ht] at offered
      exact ⟨_, runs_onSbc (f := fun _ => callOffer k) rfl offered, rfl,
        fun online free => absurd ⟨online, free⟩ ht, fun _ => ⟨rfl, rfl⟩⟩
  · subst hg ha
    have mail := stationReset_mail (s.book.withRequests rest) x
    have hmp := stationReset_hmp (s.book.withRequests rest) x
    refine ⟨_, runs_onSbc (f := fun _ => resetStation) rfl (resetStation_eq hq hg3 h1 h48 hx), ?_, rfl,
      Sbc.station_putStation _ _, fun k hk => Sbc.stations_putStation_ne _ _ hk,
      .of_handed (y := x.wasReset) ?_ ?_ nofun rfl rfl rfl rfl, fun h => ?_, fun h => ?_⟩
    · rw [Book.reply_mail, mail]
      rfl
    · rw [Book.reply_mail, mail]
      rfl
    · rw [Book.reply_mail, mail]
      rfl
    · rw [if_pos h] at hmp
      rw [← h]
      exact Book.reply_replied _ _ _ _ _ rfl (congrArg Hmp.out hmp)
    · rw [if_neg h] at hmp
      obtain ⟨more, out, last⟩ := Book.reply_out _ c (Answer.ok (.stationReset x.segment x.address x.state))
      exact ⟨more, out.trans (by rw [hmp]; rfl), last⟩

end Sys2Proof.Machine

/-! SUPPORT. What the PPU hands the SBC, and what its builds leave (R112, R115): one rule for each operation, so that no
proof about a step of the PPU opens a page, a view or the mail. -/

namespace Sys2Proof.Machine

/-- A command of the PPU runs to what its operation answers. -/
theorem runs_onPpu {i : Instr} {s : State} {f : Ctu → Book → Ppu → Book × Ppu} {r : Book × Ppu}
    (hi : exec i s = onPpu f s) (hf : f s.ctu s.book s.ppu = r) : Runs i s { s with book := r.1, ppu := r.2 } := by
  unfold Runs onPpu at *
  rw [hi, hf]

/-! ## What is handed to the SBC -/

/-- The book with the items handed to the SBC, behind those handed before. -/
def Book.toSbcs (b : Book) (l : List SbcItem) : Book := b.withMail { b.mail with ppuToSbc := b.mail.ppuToSbc ++ l }

section

variable (b : Book) (l : List SbcItem)

@[simp] theorem Book.toSbcs_ppuToSbc : (b.toSbcs l).mail.ppuToSbc = b.mail.ppuToSbc ++ l := rfl

theorem Book.toSbcs_nil : b.toSbcs [] = b := by
  simp [Book.toSbcs, Book.withMail]

@[simp] theorem Book.toSbcs_toSbcs (m : List SbcItem) : (b.toSbcs l).toSbcs m = b.toSbcs (l ++ m) := by
  simp [Book.toSbcs, Book.withMail]

end

/-- The item of kind `kind` by which a page is handed to a panel. -/
def pageFor (kind : PageKind) (v : PanelView) (pg : Page) : SbcItem :=
  .page v.segment v.address { kind := kind, version := pg.version, content := pg.content }

theorem Ppu.view_putView (p : Ppu) (v : PanelView) : (p.putView v).view v.segment v.address = some v :=
  Table.find_put_self _ _ _

theorem handPage_online {kind : PageKind} {v : PanelView} {b : Book} {p : Ppu} {pg : Page} (ho : v.online = true)
    (hp : p.pages.find v.room = some pg) :
    handPage kind v b p = (b.toSbcs [pageFor kind v pg], p.putView (v.handed pg.version kind)) := by
  simp only [handPage, ho, hp]
  rfl

/-- R115, R123: nothing is handed to a panel that is not ONLINE, nor for a room without a page. -/
theorem handPage_none {kind : PageKind} {v : PanelView} {b : Book} {p : Ppu}
    (h : v.online = false ∨ p.pages.find v.room = none) : handPage kind v b p = (b, p) := by
  unfold handPage
  split
  · next ho hp => rw [ho, hp] at h; simp at h
  · rfl

/-! ## What a build is made from -/

/-- R112 to R114: the inputs of every build are the same; the mail, the views, the waits and the pages may differ. -/
structure SameInputs (r r' : Book × Ppu) : Prop where
  bke : r'.1.bke = r.1.bke
  rooms : r'.2.rooms = r.2.rooms
  groups : r'.2.groups = r.2.groups
  horizon : r'.2.horizon = r.2.horizon
  dark : r'.2.darkPeriod = r.2.darkPeriod
  coming : r'.2.coming = r.2.coming

namespace SameInputs

variable {r r' r'' : Book × Ppu}

theorem refl (r : Book × Ppu) : SameInputs r r := ⟨rfl, rfl, rfl, rfl, rfl, rfl⟩

theorem trans (h : SameInputs r r') (h' : SameInputs r' r'') : SameInputs r r'' :=
  ⟨h'.bke.trans h.bke, h'.rooms.trans h.rooms, h'.groups.trans h.groups, h'.horizon.trans h.horizon,
    h'.dark.trans h.dark, h'.coming.trans h.coming⟩

theorem isLatched (h : SameInputs r r') (g : Nat) : r'.2.isLatched g = r.2.isLatched g := by
  simp only [Ppu.isLatched, h.groups]

theorem reference (h : SameInputs r r') (t : Ctu) (g : Nat) : r'.2.reference t g = r.2.reference t g := by
  simp only [Ppu.reference, h.isLatched, h.coming]

/-- R112: no build reads the mail, the views, the waits or another page. -/
theorem content (h : SameInputs r r') (t : Ctu) (x : Nat) (rm : Room) (pg : Page) (ref : CurSlot) :
    r'.2.content t r'.1 x rm pg ref = r.2.content t r.1 x rm pg ref := by
  obtain ⟨⟨_, _, _, bke, _, _, _⟩, rooms, groups, horizon, dark, coming, _, _, _⟩ := r
  obtain ⟨⟨_, _, _, bke', _, _, _⟩, rooms', groups', horizon', dark', coming', _, _, _⟩ := r'
  obtain ⟨rfl, rfl, rfl, rfl, rfl, rfl⟩ := h
  rfl

end SameInputs

/-! ## What the handing of pages leaves -/

/-- Items are handed to the SBC, and the views of panels change; nothing else does. -/
structure Hands (r r' : Book × Ppu) : Prop where
  book : ∃ l, r'.1 = r.1.toSbcs l
  ppu : r'.2 = { r.2 with views := r'.2.views }

/-- Items are handed to the SBC, and the pages and the views of panels change; nothing else does. -/
structure Builds (r r' : Book × Ppu) : Prop where
  book : ∃ l, r'.1 = r.1.toSbcs l
  ppu : r'.2 = { r.2 with pages := r'.2.pages, views := r'.2.views }

theorem Hands.refl (r : Book × Ppu) : Hands r r := ⟨⟨[], r.1.toSbcs_nil.symm⟩, rfl⟩

theorem Hands.trans {r r' r'' : Book × Ppu} (h : Hands r r') (h' : Hands r' r'') : Hands r r'' := by
  obtain ⟨⟨l, book⟩, ppu⟩ := h
  obtain ⟨⟨l', book'⟩, ppu'⟩ := h'
  refine ⟨⟨l ++ l', by rw [book', book, Book.toSbcs_toSbcs]⟩, ?_⟩
  rw [ppu', ppu]

theorem Hands.pages {r r' : Book × Ppu} (h : Hands r r') : r'.2.pages = r.2.pages := by rw [h.ppu]

theorem Hands.waits {r r' : Book × Ppu} (h : Hands r r') : r'.2.waits = r.2.waits := by rw [h.ppu]

theorem Hands.builds {r r' : Book × Ppu} (h : Hands r r') : Builds r r' :=
  ⟨h.book, by rw [h.ppu]⟩

namespace Builds

variable {r r' r'' : Book × Ppu}

theorem refl (r : Book × Ppu) : Builds r r := (Hands.refl r).builds

theorem trans (h : Builds r r') (h' : Builds r' r'') : Builds r r'' := by
  obtain ⟨⟨l, book⟩, ppu⟩ := h
  obtain ⟨⟨l', book'⟩, ppu'⟩ := h'
  refine ⟨⟨l ++ l', by rw [book', book, Book.toSbcs_toSbcs]⟩, ?_⟩
  rw [ppu', ppu]

theorem putPage (r : Book × Ppu) (x : Nat) (pg : Page) : Builds r (r.1, r.2.putPage x pg) :=
  ⟨⟨[], r.1.toSbcs_nil.symm⟩, rfl⟩

theorem mail (h : Builds r r') : r'.1.mail = { r.1.mail with ppuToSbc := r'.1.mail.ppuToSbc } := by
  obtain ⟨⟨l, book⟩, -⟩ := h
  rw [book]
  rfl

theorem waits (h : Builds r r') : r'.2.waits = r.2.waits := by rw [h.ppu]

theorem sameInputs (h : Builds r r') : SameInputs r r' := by
  obtain ⟨⟨l, book⟩, ppu⟩ := h
  rw [show r' = (r'.1, r'.2) from rfl, book, ppu]
  exact ⟨rfl, rfl, rfl, rfl, rfl, rfl⟩

end Builds

theorem handPage_hands (kind : PageKind) (v : PanelView) (b : Book) (p : Ppu) : Hands (b, p) (handPage kind v b p) := by
  unfold handPage
  split
  · exact ⟨⟨_, rfl⟩, rfl⟩
  · exact .refl _

theorem handRoom_hands (kind : PageKind) (x : Nat) (r : Book × Ppu) : Hands r (handRoom kind x r) :=
  List.foldlRecOn (motive := Hands r) _ _ (.refl r) fun _ h v _ => h.trans (handPage_hands kind v _ _)

/-! ## The page built -/

/-- R112 to R115: a page as a build leaves it; a room without a record in the directory is not built. -/
def Ppu.built (p : Ppu) (t : Ctu) (b : Book) (x : Nat) (pg : Page) : Page :=
  match p.rooms.find x with
  | none => pg
  | some rm =>
    let ref := p.reference t rm.group
    let c := p.content t b x rm pg ref
    { pg with
      reference := ref, content := c, version := if c = pg.content then pg.version else nextVersion pg.version }

section

variable {p : Ppu} {t : Ctu} {b : Book} {x : Nat}

@[simp] theorem Ppu.built_overlay (pg : Page) : (p.built t b x pg).overlay = pg.overlay := by
  unfold Ppu.built; split <;> rfl

@[simp] theorem Ppu.built_release (pg : Page) : (p.built t b x pg).release = pg.release := by
  unfold Ppu.built; split <;> rfl

theorem Ppu.built_room {rm : Room} (h : p.rooms.find x = some rm) (pg : Page) :
    p.built t b x pg =
      { pg with
        reference := p.reference t rm.group, content := p.content t b x rm pg (p.reference t rm.group)
        version :=
          if p.content t b x rm pg (p.reference t rm.group) = pg.content then pg.version
          else nextVersion pg.version } := by
  simp only [Ppu.built, h]

theorem Ppu.built_roomless (h : p.rooms.find x = none) (pg : Page) : p.built t b x pg = pg := by
  simp only [Ppu.built, h]

/-- R115: a page built anew from the same inputs stays as it is. -/
theorem Ppu.built_built (pg : Page) : p.built t b x (p.built t b x pg) = p.built t b x pg := by
  cases h : p.rooms.find x with
  | none => simp only [Ppu.built_roomless h]
  | some rm =>
    have again : p.content t b x rm (p.built t b x pg) (p.reference t rm.group) = (p.built t b x pg).content := by
      rw [Ppu.built_room h]
      rfl
    rw [Ppu.built_room h (p.built t b x pg), again, if_pos rfl, Ppu.built_room h]

end

theorem SameInputs.built {r r' : Book × Ppu} (h : SameInputs r r') (t : Ctu) (x : Nat) :
    r'.2.built t r'.1 x = r.2.built t r.1 x := by
  funext pg
  simp only [Ppu.built, h.rooms, h.reference, h.content]

/-! ## One build -/

section

variable {t : Ctu} {cause : BuildCause} {r : Book × Ppu} {x : Nat}

theorem buildPage_eq {rm : Room} {pg : Page} (hrm : r.2.rooms.find x = some rm) (hpg : r.2.pages.find x = some pg) :
    buildPage t cause r x =
      if (r.2.built t r.1 x pg).content = pg.content then (r.1, r.2.putPage x (r.2.built t r.1 x pg))
      else
        handRoom (cause.kindFor (r.2.isLatched rm.group) x) x (r.1, r.2.putPage x (r.2.built t r.1 x pg)) := by
  simp only [buildPage, hrm, hpg, Ppu.built_room hrm]
  split
  · next same => rw [same]
  · rfl

theorem buildPage_none (h : r.2.rooms.find x = none ∨ r.2.pages.find x = none) : buildPage t cause r x = r := by
  unfold buildPage
  split
  · next hrm hpg => rw [hrm, hpg] at h; simp at h
  · rfl

theorem buildPage_builds : Builds r (buildPage t cause r x) := by
  cases hrm : r.2.rooms.find x with
  | none => rw [buildPage_none (.inl hrm)]; exact .refl r
  | some rm =>
    cases hpg : r.2.pages.find x with
    | none => rw [buildPage_none (.inr hpg)]; exact .refl r
    | some pg =>
      rw [buildPage_eq hrm hpg]
      split
      · exact .putPage r x _
      · exact (Builds.putPage r x _).trans (handRoom_hands _ x _).builds

theorem buildPage_pages (y : Nat) :
    (buildPage t cause r x).2.pages.find y =
      if y = x then (r.2.pages.find x).map (r.2.built t r.1 x) else r.2.pages.find y := by
  cases hpg : r.2.pages.find x with
  | none =>
    rw [buildPage_none (.inr hpg)]
    split
    · next h => rw [h, hpg]; rfl
    · rfl
  | some pg =>
    cases hrm : r.2.rooms.find x with
    | none =>
      rw [buildPage_none (.inl hrm)]
      split
      · next h => rw [h, hpg, Option.map_some, Ppu.built_roomless hrm]
      · rfl
    | some rm =>
      have pages : (buildPage t cause r x).2.pages = r.2.pages.put x (r.2.built t r.1 x pg) := by
        rw [buildPage_eq hrm hpg]
        split
        · rfl
        · exact (handRoom_hands _ x _).pages
      rw [pages, Table.find_put, Option.map_some]

end

/-! ## The builds of a claim -/

section

variable {t : Ctu} {cause : BuildCause} {l : List Nat} {r : Book × Ppu}

theorem buildPages_builds : Builds r (buildPages t cause l r) :=
  List.foldlRecOn (motive := Builds r) _ _ (.refl r) fun _ h _ _ => h.trans buildPage_builds

/-- R115: the pages of the rooms given are built, and no other. -/
theorem buildPages_pages (x : Nat) :
    (buildPages t cause l r).2.pages.find x =
      if x ∈ l then (r.2.pages.find x).map (r.2.built t r.1 x) else r.2.pages.find x := by
  induction l generalizing r with
  | nil => rfl
  | cons y l ih =>
    have later := ih (r := buildPage t cause r y)
    rw [buildPage_builds.sameInputs.built, buildPage_pages] at later
    refine later.trans ?_
    by_cases hx : x = y
    · subst hx
      have twice : r.2.built t r.1 x ∘ r.2.built t r.1 x = r.2.built t r.1 x := funext Ppu.built_built
      simp [Option.map_map, twice]
    · simp [hx]

end

/-! ## The one panel of a table -/

/-- The panel itself, whatever it was handed: its place, its room and its link. -/
structure SamePanel (v v' : PanelView) : Prop where
  segment : v'.segment = v.segment
  address : v'.address = v.address
  room : v'.room = v.room
  online : v'.online = v.online

theorem SamePanel.refl (v : PanelView) : SamePanel v v := ⟨rfl, rfl, rfl, rfl⟩

theorem SamePanel.trans {v v' v'' : PanelView} (h : SamePanel v v') (h' : SamePanel v' v'') : SamePanel v v'' :=
  ⟨h'.segment.trans h.segment, h'.address.trans h.address, h'.room.trans h.room, h'.online.trans h.online⟩

theorem SamePanel.handed (v : PanelView) (version : Half) (kind : PageKind) : SamePanel v (v.handed version kind) :=
  ⟨rfl, rfl, rfl, rfl⟩

theorem SamePanel.pageFor {v v' : PanelView} (h : SamePanel v v') (kind : PageKind) (pg : Page) :
    pageFor kind v' pg = Machine.pageFor kind v pg := by
  simp only [Machine.pageFor, h.segment, h.address]

/-- The table of panels holds this one alone. -/
def OnlyPanel (p : Ppu) (v : PanelView) : Prop :=
  ∃ v', p.views.entries = [(stationKey v.segment v.address, v')] ∧ SamePanel v v'

section

variable {t : Ctu} {cause : BuildCause} {r : Book × Ppu} {v : PanelView} {kind : PageKind} {x : Nat} {pg : Page}

theorem handRoom_other (h : OnlyPanel r.2 v) (hx : x ≠ v.room) : handRoom kind x r = r := by
  obtain ⟨v', entries, same⟩ := h
  have none : (r.2.views.values.filter fun y => y.room == x) = [] := by
    simp [Table.values, entries, same.room, Ne.symm hx]
  rw [handRoom, none, List.foldl_nil]

theorem handRoom_own (h : OnlyPanel r.2 v) (ho : v.online = true) (hpg : r.2.pages.find v.room = some pg) :
    OnlyPanel (handRoom kind v.room r).2 v ∧ (handRoom kind v.room r).1 = r.1.toSbcs [pageFor kind v pg] := by
  obtain ⟨v', entries, same⟩ := h
  have one : (r.2.views.values.filter fun y => y.room == v.room) = [v'] := by
    simp [Table.values, entries, same.room]
  rw [← same.room] at hpg
  rw [handRoom, one, List.foldl_cons, List.foldl_nil, handPage_online (same.online.trans ho) hpg, same.pageFor]
  refine ⟨⟨_, ?_, same.trans (.handed v' pg.version kind)⟩, rfl⟩
  have key : stationKey (v'.handed pg.version kind).segment (v'.handed pg.version kind).address =
      stationKey v.segment v.address := congrArg₂ stationKey same.segment same.address
  simp [Ppu.putView, Table.put, entries, key, putKey]

theorem buildPage_onlyPanel_other (h : OnlyPanel r.2 v) (hx : x ≠ v.room) :
    OnlyPanel (buildPage t cause r x).2 v ∧ (buildPage t cause r x).1 = r.1 := by
  cases hrm : r.2.rooms.find x with
  | none => rw [buildPage_none (.inl hrm)]; exact ⟨h, rfl⟩
  | some rm =>
    cases hpg : r.2.pages.find x with
    | none => rw [buildPage_none (.inr hpg)]; exact ⟨h, rfl⟩
    | some pg =>
      rw [buildPage_eq hrm hpg, handRoom_other (r := (r.1, r.2.putPage x _)) h hx, ite_self]
      exact ⟨h, rfl⟩

/-- R115: what the panel is handed where its room's page changes from `pg` to `pg'`. -/
def itemsFor (kind : PageKind) (v : PanelView) (pg pg' : Page) : List SbcItem :=
  if pg'.content = pg.content then [] else [pageFor kind v pg']

theorem buildPage_onlyPanel_own {rm : Room} (h : OnlyPanel r.2 v) (ho : v.online = true)
    (hrm : r.2.rooms.find v.room = some rm) (hpg : r.2.pages.find v.room = some pg) :
    OnlyPanel (buildPage t cause r v.room).2 v ∧
      (buildPage t cause r v.room).1 =
        r.1.toSbcs
          (itemsFor (cause.kindFor (r.2.isLatched rm.group) v.room) v pg (r.2.built t r.1 v.room pg)) := by
  rw [buildPage_eq hrm hpg, itemsFor]
  split
  · exact ⟨h, r.1.toSbcs_nil.symm⟩
  · exact handRoom_own h ho (Table.find_put_self _ _ _)

/-- R115: over the builds of a claim the one panel is handed its room's page once, where its content changes. -/
theorem buildPages_onlyPanel {l : List Nat} {rm : Room} (h : OnlyPanel r.2 v) (ho : v.online = true)
    (hrm : r.2.rooms.find v.room = some rm) (hpg : r.2.pages.find v.room = some pg) :
    (buildPages t cause l r).1 =
      r.1.toSbcs
        (if v.room ∈ l then
          itemsFor (cause.kindFor (r.2.isLatched rm.group) v.room) v pg (r.2.built t r.1 v.room pg)
        else []) := by
  induction l generalizing r pg with
  | nil => exact r.1.toSbcs_nil.symm
  | cons x l ih =>
    have inputs : SameInputs r (buildPage t cause r x) := buildPage_builds.sameInputs
    have room := (congrArg (fun d => d.find v.room) inputs.rooms).trans hrm
    have page := buildPage_pages (t := t) (cause := cause) (r := r) (x := x) v.room
    rw [hpg] at page
    by_cases hx : v.room = x
    · subst hx
      obtain ⟨only, first⟩ := buildPage_onlyPanel_own (t := t) (cause := cause) h ho hrm hpg
      rw [if_pos rfl, hpg, Option.map_some] at page
      have none : itemsFor (cause.kindFor (r.2.isLatched rm.group) v.room) v (r.2.built t r.1 v.room pg)
          ((buildPage t cause r v.room).2.built t (buildPage t cause r v.room).1 v.room (r.2.built t r.1 v.room pg)) =
          [] := by
        rw [inputs.built, Ppu.built_built, itemsFor, if_pos rfl]
      refine (ih only room page).trans ?_
      rw [inputs.isLatched, none, ite_self, first, Book.toSbcs_nil, if_pos List.mem_cons_self]
    · obtain ⟨only, first⟩ := buildPage_onlyPanel_other (t := t) (cause := cause) h (Ne.symm hx)
      rw [if_neg hx] at page
      refine (ih only room page).trans ?_
      rw [inputs.isLatched, inputs.built, first]
      simp only [List.mem_cons, hx, false_or]

end

end Sys2Proof.Machine

/-! SUPPORT. What the builds of a claim leave (R115), and what its latches leave (R120). -/

namespace Sys2Proof.Machine

/-! ## Before the builds and after them -/

/-- What a claim of the PPU leaves as it was before it builds: the directory, the groups, the panels, what was handed,
and of each page what the panels see. -/
structure ReadyToBuild (s : State) (r : Book × Ppu) : Prop where
  rooms : r.2.rooms = s.ppu.rooms
  groups : r.2.groups = s.ppu.groups
  views : r.2.views = s.ppu.views
  sent : r.1.mail.ppuToSbc = s.book.mail.ppuToSbc
  pages : ∀ x pg, s.ppu.pages.find x = some pg →
    ∃ pg0, r.2.pages.find x = some pg0 ∧ pg0.content = pg.content ∧ pg0.version = pg.version

/-- The claim ends with the pages that its builds leave and what they are made from, and hands `m` behind what they
hand. -/
structure AfterBuilds (s t : State) (cause : BuildCause) (l : List Nat) (r : Book × Ppu) (m : List SbcItem) : Prop where
  pages : t.ppu.pages = (buildPages s.ctu cause l r).2.pages
  inputs : SameInputs (buildPages s.ctu cause l r) (t.book, t.ppu)
  sent : t.book.mail.ppuToSbc = (buildPages s.ctu cause l r).1.mail.ppuToSbc ++ m

section

variable {s t : State} {r : Book × Ppu} {cause : BuildCause} {l : List Nat} {m : List SbcItem}

theorem ReadyToBuild.of_pages (rooms : r.2.rooms = s.ppu.rooms) (groups : r.2.groups = s.ppu.groups)
    (views : r.2.views = s.ppu.views) (sent : r.1.mail.ppuToSbc = s.book.mail.ppuToSbc)
    (pages : r.2.pages = s.ppu.pages) : ReadyToBuild s r :=
  ⟨rooms, groups, views, sent, fun _ pg h => ⟨pg, pages ▸ h, rfl, rfl⟩⟩

theorem ReadyToBuild.isLatched (ready : ReadyToBuild s r) (g : Nat) : r.2.isLatched g = s.ppu.isLatched g := by
  simp only [Ppu.isLatched, ready.groups]

theorem AfterBuilds.find (done : AfterBuilds s t cause l r m) (x : Nat) :
    t.ppu.pages.find x =
      if x ∈ l then (r.2.pages.find x).map (r.2.built s.ctu r.1 x) else r.2.pages.find x := by
  rw [done.pages, buildPages_pages]

theorem AfterBuilds.sameInputs (done : AfterBuilds s t cause l r m) : SameInputs r (t.book, t.ppu) :=
  buildPages_builds.sameInputs.trans done.inputs

/-- R115: no build changes an overlay setting or a release mark. -/
theorem AfterBuilds.kept (done : AfterBuilds s t cause l r m) {x : Nat} {pg : Page} (h : r.2.pages.find x = some pg) :
    ∃ pg', t.ppu.pages.find x = some pg' ∧ pg'.overlay = pg.overlay ∧ pg'.release = pg.release := by
  rw [done.find, h]
  split
  · exact ⟨_, rfl, Ppu.built_overlay pg, Ppu.built_release pg⟩
  · exact ⟨pg, rfl, rfl, rfl⟩

/-- R112 to R115: each page that the claim builds is built. -/
theorem AfterBuilds.pageBuilt (done : AfterBuilds s t cause l r m) (ready : ReadyToBuild s r) {x : Nat} (hx : x ∈ l) :
    PageBuilt s t x := by
  intro rm pg hrm hpg
  obtain ⟨pg0, found, content, version⟩ := ready.pages x pg hpg
  have room : r.2.rooms.find x = some rm := ready.rooms ▸ hrm
  have same := done.sameInputs
  refine ⟨r.2.built s.ctu r.1 x pg0, ?_, ?_, ?_, fun h => ?_, fun h => ?_⟩
  · rw [done.find, if_pos hx, found, Option.map_some]
  · rw [same.reference, Ppu.built_room room]
  · rw [same.content, Ppu.built_room room]
    rfl
  · rw [← content] at h
    rw [← version]
    rw [Ppu.built_room room] at h ⊢
    exact if_pos h
  · rw [← content] at h
    rw [← version]
    rw [Ppu.built_room room] at h ⊢
    exact if_neg h

/-- R115: what the builds hand to the one panel that is ONLINE. -/
theorem AfterBuilds.onlyPanel (done : AfterBuilds s t cause l r m) (ready : ReadyToBuild s r) {v : PanelView}
    {rm : Room} {pg : Page} (only : s.ppu.views.entries = [(stationKey v.segment v.address, v)]) (ho : v.online = true)
    (hrm : s.ppu.rooms.find v.room = some rm) (hpg : s.ppu.pages.find v.room = some pg) :
    ∃ pg', t.ppu.pages.find v.room = some pg' ∧
      t.book.mail.ppuToSbc =
        s.book.mail.ppuToSbc ++ itemsFor (cause.kindFor (s.ppu.isLatched rm.group) v.room) v pg pg' ++ m := by
  obtain ⟨pg0, found, content, -⟩ := ready.pages v.room pg hpg
  have room : r.2.rooms.find v.room = some rm := ready.rooms ▸ hrm
  have panel : OnlyPanel r.2 v := ⟨v, ready.views ▸ only, .refl v⟩
  have handed := buildPages_onlyPanel (t := s.ctu) (cause := cause) (l := l) panel ho room found
  have page := done.find v.room
  rw [found] at page
  rw [done.sent, handed, Book.toSbcs_ppuToSbc, ready.sent, ready.isLatched]
  by_cases hv : v.room ∈ l
  · refine ⟨_, page.trans (if_pos hv), ?_⟩
    rw [if_pos hv]
    simp only [itemsFor, content]
  · refine ⟨_, page.trans (if_neg hv), ?_⟩
    rw [if_neg hv, itemsFor, if_pos content]

theorem AfterBuilds.changeHanded (done : AfterBuilds s t cause l r m) (ready : ReadyToBuild s r)
    {kind : Bool → PageKind} (hk : ∀ latched x, cause.kindFor latched x = kind latched)
    (hm : ∀ i ∈ m, ∃ groups, i = .latch groups) : ChangeHanded s t kind := by
  intro v rm pg only ho hrm hpg
  obtain ⟨pg', found, sent⟩ := done.onlyPanel ready only ho hrm hpg
  refine ⟨pg', found, fun changed => ⟨m, ?_, hm⟩⟩
  rw [sent, itemsFor, if_neg changed, hk, List.append_assoc]
  rfl

theorem AfterBuilds.pageHanded (done : AfterBuilds s t cause l r []) (ready : ReadyToBuild s r) {v : PanelView}
    {rm : Room} {pg : Page} (only : s.ppu.views.entries = [(stationKey v.segment v.address, v)]) (ho : v.online = true)
    (hrm : s.ppu.rooms.find v.room = some rm) (hpg : s.ppu.pages.find v.room = some pg) :
    ∃ pg', t.ppu.pages.find v.room = some pg' ∧
      (pg'.content ≠ pg.content →
        PageHanded s t v (cause.kindFor (s.ppu.isLatched rm.group) v.room) pg') := by
  obtain ⟨pg', found, sent⟩ := done.onlyPanel ready only ho hrm hpg
  refine ⟨pg', found, fun changed => ?_⟩
  rw [itemsFor, if_neg changed, List.append_nil] at sent
  exact sent

end

theorem BuildCause.kindFor_wholePage (latched : Bool) (x : Nat) :
    BuildCause.kindFor .wholePage latched x = .display := by
  cases latched <;> rfl

theorem BuildCause.kindFor_plain (latched : Bool) (x : Nat) :
    BuildCause.kindFor .plain latched x = if latched then .stage else .display := by
  cases latched <;> rfl

/-! ## The rooms that a claim builds -/

theorem Ppu.mem_roomsWhere {p : Ppu} {f : Nat → Room → Bool} {x : Nat} {rm : Room} (h : p.rooms.find x = some rm)
    (hf : f x rm = true) : x ∈ p.roomsWhere f :=
  List.mem_map.mpr ⟨(x, rm), List.mem_filter.mpr ⟨findKey_mem h, hf⟩, rfl⟩

/-- In a canonical directory only the rooms whose record passes are named. -/
theorem Ppu.not_mem_roomsWhere {p : Ppu} (hw : p.rooms.wf = true) {f : Nat → Room → Bool} {x : Nat} {rm : Room}
    (h : p.rooms.find x = some rm) (hf : f x rm = false) : x ∉ p.roomsWhere f := by
  intro hx
  obtain ⟨⟨y, rm'⟩, hm, rfl⟩ := List.mem_map.mp hx
  obtain ⟨entry, passes⟩ := List.mem_filter.mp hm
  have found := (Table.mem_entries hw y rm').mp entry
  rw [h] at found
  cases found
  exact absurd passes (by rw [hf]; exact Bool.false_ne_true)

theorem mem_pages_keys {p : Ppu} {x : Nat} {pg : Page} (h : p.pages.find x = some pg) : x ∈ p.pages.keys := by
  by_contra hx
  rw [← Table.find_eq_none, h] at hx
  cases hx

/-! ## Latches (R120) -/

section

variable {b : Book} {w : LatchWait}

@[simp] theorem endWait_mail (b : Book) (w : LatchWait) : (endWait b w).mail = (b.toSbcs [.latch w.groups]).mail := by
  unfold endWait
  split
  · exact Book.reply_mail ..
  · rfl

theorem endWait_noRequest (h : w.ctx = none) : endWait b w = b.toSbcs [.latch w.groups] := by
  unfold endWait
  rw [h]
  rfl

/-- R121: the LATCH_GROUPS that a wait answers is answered when it ends. -/
theorem endWait_request {c : Ctx} (h : w.ctx = some c) :
    endWait b w = (b.toSbcs [.latch w.groups]).reply c (Answer.ok (.latched w.groups)) := by
  unfold endWait
  rw [h]
  rfl

/-- R116, R120: the latches of the waits that end, in their order (log 76). -/
theorem endWaits_mail (b : Book) (l : List LatchWait) :
    (l.foldl endWait b).mail = (b.toSbcs (l.map fun w => .latch w.groups)).mail := by
  induction l generalizing b with
  | nil => rw [List.map_nil, Book.toSbcs_nil, List.foldl_nil]
  | cons w l ih =>
    rw [List.foldl_cons, ih, List.map_cons]
    simp [Book.toSbcs]

end

section

variable {groups : List Nat} {ctx : Option Ctx} {r : Book × Ppu}

/-- The wait that a latch claim makes. -/
def Ppu.waitFor (p : Ppu) (groups : List Nat) (ctx : Option Ctx) : LatchWait :=
  { groups := groups, panels := p.awaited groups, minutes := 0, ctx := ctx }

theorem latchClaim_now (h : r.2.awaited groups = [] ∨ r.2.horizon = none) :
    latchClaim groups ctx r = (endWait r.1 (r.2.waitFor groups ctx), r.2) := by
  have now : ((r.2.awaited groups).isEmpty || r.2.horizon.isNone) = true := by simpa using h
  unfold latchClaim
  exact if_pos now

theorem latchClaim_waits (h : r.2.awaited groups ≠ []) (hh : r.2.horizon ≠ none) :
    latchClaim groups ctx r = (r.1, { r.2 with waits := r.2.waits ++ [r.2.waitFor groups ctx] }) := by
  have later : ¬((r.2.awaited groups).isEmpty || r.2.horizon.isNone) = true := by simp [h, hh]
  unfold latchClaim
  exact if_neg later

theorem latchIfAny_nil : latchIfAny [] r = r := rfl

theorem latchIfAny_claim (h : groups ≠ []) : latchIfAny groups r = latchClaim groups none r :=
  if_neg (by simpa using h)

/-- R120: a claim that answers no request hands latches and makes a wait; nothing else changes. -/
theorem latchIfAny_leaves (groups : List Nat) (r : Book × Ppu) :
    (∃ m, (latchIfAny groups r).1 = r.1.toSbcs m ∧ ∀ i ∈ m, ∃ g, i = .latch g) ∧
      (latchIfAny groups r).2 = { r.2 with waits := (latchIfAny groups r).2.waits } := by
  have unchanged : ∃ m, r.1 = r.1.toSbcs m ∧ ∀ i ∈ m, ∃ g, i = SbcItem.latch g :=
    ⟨[], r.1.toSbcs_nil.symm, fun _ hi => absurd hi List.not_mem_nil⟩
  by_cases hg : groups = []
  · subst hg
    exact ⟨unchanged, rfl⟩
  · rw [latchIfAny_claim hg]
    by_cases now : r.2.awaited groups = [] ∨ r.2.horizon = none
    · rw [latchClaim_now now]
      exact ⟨⟨_, endWait_noRequest (w := r.2.waitFor groups none) rfl,
        fun i hi => ⟨groups, List.mem_singleton.mp hi⟩⟩, rfl⟩
    · obtain ⟨awaited, horizon⟩ := not_or.mp now
      rw [latchClaim_waits awaited horizon]
      exact ⟨unchanged, rfl⟩

theorem latchIfAny_sameInputs (groups : List Nat) (r : Book × Ppu) : SameInputs r (latchIfAny groups r) := by
  obtain ⟨⟨m, book, -⟩, ppu⟩ := latchIfAny_leaves groups r
  rw [show latchIfAny groups r = ((latchIfAny groups r).1, (latchIfAny groups r).2) from rfl, book, ppu]
  exact ⟨rfl, rfl, rfl, rfl, rfl, rfl⟩

/-- R120: the one latch claim that follows the builds of a claim. -/
theorem latchIfAny_claimed {s t : State} {l : List SbcItem} (hg : groups ≠ [])
    (hb : t.book = (latchIfAny groups r).1) (hp : t.ppu = (latchIfAny groups r).2)
    (horizon : r.2.horizon = s.ppu.horizon) (waits : r.2.waits = s.ppu.waits)
    (sent : r.1.mail.ppuToSbc = s.book.mail.ppuToSbc ++ l) : LatchClaimed s t groups := by
  have awaited : t.ppu.awaited groups = r.2.awaited groups := by
    rw [hp, (latchIfAny_leaves groups r).2]
    rfl
  rw [latchIfAny_claim hg] at hb hp
  unfold LatchClaimed
  rw [awaited, ← horizon, ← waits]
  refine ⟨fun later open_ => ?_, fun now => ?_⟩
  · rw [latchClaim_waits later open_] at hp
    rw [hp]
    rfl
  · rw [latchClaim_now now] at hb hp
    refine ⟨by rw [hp], l, ?_⟩
    rw [hb, endWait_noRequest (w := r.2.waitFor groups none) rfl, Book.toSbcs_ppuToSbc, sent]
    rfl

end

end Sys2Proof.Machine

/-! PROOFS. The time events at the PPU (R116, R117). -/

namespace Sys2Proof.Machine

/-- The PPU has taken the event at its head; `rest` is left. -/
def Book.ppuEventTaken (b : Book) (rest : List TimeEvent) : Book := b.withMail { b.mail with ppuEvents := rest }

/-! ## What each event does -/

section

variable {t : Ctu} {b : Book} {p : Ppu} {e : TimeEvent} {rest : List TimeEvent} (hm : b.mail.ppuEvents = e :: rest)

include hm

theorem onPpuEvent_eq (f : Date → EventKind → Book → Ppu → Option (Book × Ppu)) :
    onPpuEvent f b p = (f e.date e.kind (b.ppuEventTaken rest) p).getD (b, p) := by
  simp only [onPpuEvent, hm, Book.ppuEventTaken]

theorem ppuHorizonOpen_eq {w : Weekday} {m : Nat} {slot : CurSlot} (he : e.kind = .horizonOpen w m slot) :
    ppuHorizonOpen t b p =
      buildPages t .wholePage p.pages.keys
        (b.ppuEventTaken rest, p.opened { today := e.date, weekday := w } t.minute) := by
  simp only [ppuHorizonOpen, onPpuEvent_eq hm, he]
  rfl

theorem ppuDayRetire_eq (he : e.kind = .dayRetire) :
    ppuDayRetire b p = (p.waits.foldl endWait (b.ppuEventTaken rest), p.retired) := by
  simp only [ppuDayRetire, onPpuEvent_eq hm, he]
  rfl

theorem ppuDayOpen_eq {opened : Date} {w : Weekday} (he : e.kind = .dayOpen opened w) :
    ppuDayOpen t b p =
      buildPages t .wholePage p.pages.keys
        (b.ppuEventTaken rest, { p with horizon := some (Horizon.dayOpened e.date w), coming := none }) := by
  simp only [ppuDayOpen, onPpuEvent_eq hm, he]
  rfl

theorem morningBuild_eq (he : e.kind = .morningBuild) :
    morningBuild t b p =
      buildPages t .wholePage p.pages.keys (b.ppuEventTaken rest, { p with darkPeriod := false }) := by
  simp only [morningBuild, onPpuEvent_eq hm, he]
  rfl

theorem preBoundary_eq {x : Nat} (he : e.kind = .preBoundary x) :
    preBoundary t b p =
      buildPages t .plain (p.roomsWhere fun _ r => p.isLatched r.group)
        (b.ppuEventTaken rest, { p with coming := some x }) := by
  simp only [preBoundary, onPpuEvent_eq hm, he]
  rfl

/-- R117: the inputs of the pages once slot boundary has been taken. -/
def Ppu.atBoundary (p : Ppu) (now : CurSlot) : Ppu := { p with coming := none }.clearReleases now

theorem ppuSlotBoundary_eq {x : Nat} (he : e.kind = boundaryEvent x) :
    ppuSlotBoundary t b p =
      latchIfAny p.latchedGroups
        (buildPages t .plain ((p.atBoundary t.slot).boundaryRooms x) (b.ppuEventTaken rest, p.atBoundary t.slot)) := by
  simp only [ppuSlotBoundary, onPpuEvent_eq hm, he, boundaryEvent]
  rfl

theorem dayEnd_eq (he : e.kind = .dayEnd) :
    dayEnd t b p =
      buildPages t .wholePage (p.roomsWhere fun _ r => p.isDark r.group)
        (b.ppuEventTaken rest, { p with darkPeriod := true }) := by
  simp only [dayEnd, onPpuEvent_eq hm, he]
  rfl

/-- R117: a minute is added to the count of every latch wait. -/
def Ppu.minuteTaken (p : Ppu) : Ppu := { p with waits := p.waits.map fun w => { w with minutes := w.minutes + 1 } }

theorem ppuMinute_eq {m : Nat} (he : e.kind = .minute m) :
    ppuMinute t b p =
      ((buildPages t .plain (p.roomsWhere fun x _ => p.windowOpens b m x) (b.ppuEventTaken rest, p)).1,
        (buildPages t .plain (p.roomsWhere fun x _ => p.windowOpens b m x)
          (b.ppuEventTaken rest, p)).2.minuteTaken) := by
  simp only [ppuMinute, onPpuEvent_eq hm, he]
  rfl

end

/-! ## The release marks at a boundary (R117) -/

section

variable {p : Ppu} {now : CurSlot} {x n : Nat} {pg : Page}

/-- R117: a page's release mark as a slot boundary leaves it, `now` being the new current slot. -/
def CurSlot.markLeft (now : CurSlot) (release : Option Nat) : Option Nat :=
  if release.any (fun n => now.reaches n && now.number != some n) then none else release

theorem atBoundary_pages (h : p.pages.find x = some pg) :
    (p.atBoundary now).pages.find x = some { pg with release := now.markLeft pg.release } := by
  simp only [Ppu.atBoundary, Ppu.clearReleases, Table.find_mapValues, h, Option.map_some, CurSlot.markLeft]
  split <;> rfl

theorem markLeft_below (h : (∃ k, now = .slot k ∧ n < k) ∨ now = .afterDay) : now.markLeft (some n) = none := by
  rcases h with ⟨k, rfl, hk⟩ | rfl
  · simp [CurSlot.markLeft, CurSlot.reaches, CurSlot.number, Nat.le_of_lt hk, Nat.ne_of_gt hk]
  · rfl

theorem markLeft_reached (h : ∀ k, now = .slot k → k ≤ n) (ha : now ≠ .afterDay) : now.markLeft (some n) = some n := by
  cases now with
  | beforeDay => rfl
  | slot k =>
    have := h k rfl
    simp [CurSlot.markLeft, CurSlot.reaches, CurSlot.number]
    omega
  | afterDay => exact absurd rfl ha

/-- R117: the pages that a slot boundary builds. -/
theorem mem_boundaryRooms {rm : Room} (hrm : p.rooms.find x = some rm)
    (h : p.isLatched rm.group = false ∨
      ∃ pg, p.pages.find x = some pg ∧ pg.reference ≠ slotOfBoundary (some n)) :
    x ∈ (p.atBoundary now).boundaryRooms n := by
  refine Ppu.mem_roomsWhere (p := p.atBoundary now) hrm ?_
  have groups : (p.atBoundary now).isLatched rm.group = p.isLatched rm.group := rfl
  rcases h with immediate | ⟨pg, hpg, early⟩
  · simp [groups, immediate]
  · simp [atBoundary_pages hpg, early]

end

/-! ## The claims that build -/

/-- A command that sets inputs of the pages and then builds some of them. -/
theorem runs_ppuBuilds {i : Instr} {s : State} {f : Ctu → Book → Ppu → Book × Ppu} {cause : BuildCause} {l : List Nat}
    {b : Book} {p : Ppu} (hi : exec i s = onPpu f s) (hf : f s.ctu s.book s.ppu = buildPages s.ctu cause l (b, p)) :
    ∃ t, Runs i s t ∧ t.book.mail = { b.mail with ppuToSbc := t.book.mail.ppuToSbc } ∧
      t.ppu = { p with pages := t.ppu.pages, views := t.ppu.views } ∧ AfterBuilds s t cause l (b, p) [] :=
  ⟨_, runs_onPpu hi hf, buildPages_builds.mail, buildPages_builds.ppu, rfl, .refl _, (List.append_nil _).symm⟩

/-- A command that sets inputs of the pages, builds some of them and then makes a latch claim, where there is a group
for one. -/
theorem runs_ppuBuildsAndLatches {i : Instr} {s : State} {f : Ctu → Book → Ppu → Book × Ppu} {cause : BuildCause}
    {l groups : List Nat} {b : Book} {p : Ppu} (hi : exec i s = onPpu f s)
    (hf : f s.ctu s.book s.ppu = latchIfAny groups (buildPages s.ctu cause l (b, p)))
    (horizon : p.horizon = s.ppu.horizon) (waits : p.waits = s.ppu.waits)
    (sent : b.mail.ppuToSbc = s.book.mail.ppuToSbc) :
    ∃ t m, Runs i s t ∧ t.book.mail = { b.mail with ppuToSbc := t.book.mail.ppuToSbc } ∧
      t.ppu = { p with pages := t.ppu.pages, views := t.ppu.views, waits := t.ppu.waits } ∧
      AfterBuilds s t cause l (b, p) m ∧ (∀ x ∈ m, ∃ g, x = .latch g) ∧ (groups = [] → t.ppu.waits = s.ppu.waits) ∧
      (groups ≠ [] → LatchClaimed s t groups) := by
  have builds : Builds (b, p) (buildPages s.ctu cause l (b, p)) := buildPages_builds
  obtain ⟨items, handed⟩ := builds.book
  obtain ⟨⟨m, book, latches⟩, ppu⟩ := latchIfAny_leaves groups (buildPages s.ctu cause l (b, p))
  refine ⟨_, m, runs_onPpu hi hf, ?_, ?_, ⟨?_, latchIfAny_sameInputs _ _, congrArg (fun b => b.mail.ppuToSbc) book⟩,
    latches, fun hg => ?_, fun hg => ?_⟩
  · simp only [book, handed]
    rfl
  · dsimp only
    rw [ppu, builds.ppu]
  · exact (congrArg Ppu.pages ppu).trans rfl
  · subst hg
    exact builds.waits.trans waits
  · exact latchIfAny_claimed hg rfl rfl (builds.sameInputs.horizon.trans horizon) (builds.waits.trans waits)
      (l := items) (by rw [handed, Book.toSbcs_ppuToSbc, sent])

section

variable {s t : State} {b : Book} {p : Ppu}

theorem AfterBuilds.shown {l : List Nat} (done : AfterBuilds s t .wholePage l (b, p) [])
    (ready : ReadyToBuild s (b, p)) :
    ChangeHanded s t fun _ => .display :=
  done.changeHanded ready BuildCause.kindFor_wholePage fun _ h => absurd h List.not_mem_nil

theorem AfterBuilds.staged {l : List Nat} (done : AfterBuilds s t .plain l (b, p) []) (ready : ReadyToBuild s (b, p)) :
    ChangeHanded s t fun latched => if latched then .stage else .display :=
  done.changeHanded ready BuildCause.kindFor_plain fun _ h => absurd h List.not_mem_nil

/-- R116, R117: every page is built, and what changes is shown. -/
theorem AfterBuilds.wholeDay (done : AfterBuilds s t .wholePage s.ppu.pages.keys (b, p) [])
    (ready : ReadyToBuild s (b, p)) :
    (∀ x, PageBuilt s t x) ∧ ChangeHanded s t fun _ => .display :=
  ⟨fun _ rm pg hrm hpg => done.pageBuilt ready (mem_pages_keys hpg) rm pg hrm hpg, done.shown ready⟩

end

section

variable {s : State} {e : TimeEvent} {rest : List TimeEvent} (hm : s.book.mail.ppuEvents = e :: rest)

include hm

/-- R116: horizon open. -/
theorem runs_ppuHorizonOpen {w : Weekday} {m : Nat} {slot : CurSlot} (he : e.kind = .horizonOpen w m slot) :
    ∃ t, Runs .ppuHorizonOpen s t ∧ t.book.mail.ppuEvents = rest ∧
      t.ppu.horizon = some { today := e.date, weekday := w } ∧
      t.ppu.darkPeriod = (decide (s.ctu.minute < 345) || decide (1320 ≤ s.ctu.minute)) ∧ (∀ x, PageBuilt s t x) ∧
      ChangeHanded s t fun _ => .display := by
  obtain ⟨t, run, mail, ppu, done⟩ := runs_ppuBuilds (i := .ppuHorizonOpen) rfl (ppuHorizonOpen_eq hm he)
  exact ⟨t, run, congrArg Mail.ppuEvents mail, by rw [ppu]; rfl, by rw [ppu]; rfl,
    done.wholeDay (.of_pages rfl rfl rfl rfl rfl)⟩

/-- R116: day retire. -/
theorem runs_ppuDayRetire (he : e.kind = .dayRetire) :
    ∃ t, Runs .ppuDayRetire s t ∧ t.book.mail.ppuEvents = rest ∧ t.ppu.waits = [] ∧
      t.book.mail.ppuToSbc = s.book.mail.ppuToSbc ++ s.ppu.waits.map (fun w => .latch w.groups) ∧
      ∀ x pg, s.ppu.pages.find x = some pg →
        t.ppu.pages.find x = some { pg with release := none, overlay := 0 } := by
  have mail := endWaits_mail (s.book.ppuEventTaken rest) s.ppu.waits
  refine ⟨_, runs_onPpu (f := fun _ => ppuDayRetire) rfl (ppuDayRetire_eq hm he), congrArg Mail.ppuEvents mail, rfl,
    congrArg Mail.ppuToSbc mail, fun x pg hpg => ?_⟩
  simp only [Ppu.retired, Table.find_mapValues, hpg, Option.map_some]

/-- R116: day open. -/
theorem runs_ppuDayOpen {opened : Date} {w : Weekday} (he : e.kind = .dayOpen opened w) :
    ∃ t, Runs .ppuDayOpen s t ∧ t.book.mail.ppuEvents = rest ∧
      t.ppu.horizon = some { today := e.date, weekday := w.next } ∧ t.ppu.darkPeriod = s.ppu.darkPeriod ∧
      (∀ x, PageBuilt s t x) ∧ ChangeHanded s t fun _ => .display := by
  obtain ⟨t, run, mail, ppu, done⟩ := runs_ppuBuilds (i := .ppuDayOpen) rfl (ppuDayOpen_eq hm he)
  exact ⟨t, run, congrArg Mail.ppuEvents mail, by rw [ppu]; rfl, by rw [ppu],
    done.wholeDay (.of_pages rfl rfl rfl rfl rfl)⟩

/-- R117: the morning build. -/
theorem runs_morningBuild (he : e.kind = .morningBuild) :
    ∃ t, Runs .morningBuild s t ∧ t.book.mail.ppuEvents = rest ∧ t.ppu.darkPeriod = false ∧
      t.ppu.horizon = s.ppu.horizon ∧ (∀ x, PageBuilt s t x) ∧ ChangeHanded s t fun _ => .display := by
  obtain ⟨t, run, mail, ppu, done⟩ := runs_ppuBuilds (i := .morningBuild) rfl (morningBuild_eq hm he)
  exact ⟨t, run, congrArg Mail.ppuEvents mail, by rw [ppu], by rw [ppu], done.wholeDay (.of_pages rfl rfl rfl rfl rfl)⟩

/-- R117: pre-boundary `b`. -/
theorem runs_preBoundary {b : Nat} (he : e.kind = .preBoundary b) :
    ∃ t, Runs .preBoundary s t ∧ t.book.mail.ppuEvents = rest ∧ t.ppu.waits = s.ppu.waits ∧
      (ChangeHanded s t fun latched => if latched then .stage else .display) ∧
      (∀ x rm, s.ppu.rooms.find x = some rm → s.ppu.isLatched rm.group = true →
        PageBuilt s t x ∧ t.ppu.reference s.ctu rm.group = slotOfBoundary (some b)) ∧
      (s.ppu.rooms.wf = true → ∀ x rm, s.ppu.rooms.find x = some rm → s.ppu.isLatched rm.group = false →
        t.ppu.pages.find x = s.ppu.pages.find x) := by
  obtain ⟨t, run, mail, ppu, done⟩ := runs_ppuBuilds (i := .preBoundary) rfl (preBoundary_eq hm he)
  have ready : ReadyToBuild s (s.book.ppuEventTaken rest, { s.ppu with coming := some b }) :=
    .of_pages rfl rfl rfl rfl rfl
  refine ⟨t, run, congrArg Mail.ppuEvents mail, by rw [ppu], done.staged ready, fun x rm hrm latched => ⟨?_, ?_⟩,
    fun hw x rm hrm immediate => ?_⟩
  · exact done.pageBuilt ready (Ppu.mem_roomsWhere hrm latched)
  · have coming : ({ s.ppu with coming := some b } : Ppu).isLatched rm.group = true := latched
    rw [done.sameInputs.reference]
    simp only [Ppu.reference, coming]
  · rw [done.find, if_neg (Ppu.not_mem_roomsWhere hw hrm immediate)]

/-- R117: slot boundary `b`. -/
theorem runs_ppuSlotBoundary {b : Nat} (he : e.kind = boundaryEvent b) :
    ∃ t, Runs .ppuSlotBoundary s t ∧ t.book.mail.ppuEvents = rest ∧ t.ppu.coming = none ∧
      (ChangeHanded s t fun latched => if latched then .stage else .display) ∧
      (∀ x rm, s.ppu.rooms.find x = some rm → s.ppu.isLatched rm.group = false → PageBuilt s t x) ∧
      (∀ x rm pg, s.ppu.rooms.find x = some rm → s.ppu.isLatched rm.group = true → s.ppu.pages.find x = some pg →
        pg.reference ≠ slotOfBoundary (some b) → PageBuilt s t x) ∧
      (∀ x pg, s.ppu.pages.find x = some pg → ∃ pg', t.ppu.pages.find x = some pg' ∧
        (∀ n, pg.release = some n → (∃ k, s.ctu.slot = .slot k ∧ n < k) ∨ s.ctu.slot = .afterDay →
          pg'.release = none) ∧
        (∀ n, pg.release = some n → (∀ k, s.ctu.slot = .slot k → k ≤ n) → s.ctu.slot ≠ .afterDay →
          pg'.release = some n) ∧
        (pg.release = none → pg'.release = none)) ∧
      (s.ppu.latchedGroups = [] → t.ppu.waits = s.ppu.waits) ∧
      (s.ppu.latchedGroups ≠ [] → LatchClaimed s t s.ppu.latchedGroups) := by
  obtain ⟨t, m, run, mail, ppu, done, latches, waits, claimed⟩ :=
    runs_ppuBuildsAndLatches (i := .ppuSlotBoundary) rfl (ppuSlotBoundary_eq hm he) rfl rfl rfl
  have ready : ReadyToBuild s (s.book.ppuEventTaken rest, s.ppu.atBoundary s.ctu.slot) :=
    ⟨rfl, rfl, rfl, rfl, fun x pg hpg => ⟨_, atBoundary_pages hpg, rfl, rfl⟩⟩
  refine ⟨t, run, congrArg Mail.ppuEvents mail, by rw [ppu]; rfl,
    done.changeHanded ready BuildCause.kindFor_plain latches, fun x rm hrm immediate => ?_,
    fun x rm pg hrm latched hpg early => ?_, fun x pg hpg => ?_, waits, claimed⟩
  · exact done.pageBuilt ready (mem_boundaryRooms hrm (.inl immediate))
  · exact done.pageBuilt ready (mem_boundaryRooms hrm (.inr ⟨pg, hpg, early⟩))
  · obtain ⟨pg', found, -, release⟩ := done.kept (atBoundary_pages hpg)
    refine ⟨pg', found, fun n hn below => ?_, fun n hn reached before => ?_, fun hn => ?_⟩
    · rw [release, hn]
      exact markLeft_below below
    · rw [release, hn]
      exact markLeft_reached reached before
    · rw [release, hn]
      rfl

/-- R117: day-end. -/
theorem runs_dayEnd (he : e.kind = .dayEnd) :
    ∃ t, Runs .dayEnd s t ∧ t.book.mail.ppuEvents = rest ∧ t.ppu.darkPeriod = true ∧
      (∀ x rm, s.ppu.rooms.find x = some rm → s.ppu.isDark rm.group = true → PageBuilt s t x) ∧
      ChangeHanded s t fun _ => .display := by
  obtain ⟨t, run, mail, ppu, done⟩ := runs_ppuBuilds (i := .dayEnd) rfl (dayEnd_eq hm he)
  have ready : ReadyToBuild s (s.book.ppuEventTaken rest, { s.ppu with darkPeriod := true }) :=
    .of_pages rfl rfl rfl rfl rfl
  exact ⟨t, run, congrArg Mail.ppuEvents mail, by rw [ppu],
    fun x rm hrm dark => done.pageBuilt ready (Ppu.mem_roomsWhere hrm dark), done.shown ready⟩

/-- R117: a minute event. -/
theorem runs_ppuMinute {m : Nat} (he : e.kind = .minute m) :
    ∃ t, Runs .ppuMinute s t ∧ t.book.mail.ppuEvents = rest ∧
      t.ppu.waits = s.ppu.waits.map (fun w => { w with minutes := w.minutes + 1 }) ∧
      (∀ x rm, s.ppu.rooms.find x = some rm → s.ppu.windowOpens s.book m x = true → PageBuilt s t x) ∧
      ChangeHanded s t fun latched => if latched then .stage else .display := by
  have builds : Builds (s.book.ppuEventTaken rest, s.ppu)
      (buildPages s.ctu .plain (s.ppu.roomsWhere fun x _ => s.ppu.windowOpens s.book m x)
        (s.book.ppuEventTaken rest, s.ppu)) := buildPages_builds
  have ready : ReadyToBuild s (s.book.ppuEventTaken rest, s.ppu) := .of_pages rfl rfl rfl rfl rfl
  have run := runs_onPpu (i := .ppuMinute) rfl (ppuMinute_eq hm he)
  have done : AfterBuilds s { s with book := _, ppu := _ } .plain
      (s.ppu.roomsWhere fun x _ => s.ppu.windowOpens s.book m x) (s.book.ppuEventTaken rest, s.ppu) [] := ⟨rfl, ⟨rfl, rfl, rfl, rfl, rfl, rfl⟩, (List.append_nil _).symm⟩
  refine ⟨_, run, congrArg Mail.ppuEvents builds.mail, ?_,
    fun x rm hrm opens => done.pageBuilt ready (Ppu.mem_roomsWhere hrm opens), done.staged ready⟩
  exact congrArg (List.map _) builds.waits

end

/-- Settles O45, each event by the pages that its claim builds. -/
theorem pagesTakeTheirTimeEvents : Obligations.PagesTakeTheirTimeEvents :=
  ⟨fun _ _ _ _ _ _ hm he => runs_ppuHorizonOpen hm he, fun _ _ _ hm he => runs_ppuDayRetire hm he,
    fun _ _ _ _ _ hm he => runs_ppuDayOpen hm he, fun _ _ _ hm he => runs_morningBuild hm he,
    fun _ _ _ _ hm he => runs_preBoundary hm he, fun _ _ _ _ hm he => runs_ppuSlotBoundary hm he,
    fun _ _ _ hm he => runs_dayEnd hm he, fun _ _ _ _ hm he => runs_ppuMinute hm he⟩

end Sys2Proof.Machine

/-! PROOFS. READ_PAGE (R127); panel events and their outcomes (R125, R126). -/

namespace Sys2Proof.Machine

/-! ## READ_PAGE (R127) -/

/-- R185: a request that the PPU serves. -/
theorem Asks.servePpu {s : State} {c : Ctx} {q : Request} {rest : List Handed} {r : Book × Ppu}
    {f : Request → Ctx → Book → Ppu → Option (Book × Ppu)} (h : Asks s c q rest) (hq : q.owner = .ppu)
    (hf : f q c (s.book.withRequests rest) s.ppu = some r) : Machine.servePpu f s.book s.ppu = r := by
  have next := h.next
  rw [hq] at next
  simp only [Machine.servePpu, next, hf, Option.getD_some]

section

variable {p : Ppu} {x : Nat}

theorem pageReply_range (h : 383 < x) : p.pageReply x = Answer.of .badRequest := if_pos h

theorem pageReply_roomless (h : x ≤ 383) (hr : p.rooms.find x = none) :
    p.pageReply x = Answer.because .notFound .room := by
  simp only [Ppu.pageReply, if_neg (Nat.not_lt.mpr h), hr]

theorem pageReply_found {rm : Room} {pg : Page} (h : x ≤ 383) (hr : p.rooms.find x = some rm)
    (hp : p.pages.find x = some pg) :
    p.pageReply x =
      Answer.ok
        (.page x pg (p.isLatched rm.group) (p.isDark rm.group) p.darkPeriod
          ((p.views.values.filter fun v => v.room == x).map PanelView.reported)) := by
  simp only [Ppu.pageReply, if_neg (Nat.not_lt.mpr h), hr, hp]

end

/-- Settles O50: the answer in each case is what `Ppu.pageReply` gives over the pages as they stand. -/
theorem readPageAnswers : Obligations.ReadPageAnswers := by
  intro s c x rest hq
  have served : readPage s.book s.ppu = ((s.book.withRequests rest).reply c (s.ppu.pageReply x), s.ppu) :=
    hq.servePpu rfl rfl
  obtain ⟨reads, replied⟩ := OnlyReads.of_reply s _ rest c (s.ppu.pageReply x) rfl
  have answered {a : Answer} (h : s.ppu.pageReply x = a) :
      Replied s { s with book := (s.book.withRequests rest).reply c (s.ppu.pageReply x) } c a := h ▸ replied
  exact ⟨_, runs_onPpu (f := fun _ => readPage) rfl served, reads, fun h => answered (pageReply_range h),
    fun h hr => answered (pageReply_roomless h hr), fun h _ _ hr hp => answered (pageReply_found h hr hp)⟩

/-! ## Reports of the SBC -/

/-- The PPU has taken a report of the SBC; `rest` is left. -/
def Book.reportTaken (b : Book) (rest : List (Nat × PpuReport)) : Book := b.withMail { b.mail with sbcToPpu := rest }

theorem onReport_eq {b : Book} {p : Ppu} {g : Nat} {x : PpuReport} {rest : List (Nat × PpuReport)}
    (h : nextOf g b.mail.sbcToPpu = some (x, rest)) (f : PpuReport → Book → Ppu → Option (Book × Ppu)) :
    onReport g f b p = (f x (b.reportTaken rest) p).getD (b, p) := by
  simp only [onReport, h, Book.reportTaken]

/-! ## Panel events (R125) -/

/-- R125: the events that go to the BKE. -/
def ForBke (e : StationEvent) : Prop := (∃ k, e = .checkIn k) ∨ (∃ k, e = .walkup k) ∨ e = .endMeeting ∨ e = .extend

theorem relay_forBke {b : Book} {c : PanelClaim} (h : ForBke c.event) :
    b.relay c = b.withMail { b.mail with ppuToBke := b.mail.ppuToBke ++ [c] } := by
  rcases h with ⟨k, h⟩ | ⟨k, h⟩ | h | h <;> simp only [Book.relay, h]

theorem relay_cartArrived {b : Book} {c : PanelClaim} {id : Nat} (h : c.event = .cartArrived id) :
    b.relay c = b.withMail { b.mail with ppuToCsc := b.mail.ppuToCsc ++ [c] } := by
  simp only [Book.relay, h]

/-- R125: a relay changes no queue but those to the two owners. -/
theorem relay_sbcToPpu (b : Book) (c : PanelClaim) : (b.relay c).mail.sbcToPpu = b.mail.sbcToPpu := by
  cases h : c.event <;> simp only [Book.relay, h, Book.withMail_mail]

theorem panelEvent_eq {b : Book} {p : Ppu} {g a room : Nat} {n : BitVec 8} {e : StationEvent}
    {rest : List (Nat × PpuReport)} (h : nextOf g b.mail.sbcToPpu = some (.event a n room e, rest)) :
    panelEvent g b p =
      ((b.reportTaken rest).relay { segment := g, address := a, session := n, room := room, event := e }, p) := by
  rw [panelEvent, onReport_eq h]
  rfl

/-! ## Outcomes (R126) -/

/-- The PPU has taken an owner's oldest outcome; `rest` is left. -/
def Book.outcomeTaken (b : Book) (source : OutcomeSource) (rest : List PanelAnswer) : Book :=
  match source with
  | .bke => b.withMail { b.mail with bkeToPanel := rest }
  | .csc => b.withMail { b.mail with cscToPanel := rest }

section

variable {b : Book} {p : Ppu} {source : OutcomeSource} {rest : List PanelAnswer} {a : PanelAnswer}

theorem outcomeTaken_hmp : (b.outcomeTaken source rest).hmp = b.hmp := by
  cases source <;> rfl

theorem outcomeTaken_ppuToSbc : (b.outcomeTaken source rest).mail.ppuToSbc = b.mail.ppuToSbc := by
  cases source <;> rfl

theorem outcomeTaken_panelAction : (b.outcomeTaken source rest).panelAction a = b.panelAction a := by
  cases source <;> rfl

theorem panelOutcome_eq
    (h : (source = .bke ∧ b.mail.bkeToPanel = a :: rest) ∨ (source = .csc ∧ b.mail.cscToPanel = a :: rest)) :
    panelOutcome source b p = ((b.outcomeTaken source rest).outcome a, p) := by
  rcases h with ⟨rfl, h⟩ | ⟨rfl, h⟩ <;> simp only [panelOutcome, h, Book.outcomeTaken]

theorem postOutcome_mail : (b.postOutcome a).mail = b.mail := by
  unfold Book.postOutcome Book.postWalkup
  split
  · split <;> rfl
  · rfl

theorem outcome_mail :
    (b.outcome a).mail = (b.toSbcs [.result a.claim.segment a.claim.address a.claim.session a.result]).mail := by
  simp only [Book.outcome, Book.toSbc, Book.toSbcs, Book.withMail_mail, postOutcome_mail]

theorem outcome_refused (h : a.status ≠ .ok) : (b.outcome a).hmp = b.hmp := by
  simp only [Book.outcome, Book.toSbc, Book.withMail_hmp, Book.postOutcome, if_neg h]

/-- R126: an accepted walk-up is told by PANEL_ACTION with WALKUP behind it. -/
theorem outcome_walkup {k : Nat} {x : Placed} (h : a.status = .ok) (he : a.claim.event = .walkup k)
    (hx : a.placed = some x) :
    (b.outcome a).hmp =
      (b.hmp.post (.panelAction (b.panelAction a))).post
        (.walkup x.id x.room x.code x.start x.count x.bufSlots a.claim.segment a.claim.address) := by
  simp only [Book.outcome, Book.toSbc, Book.withMail_hmp, Book.postOutcome, if_pos h, Book.postWalkup, he, hx,
    Book.post_hmp]

theorem outcome_accepted (h : a.status = .ok) (he : ∀ k, a.claim.event ≠ .walkup k) :
    (b.outcome a).hmp = b.hmp.post (.panelAction (b.panelAction a)) := by
  simp only [Book.outcome, Book.toSbc, Book.withMail_hmp, Book.postOutcome, if_pos h, Book.postWalkup]
  split
  · next k _ hk _ => exact absurd hk (he k)
  · rfl

end

/-- Settles O49: an event by the owner it goes to, an outcome by whether it was accepted and is a walk-up's. -/
theorem panelEventsAreRelayedAndAnswered : Obligations.PanelEventsAreRelayedAndAnswered := by
  refine ⟨fun s g a room n e rest hm => ?_, fun s source a rest ha => ?_, fun s g a rest hm => ?_⟩
  · intro claim
    refine ⟨_, runs_onPpu (f := fun _ => panelEvent g) rfl (panelEvent_eq hm), relay_sbcToPpu _ _, rfl,
      fun bke => ?_, fun id cart => ?_⟩
    · have relayed := congrArg Book.mail (relay_forBke (b := s.book.reportTaken rest) (c := claim) bke)
      exact ⟨congrArg Mail.ppuToBke relayed, (congrArg Mail.ppuToCsc relayed).trans rfl⟩
    · have relayed := congrArg Book.mail (relay_cartArrived (b := s.book.reportTaken rest) (c := claim) cart)
      exact ⟨congrArg Mail.ppuToCsc relayed, (congrArg Mail.ppuToBke relayed).trans rfl⟩
  · have mail := outcome_mail (b := s.book.outcomeTaken source rest) (a := a)
    refine ⟨_, a.result, runs_onPpu (f := fun _ => panelOutcome source) rfl (panelOutcome_eq ha), rfl, rfl, rfl,
      rfl, rfl, fun bke => ?_, fun csc => ?_, ?_, fun refused => ?_, fun ok => ⟨fun k x walkup placed => ?_, fun other => ?_⟩⟩
    · subst bke
      exact congrArg Mail.bkeToPanel mail
    · subst csc
      exact congrArg Mail.cscToPanel mail
    · rw [mail, Book.toSbcs_ppuToSbc, outcomeTaken_ppuToSbc]
    · exact (outcome_refused refused).trans outcomeTaken_hmp
    · refine (outcome_walkup ok walkup placed).trans ?_
      rw [outcomeTaken_hmp, outcomeTaken_panelAction]
      rfl
    · refine (outcome_accepted ok other).trans ?_
      rw [outcomeTaken_hmp, outcomeTaken_panelAction]
      rfl
  · have taken : resultNotSent g s.book s.ppu = (s.book.reportTaken rest, s.ppu) := by
      rw [resultNotSent, onReport_eq hm]
      rfl
    exact ⟨_, runs_onPpu (f := fun _ => resultNotSent g) rfl taken, rfl, rfl⟩

end Sys2Proof.Machine

/-! PROOFS. What the SBC tells of the panels (R123, R124). -/

namespace Sys2Proof.Machine

/-! ## A panel leaves the waits (R120) -/

section

variable {key : Nat} {r : Book × Ppu}

theorem leaveWaits_mail (key : Nat) (r : Book × Ppu) : ∃ l, (leaveWaits key r).1.mail = (r.1.toSbcs l).mail :=
  ⟨_, endWaits_mail _ _⟩

theorem leaveWaits_sbcToPpu : (leaveWaits key r).1.mail.sbcToPpu = r.1.mail.sbcToPpu := by
  obtain ⟨l, mail⟩ := leaveWaits_mail key r
  exact (congrArg Mail.sbcToPpu mail).trans rfl

theorem leaveWaits_left : ∀ w ∈ (leaveWaits key r).2.waits, key ∉ w.panels := by
  intro w hw
  obtain ⟨left, -⟩ := List.mem_filter.mp hw
  obtain ⟨w, -, rfl⟩ := List.mem_map.mp left
  simp

end

theorem handPage_sbcToPpu (kind : PageKind) (v : PanelView) (b : Book) (p : Ppu) :
    (handPage kind v b p).1.mail.sbcToPpu = b.mail.sbcToPpu :=
  (congrArg Mail.sbcToPpu (handPage_hands kind v b p).builds.mail).trans rfl

theorem handPage_pages (kind : PageKind) (v : PanelView) (b : Book) (p : Ppu) :
    (handPage kind v b p).2.pages = p.pages := (handPage_hands kind v b p).pages

/-- A page handed to a panel leaves what the panel holds and shows. -/
theorem handPage_view {kind : PageKind} {v : PanelView} {b : Book} {p : Ppu}
    (hv : p.view v.segment v.address = some v) :
    ∃ v', (handPage kind v b p).2.view v.segment v.address = some v' ∧ SamePanel v v' ∧ v'.staged = v.staged ∧
      v'.shown = v.shown := by
  unfold handPage
  split
  · exact ⟨_, Ppu.view_putView p (v.handed _ kind), .handed v _ kind, rfl, rfl⟩
  · exact ⟨v, hv, .refl v, rfl, rfl⟩

/-! ## Links (R123) -/

section

variable {b : Book} {p : Ppu} {v : PanelView} (hv : p.view v.segment v.address = some v)

theorem panelLinkChange_eq {g a : Nat} {c : LinkChange} {rest : List (Nat × PpuReport)}
    (h : nextOf g b.mail.sbcToPpu = some (.link a c, rest)) :
    panelLinkChange g b p = takeLink g a c (b.reportTaken rest) p := by
  rw [panelLinkChange, onReport_eq h]
  rfl

/-- A change of a panel's link takes no further report and changes no page. -/
theorem takeLink_leaves (g a : Nat) (c : LinkChange) (b : Book) (p : Ppu) :
    (takeLink g a c b p).1.mail.sbcToPpu = b.mail.sbcToPpu ∧ (takeLink g a c b p).2.pages = p.pages := by
  unfold takeLink
  dsimp only
  split
  · exact ⟨rfl, rfl⟩
  · exact ⟨rfl, rfl⟩
  · exact ⟨handPage_sbcToPpu .., handPage_pages ..⟩
  all_goals exact ⟨leaveWaits_sbcToPpu, rfl⟩

include hv

theorem takeLink_online (n : BitVec 8) :
    takeLink v.segment v.address (.online n) b p = handPage .display (v.joined n) b (p.putView (v.joined n)) := by
  simp only [takeLink, hv]

theorem takeLink_offline :
    takeLink v.segment v.address .offline b p =
      leaveWaits (stationKey v.segment v.address) (b, p.putView v.left) := by
  simp only [takeLink, hv]

theorem takeLink_removed :
    takeLink v.segment v.address .removed b p =
      leaveWaits (stationKey v.segment v.address)
        (b, { p with views := p.views.drop (stationKey v.segment v.address) }) := by
  simp only [takeLink, hv]

theorem takeLink_rebound (room : Nat) :
    takeLink v.segment v.address (.rebound room) b p =
      leaveWaits (stationKey v.segment v.address) (b, p.putView { v.left with room := room }) := by
  simp only [takeLink, hv]

/-- R123: a panel that comes ONLINE is handed its room's page as it stands. -/
theorem takeLink_online_view (n : BitVec 8) :
    ∃ v', (takeLink v.segment v.address (.online n) b p).2.view v.segment v.address = some v' ∧ v'.online = true ∧
      v'.session = n ∧ v'.staged = none ∧ v'.shown = 0 ∧
      ∀ pg, p.pages.find v.room = some pg →
        v'.awaiting = true ∧ v'.lastHanded = some (pg.version, .display) ∧
          (takeLink v.segment v.address (.online n) b p).1 = b.toSbcs [pageFor .display v pg] := by
  rw [takeLink_online hv]
  cases hp : p.pages.find v.room with
  | none =>
    rw [handPage_none (v := v.joined n) (p := p.putView (v.joined n)) (.inr hp)]
    exact ⟨_, Ppu.view_putView p (v.joined n), rfl, rfl, rfl, rfl, fun _ h => absurd h.symm (Option.some_ne_none _)⟩
  | some pg =>
    rw [handPage_online (v := v.joined n) (p := p.putView (v.joined n)) rfl hp]
    refine ⟨_, Ppu.view_putView _ ((v.joined n).handed pg.version .display), rfl, rfl, rfl, rfl, fun pg' h => ?_⟩
    cases h
    exact ⟨rfl, rfl, rfl⟩

end

/-! ## Deliveries (R123) -/

section

variable {b : Book} {p : Ppu} {v : PanelView} {version : Half} {group : Nat} {kind : PageKind}

theorem pageDelivered_eq {g a : Nat} {rest : List (Nat × PpuReport)}
    (h : nextOf g b.mail.sbcToPpu = some (.delivered a version kind group, rest)) :
    pageDelivered g b p = takeDelivery g a version kind group (b.reportTaken rest) p := by
  rw [pageDelivered, onReport_eq h]
  rfl

theorem PanelView.delivered_eq :
    v.delivered version kind group =
      { v with
        awaiting := if v.lastHanded.any (fun x => x.1 == version) then false else v.awaiting
        staged := if kind = .stage then some (version, group) else v.staged
        shown := if kind = .display then version else v.shown } := by
  unfold PanelView.delivered
  cases kind <;> dsimp only <;> split <;> rfl

theorem Ppu.view_delivered (p : Ppu) (v : PanelView) :
    (p.putView (v.delivered version kind group)).view v.segment v.address = some (v.delivered version kind group) := by
  have place := Ppu.view_putView p (v.delivered version kind group)
  rw [PanelView.delivered_eq] at place ⊢
  exact place

/-- R120, R123: what a delivery leaves before the STAGE that may follow it: where the item was the last one handed, the
panel leaves the waits. -/
def deliveryTaken (version : Half) (kind : PageKind) (group : Nat) (v : PanelView) (b : Book) (p : Ppu) : Book × Ppu :=
  if v.lastHanded.any (fun x => x.1 == version) then
    leaveWaits (stationKey v.segment v.address) (b, p.putView (v.delivered version kind group))
  else (b, p.putView (v.delivered version kind group))

theorem deliveryTaken_leaves :
    (deliveryTaken version kind group v b p).1.mail.sbcToPpu = b.mail.sbcToPpu ∧
      (deliveryTaken version kind group v b p).2.pages = p.pages ∧
      (deliveryTaken version kind group v b p).2.view v.segment v.address = some (v.delivered version kind group) := by
  unfold deliveryTaken
  split
  · exact ⟨leaveWaits_sbcToPpu, rfl, p.view_delivered v⟩
  · exact ⟨rfl, rfl, p.view_delivered v⟩

theorem takeDelivery_eq (hv : p.view v.segment v.address = some v) :
    takeDelivery v.segment v.address version kind group b p =
      if (deliveryTaken version kind group v b p).2.wantsStage (v.delivered version kind group) version kind then
        handPage .stage (v.delivered version kind group) (deliveryTaken version kind group v b p).1
          (deliveryTaken version kind group v b p).2
      else deliveryTaken version kind group v b p := by
  simp only [takeDelivery, hv]
  rfl

/-- R123: no STAGE follows the delivery of a STAGE. -/
theorem takeDelivery_stage (hv : p.view v.segment v.address = some v) :
    takeDelivery v.segment v.address version .stage group b p = deliveryTaken version .stage group v b p := by
  rw [takeDelivery_eq hv]
  rfl

theorem takeDelivery_leaves (hv : p.view v.segment v.address = some v) :
    (takeDelivery v.segment v.address version kind group b p).1.mail.sbcToPpu = b.mail.sbcToPpu ∧
      (takeDelivery v.segment v.address version kind group b p).2.pages = p.pages ∧
      ∃ v', (takeDelivery v.segment v.address version kind group b p).2.view v.segment v.address = some v' ∧
        v'.staged = (v.delivered version kind group).staged ∧ v'.shown = (v.delivered version kind group).shown := by
  obtain ⟨reports, pages, view⟩ := deliveryTaken_leaves (version := version) (kind := kind) (group := group) (v := v)
    (b := b) (p := p)
  have place : (v.delivered version kind group).segment = v.segment ∧
      (v.delivered version kind group).address = v.address := by
    rw [PanelView.delivered_eq]
    exact ⟨rfl, rfl⟩
  rw [takeDelivery_eq hv]
  split
  · rw [← place.1, ← place.2] at view ⊢
    rw [handPage_sbcToPpu, handPage_pages]
    obtain ⟨v', there, -, staged, shown⟩ := handPage_view view
    exact ⟨reports, pages, v', there, staged, shown⟩
  · exact ⟨reports, pages, _, view, rfl, rfl⟩

/-- R120, R123: the delivery of the item last handed ends the wait for the panel. -/
theorem deliveryTaken_last {k : PageKind} (h : v.lastHanded = some (version, k)) :
    (v.delivered version kind group).awaiting = false ∧
      ∀ w ∈ (deliveryTaken version kind group v b p).2.waits, stationKey v.segment v.address ∉ w.panels := by
  have last : v.lastHanded.any (fun x => x.1 == version) = true := by simp [h]
  rw [PanelView.delivered_eq, deliveryTaken, if_pos last, if_pos last]
  exact ⟨rfl, leaveWaits_left⟩

end

/-! ## Refusals and shown versions (R123, R124) -/

section

variable {b : Book} {p : Ppu} {v : PanelView} {n : BitVec 8} {version : Half}

theorem pageItemRefused_eq {g : Nat} {rest : List (Nat × PpuReport)}
    (h : nextOf g b.mail.sbcToPpu = some (.refused v.address, rest)) (hv : p.view g v.address = some v) :
    pageItemRefused g b p = (b.reportTaken rest, p.putView { v with awaiting := false }) := by
  rw [pageItemRefused, onReport_eq h]
  simp only [hv, Option.getD_some]

theorem shownVersionReport_eq {g a : Nat} {rest : List (Nat × PpuReport)}
    (h : nextOf g b.mail.sbcToPpu = some (.shown a n version, rest)) :
    shownVersionReport g b p = takeShown g a n version (b.reportTaken rest) p := by
  rw [shownVersionReport, onReport_eq h]
  rfl

theorem takeShown_sbcToPpu (g a : Nat) (n : BitVec 8) (version : Half) (b : Book) (p : Ppu) :
    (takeShown g a n version b p).1.mail.sbcToPpu = b.mail.sbcToPpu := by
  unfold takeShown
  split
  · rfl
  · split
    · exact handPage_sbcToPpu ..
    · rfl

/-- R124: a report of another session, of the version recorded, or while an item is on its way is ignored. -/
theorem takeShown_ignored (hv : p.view v.segment v.address = some v)
    (h : v.session ≠ n ∨ v.shown = version ∨ v.awaiting = true) :
    takeShown v.segment v.address n version b p = (b, p) := by
  have ignored : ¬(v.session = n ∧ v.shown ≠ version ∧ (!v.awaiting) = true) := by
    rintro ⟨session, shown, awaiting⟩
    rcases h with h | h | h
    · exact h session
    · exact shown h
    · rw [h] at awaiting
      exact absurd awaiting (by decide)
  simp only [takeShown, hv, if_neg ignored]

/-- R124: a panel that shows another version is brought to the page as it stands. -/
theorem takeShown_corrected {pg : Page} (hv : p.view v.segment v.address = some v) (hs : v.session = n)
    (hn : v.shown ≠ version) (ha : v.awaiting = false) (ho : v.online = true)
    (hp : p.pages.find v.room = some pg) :
    takeShown v.segment v.address n version b p =
      (b.toSbcs [pageFor .display v pg],
        (p.putView { v with shown := version }).putView
          { v with shown := version, awaiting := true, lastHanded := some (pg.version, .display) }) := by
  have differs : v.session = n ∧ v.shown ≠ version ∧ (!v.awaiting) = true := ⟨hs, hn, by rw [ha]; rfl⟩
  simp only [takeShown, hv, if_pos differs]
  exact handPage_online (v := { v with shown := version }) (p := p.putView { v with shown := version }) ho hp

end

/-- Settles O48, each report by what it makes of the panel's view. -/
theorem panelViewsFollowTheBus : Obligations.PanelViewsFollowTheBus := by
  refine ⟨fun s g a c v rest hm hv hg ha => ?_, fun s g a group version kind v rest hm hv hg ha => ?_,
    fun s g a v rest hm hv hg ha => ?_, fun s g a n version v rest hm hv hg ha => ?_⟩ <;> subst hg ha
  · obtain ⟨reports, pages⟩ := takeLink_leaves v.segment v.address c (s.book.reportTaken rest) s.ppu
    refine ⟨_, runs_onPpu (f := fun _ => panelLinkChange v.segment) rfl (panelLinkChange_eq hm), reports, pages,
      fun n online => ?_, fun offline => ?_, fun removed => ?_, fun room rebound => ?_, fun gone => ?_⟩
    · subst online
      obtain ⟨v', view, online, session, staged, shown, page⟩ :=
        takeLink_online_view (b := s.book.reportTaken rest) hv n
      refine ⟨v', view, online, session, staged, shown, fun pg hpg => ?_⟩
      obtain ⟨awaiting, last, handed⟩ := page pg hpg
      exact ⟨awaiting, last, (congrArg (fun b : Book => b.mail.ppuToSbc) handed).trans rfl⟩
    · subst offline
      rw [takeLink_offline hv]
      exact ⟨_, Ppu.view_putView s.ppu v.left, rfl, rfl, rfl, rfl⟩
    · subst removed
      rw [takeLink_removed hv]
      exact Table.find_drop_self _ _
    · subst rebound
      rw [takeLink_rebound hv]
      exact ⟨_, Ppu.view_putView s.ppu { v.left with room := room }, rfl, rfl⟩
    · rcases gone with rfl | rfl
      · rw [takeLink_offline hv]
        exact leaveWaits_left
      · rw [takeLink_removed hv]
        exact leaveWaits_left
  · obtain ⟨reports, pages, v', view, staged, shown⟩ := takeDelivery_leaves (version := version) (kind := kind)
      (group := group) (b := s.book.reportTaken rest) hv
    rw [PanelView.delivered_eq] at staged shown
    refine ⟨_, v', runs_onPpu (f := fun _ => pageDelivered v.segment) rfl (pageDelivered_eq hm), reports, view, pages,
      fun display => ?_, fun stage => ?_, fun ⟨k, last⟩ stage => ?_⟩
    · subst display
      exact shown
    · subst stage
      exact ⟨staged, shown⟩
    · subst stage
      obtain ⟨awaiting, waits⟩ := deliveryTaken_last (kind := .stage) (group := group) (b := s.book.reportTaken rest)
        (p := s.ppu) last
      obtain ⟨-, -, there⟩ := deliveryTaken_leaves (version := version) (kind := .stage) (group := group) (v := v)
        (b := s.book.reportTaken rest) (p := s.ppu)
      rw [takeDelivery_stage hv] at view ⊢
      cases there.symm.trans view
      exact ⟨awaiting, waits⟩
  · exact ⟨_, runs_onPpu (f := fun _ => pageItemRefused v.segment) rfl (pageItemRefused_eq hm hv), rfl, rfl,
      Ppu.view_putView s.ppu { v with awaiting := false }⟩
  · refine ⟨_, runs_onPpu (f := fun _ => shownVersionReport v.segment) rfl (shownVersionReport_eq hm),
      takeShown_sbcToPpu .., fun ignored => ?_, fun session shown awaiting online pg hpg => ?_⟩
    · rw [takeShown_ignored hv ignored]
      exact ⟨rfl, rfl⟩
    · rw [takeShown_corrected hv session shown awaiting online hpg]
      exact ⟨rfl, Ppu.view_putView _
        { v with shown := version, awaiting := true, lastHanded := some (pg.version, .display) }⟩

end Sys2Proof.Machine

/-! PROOFS. Latch claims, the end of their waits, and the record of a latch broadcast (R120 to R122). -/

namespace Sys2Proof.Machine

/-! ## LATCH_GROUPS (R121) -/

section

variable {b : Book} {p : Ppu} {c : Ctx} {entries : List Bool}

theorem latchGroupsAsked_none (h : groupsSet entries = []) :
    latchGroupsAsked entries c b p = (b.reply c (Answer.of .badRequest), p) := by
  simp [latchGroupsAsked, h]

theorem latchGroupsAsked_empty (h : groupsSet entries ≠ []) (hl : (groupsSet entries).filter p.isLatched = []) :
    latchGroupsAsked entries c b p = (b.reply c (Answer.because .ok .empty), p) := by
  simp only [latchGroupsAsked, List.isEmpty_iff, if_neg h, if_pos hl]

theorem latchGroupsAsked_claim (hl : (groupsSet entries).filter p.isLatched ≠ []) :
    latchGroupsAsked entries c b p = latchClaim ((groupsSet entries).filter p.isLatched) (some c) (b, p) := by
  have h : groupsSet entries ≠ [] := fun h => hl (by rw [h]; rfl)
  simp only [latchGroupsAsked, List.isEmpty_iff, if_neg h, if_neg hl]

theorem latchClaim_leaves (groups : List Nat) (ctx : Option Ctx) (r : Book × Ppu) :
    (latchClaim groups ctx r).1.mail.requests = r.1.mail.requests ∧ (latchClaim groups ctx r).2.pages = r.2.pages := by
  by_cases now : r.2.awaited groups = [] ∨ r.2.horizon = none
  · rw [latchClaim_now now]
    exact ⟨by rw [endWait_mail]; rfl, rfl⟩
  · obtain ⟨awaited, horizon⟩ := not_or.mp now
    rw [latchClaim_waits awaited horizon]
    exact ⟨rfl, rfl⟩

theorem latchGroupsAsked_leaves (entries : List Bool) (c : Ctx) (b : Book) (p : Ppu) :
    (latchGroupsAsked entries c b p).1.mail.requests = b.mail.requests ∧
      (latchGroupsAsked entries c b p).2.pages = p.pages := by
  by_cases hl : (groupsSet entries).filter p.isLatched = []
  · by_cases h : groupsSet entries = []
    · rw [latchGroupsAsked_none h, Book.reply_mail]
      exact ⟨rfl, rfl⟩
    · rw [latchGroupsAsked_empty h hl, Book.reply_mail]
      exact ⟨rfl, rfl⟩
  · rw [latchGroupsAsked_claim hl]
    exact latchClaim_leaves _ _ _

end

theorem runs_latchGroups {s : State} {c : Ctx} {entries : List Bool} {rest : List Handed}
    (hq : Asks s c (.latchGroups entries) rest) :
    let l := (groupsSet entries).filter s.ppu.isLatched
    ∃ t, Runs .latchGroups s t ∧ t.book.mail.requests = rest ∧ t.ppu.pages = s.ppu.pages ∧
      (groupsSet entries = [] → t.ppu = s.ppu ∧ Replied s t c (Answer.of .badRequest)) ∧
      (groupsSet entries ≠ [] → l = [] → t.ppu = s.ppu ∧ Replied s t c (Answer.because .ok .empty)) ∧
      (l ≠ [] → s.ppu.awaited l = [] →
        t.ppu = s.ppu ∧ Replied s t c (Answer.ok (.latched l)) ∧
          t.book.mail.ppuToSbc = s.book.mail.ppuToSbc ++ [.latch l]) ∧
      (l ≠ [] → s.ppu.awaited l ≠ [] → s.ppu.horizon ≠ none →
        t.ppu.waits = s.ppu.waits ++ [{ groups := l, panels := s.ppu.awaited l, minutes := 0, ctx := some c }] ∧
          t.book.hmp = s.book.hmp) := by
  intro l
  have served : latchGroups s.book s.ppu = latchGroupsAsked entries c (s.book.withRequests rest) s.ppu :=
    hq.servePpu rfl rfl
  obtain ⟨requests, pages⟩ := latchGroupsAsked_leaves entries c (s.book.withRequests rest) s.ppu
  refine ⟨_, runs_onPpu (f := fun _ => latchGroups) rfl served, requests, pages, fun none => ?_,
    fun asked immediate => ?_, fun latched now => ?_, fun latched awaited horizon => ?_⟩
  · rw [latchGroupsAsked_none none]
    exact ⟨rfl, Book.reply_replied _ _ _ _ _ rfl rfl⟩
  · rw [latchGroupsAsked_empty asked immediate]
    exact ⟨rfl, Book.reply_replied _ _ _ _ _ rfl rfl⟩
  · rw [latchGroupsAsked_claim latched, latchClaim_now (.inl now), endWait_request rfl]
    exact ⟨rfl, Book.reply_replied _ _ _ _ _ rfl rfl, by rw [Book.reply_mail]; rfl⟩
  · rw [latchGroupsAsked_claim latched, latchClaim_waits awaited horizon]
    exact ⟨rfl, rfl⟩

/-! ## The LATCH step of a run (R120) -/

/-- The PPU has taken an action of the sequence unit; `rest` is left. -/
def Book.actionTaken (b : Book) (rest : List PpuAction) : Book := b.withMail { b.mail with squToPpu := rest }

theorem onPpuAction_eq {b : Book} {p : Ppu} {a : PpuAction} {rest : List PpuAction} (h : b.mail.squToPpu = a :: rest)
    (f : PpuAction → Book → Ppu → Option (Book × Ppu)) :
    onPpuAction f b p = (f a (b.actionTaken rest) p).getD (b, p) := by
  simp only [onPpuAction, h, Book.actionTaken]

theorem latchStep_eq {b : Book} {p : Ppu} {room : Nat} {rest : List PpuAction}
    (h : b.mail.squToPpu = .latch room :: rest) :
    latchStep b p = latchIfAny (p.groupsOf [room]) (b.actionTaken rest, p) := by
  rw [latchStep, onPpuAction_eq h]
  rfl

theorem runs_latchStep {s : State} {room : Nat} {rest : List PpuAction} {l : List Nat}
    (hm : s.book.mail.squToPpu = .latch room :: rest) (hl : s.ppu.groupsOf [room] = l) :
    ∃ t, Runs .latchStep s t ∧ t.book.mail.squToPpu = rest ∧ t.book.hmp = s.book.hmp ∧
      (l = [] → t.ppu = s.ppu ∧ t.book.mail.ppuToSbc = s.book.mail.ppuToSbc) ∧
      (l ≠ [] → s.ppu.awaited l = [] →
        t.ppu = s.ppu ∧ t.book.mail.ppuToSbc = s.book.mail.ppuToSbc ++ [.latch l]) ∧
      (l ≠ [] → s.ppu.awaited l ≠ [] → s.ppu.horizon ≠ none →
        t.ppu.waits = s.ppu.waits ++ [{ groups := l, panels := s.ppu.awaited l, minutes := 0, ctx := none }]) := by
  subst hl
  obtain ⟨⟨m, book, -⟩, -⟩ := latchIfAny_leaves (s.ppu.groupsOf [room]) (s.book.actionTaken rest, s.ppu)
  refine ⟨_, runs_onPpu (f := fun _ => latchStep) rfl (latchStep_eq hm), ?_, ?_, fun none => ?_, fun some now => ?_,
    fun some awaited horizon => ?_⟩
  · rw [book]
    rfl
  · rw [book]
    rfl
  · rw [none, latchIfAny_nil]
    exact ⟨rfl, rfl⟩
  · rw [latchIfAny_claim some, latchClaim_now (.inl now), endWait_noRequest rfl]
    exact ⟨rfl, rfl⟩
  · rw [latchIfAny_claim some, latchClaim_waits awaited horizon]
    rfl

/-! ## A wait that has reached two minutes (R120) -/

/-- Every panel's view stands under its segment and address. -/
def ViewsKeyed (p : Ppu) : Prop := ∀ k v, p.views.find k = some v → stationKey v.segment v.address = k

/-- R120: the SHOW to one panel that is still awaited. -/
def showOne (r : Book × Ppu) (key : Nat) : Book × Ppu :=
  match r.2.views.find key with
  | some v => handPage .display v r.1 r.2
  | none => r

theorem showAwaited_eq (w : LatchWait) (r : Book × Ppu) : showAwaited w r = w.panels.foldl showOne r := rfl

theorem showOne_hands (r : Book × Ppu) (key : Nat) : Hands r (showOne r key) := by
  unfold showOne
  split
  · exact handPage_hands ..
  · exact .refl r

theorem showAwaited_hands (w : LatchWait) (r : Book × Ppu) : Hands r (showAwaited w r) :=
  List.foldlRecOn (motive := Hands r) _ _ (.refl r) fun _ h key _ => h.trans (showOne_hands _ key)

theorem showsFor_cons (p : Ppu) (key : Nat) (l : List Nat) :
    showsFor p (key :: l) = showsFor p [key] ++ showsFor p l := by
  simp [showsFor]

theorem showsFor_congr {p p' : Ppu} (h : ∀ key, showsFor p' [key] = showsFor p [key]) (l : List Nat) :
    showsFor p' l = showsFor p l := by
  induction l with
  | nil => rfl
  | cons key l ih => rw [showsFor_cons, h, ih, ← showsFor_cons]

/-- What a SHOW to one panel hands, and that it changes nothing that a later SHOW is made from. -/
theorem showOne_sent {r : Book × Ppu} (keyed : ViewsKeyed r.2) (key : Nat) :
    (showOne r key).1 = r.1.toSbcs (showsFor r.2 [key]) ∧ ViewsKeyed (showOne r key).2 ∧
      ∀ k, showsFor (showOne r key).2 [k] = showsFor r.2 [k] := by
  have unchanged (h : showsFor r.2 [key] = []) (hr : showOne r key = r) :
      (showOne r key).1 = r.1.toSbcs (showsFor r.2 [key]) ∧ ViewsKeyed (showOne r key).2 ∧
        ∀ k, showsFor (showOne r key).2 [k] = showsFor r.2 [k] := by
    rw [hr, h]
    exact ⟨r.1.toSbcs_nil.symm, keyed, fun _ => rfl⟩
  cases hv : r.2.views.find key with
  | none => exact unchanged (by simp [showsFor, hv]) (by simp only [showOne, hv])
  | some v =>
    have shown : showOne r key = handPage .display v r.1 r.2 := by simp only [showOne, hv]
    by_cases ready : v.online = false ∨ r.2.pages.find v.room = none
    · refine unchanged ?_ (shown.trans (handPage_none ready))
      rcases ready with h | h <;> simp [showsFor, hv, h]
    · obtain ⟨online, page⟩ := not_or.mp ready
      obtain ⟨pg, hpg⟩ := Option.ne_none_iff_exists'.mp page
      have online : v.online = true := by simpa using online
      have views (k : Nat) : (r.2.putView (v.handed pg.version .display)).views.find k =
          if k = key then some (v.handed pg.version .display) else r.2.views.find k := by
        rw [← keyed key v hv]
        exact Table.find_put _ _ _ _
      rw [shown, handPage_online online hpg]
      refine ⟨by simp [showsFor, hv, online, hpg, pageFor], fun k y hy => ?_, fun k => ?_⟩
      · rw [views] at hy
        split at hy
        · next hk =>
          cases hy
          exact hk ▸ keyed key v hv
        · exact keyed k y hy
      · by_cases hk : k = key
        · subst hk
          simp only [showsFor, List.flatMap_cons, views, if_pos, hv]
          rfl
        · simp only [showsFor, List.flatMap_cons, views, if_neg hk]
          rfl

/-- R120: the SHOW items of a wait that its count ends, in the order of its panels (log 91). -/
theorem showAwaited_sent {w : LatchWait} {r : Book × Ppu} (keyed : ViewsKeyed r.2) :
    (showAwaited w r).1 = r.1.toSbcs (showsFor r.2 w.panels) := by
  rw [showAwaited_eq]
  generalize w.panels = l
  induction l generalizing r with
  | nil => exact r.1.toSbcs_nil.symm
  | cons key l ih =>
    obtain ⟨sent, still, same⟩ := showOne_sent keyed key
    rw [List.foldl_cons, ih still, sent, Book.toSbcs_toSbcs, showsFor_congr same, ← showsFor_cons]

theorem latchWaitExpiry_eq {b : Book} {p : Ppu} {w : LatchWait} {rest : List LatchWait}
    (h : takeFirst (fun w => decide (2 ≤ w.minutes)) p.waits = some (w, rest)) :
    latchWaitExpiry b p =
      (endWait (showAwaited w (b, { p with waits := rest })).1 w, (showAwaited w (b, { p with waits := rest })).2) := by
  simp only [latchWaitExpiry, h]

theorem runs_latchWaitExpiry {s : State} {w : LatchWait} {rest : List LatchWait}
    (hw : takeFirst (fun w => decide (2 ≤ w.minutes)) s.ppu.waits = some (w, rest)) :
    ∃ t l, Runs .latchWaitExpiry s t ∧ t.ppu.waits = rest ∧ t.ppu.pages = s.ppu.pages ∧
      t.book.mail.ppuToSbc = s.book.mail.ppuToSbc ++ l ++ [.latch w.groups] ∧
      (ViewsKeyed s.ppu → l = showsFor s.ppu w.panels) ∧
      (∀ c, w.ctx = some c → Replied s t c (Answer.ok (.latched w.groups))) ∧
      (w.ctx = none → t.book.hmp = s.book.hmp) := by
  have hands := showAwaited_hands w (s.book, { s.ppu with waits := rest })
  obtain ⟨l, sent⟩ := hands.book
  refine ⟨_, l, runs_onPpu (f := fun _ => latchWaitExpiry) rfl (latchWaitExpiry_eq hw), hands.waits, hands.pages, ?_,
    fun keyed => ?_, fun c hc => ?_, fun none => ?_⟩
  · rw [endWait_mail, sent]
    rfl
  · have shows := showAwaited_sent (w := w) (r := (s.book, { s.ppu with waits := rest })) keyed
    rw [sent] at shows
    exact List.append_cancel_left (congrArg (fun b : Book => b.mail.ppuToSbc) shows)
  · rw [endWait_request hc, sent]
    exact Book.reply_replied _ _ _ _ _ rfl rfl
  · rw [endWait_noRequest none, sent]
    rfl

/-! ## The record of a latch broadcast (R122) -/

section

variable {g : Nat} {groups : List Nat} {r : Book × Ppu}

/-- The views of a segment's panels stand under their addresses. -/
def SegmentKeyed (g : Nat) (p : Ppu) : Prop := ∀ k y, p.view g k = some y → y.segment = g ∧ y.address = k

theorem view_putView_ne {p : Ppu} {v : PanelView} {k : Nat} (hg : v.segment = g) (hk : v.address ≠ k) :
    (p.putView v).view g k = p.view g k := by
  refine Table.find_put_ne _ _ _ _ ?_
  rw [hg]
  unfold stationKey
  omega

theorem handPage_view_ne {kind : PageKind} {v : PanelView} {b : Book} {p : Ppu} {k : Nat} (hg : v.segment = g)
    (hk : v.address ≠ k) : (handPage kind v b p).2.view g k = p.view g k := by
  unfold handPage
  split
  · exact view_putView_ne (v := v.handed _ kind) hg hk
  · rfl

theorem correctShown_or (v : PanelView) (b : Book) (p : Ppu) :
    correctShown v b p = (b, p) ∨ correctShown v b p = handPage .display v b p := by
  unfold correctShown
  split
  · split
    · exact .inr rfl
    · exact .inl rfl
  · exact .inl rfl

/-- R122: one panel of the record now shows `version`, and is handed a SHOW where the page is another. -/
def panelShows (v : PanelView) (version : Half) (r : Book × Ppu) : Book × Ppu :=
  correctShown { v with shown := version } r.1 (r.2.putView { v with shown := version })

theorem panelShows_hands (v : PanelView) (version : Half) (r : Book × Ppu) : Hands r (panelShows v version r) := by
  have put : Hands r (r.1, r.2.putView { v with shown := version }) := ⟨⟨[], r.1.toSbcs_nil.symm⟩, rfl⟩
  unfold panelShows
  rcases correctShown_or { v with shown := version } r.1 (r.2.putView { v with shown := version }) with h | h <;> rw [h]
  · exact put
  · exact put.trans (handPage_hands ..)

theorem panelShows_view (v : PanelView) (version : Half) (r : Book × Ppu) :
    ∃ v', (panelShows v version r).2.view v.segment v.address = some v' ∧ SamePanel v v' ∧ v'.shown = version := by
  have put := Ppu.view_putView r.2 { v with shown := version }
  unfold panelShows
  rcases correctShown_or { v with shown := version } r.1 (r.2.putView { v with shown := version }) with h | h <;> rw [h]
  · exact ⟨_, put, ⟨rfl, rfl, rfl, rfl⟩, rfl⟩
  · obtain ⟨v', view, same, -, shown⟩ := handPage_view (kind := .display) (b := r.1) put
    exact ⟨v', view, ⟨same.segment, same.address, same.room, same.online⟩, shown⟩

theorem panelShows_view_ne {v : PanelView} {version : Half} {k : Nat} (hg : v.segment = g) (hk : v.address ≠ k) :
    (panelShows v version r).2.view g k = r.2.view g k := by
  have put : (r.2.putView { v with shown := version }).view g k = r.2.view g k := view_putView_ne hg hk
  unfold panelShows
  rcases correctShown_or { v with shown := version } r.1 (r.2.putView { v with shown := version }) with h | h <;> rw [h]
  · exact put
  · exact (handPage_view_ne (v := { v with shown := version }) hg hk).trans put

/-- R122: a panel of the record is passed over, or shows what it had staged. -/
theorem panelLatched_cases (g : Nat) (groups : List Nat) (r : Book × Ppu) (x : Nat × BitVec 8) :
    panelLatched g groups r x = r ∨
      ∃ v version, r.2.view g x.1 = some v ∧ panelLatched g groups r x = panelShows v version r := by
  unfold panelLatched
  split
  · exact .inl rfl
  · next v hv =>
    split
    · exact .inl rfl
    · split
      · exact .inr ⟨v, _, hv, rfl⟩
      · exact .inl rfl

theorem panelLatched_named {a n : Nat} {v : PanelView} {version : Half} (hv : r.2.view g a = some v)
    (hs : v.staged = some (version, n)) :
    panelLatched g groups r (a, v.session) = if n ∈ groups then panelShows v version r else r := by
  simp [panelLatched, hv, hs, panelShows]

theorem panelLatched_hands (g : Nat) (groups : List Nat) (r : Book × Ppu) (x : Nat × BitVec 8) :
    Hands r (panelLatched g groups r x) := by
  rcases panelLatched_cases g groups r x with h | ⟨v, version, -, h⟩ <;> rw [h]
  · exact .refl r
  · exact panelShows_hands v version r

/-- R122: the other panels of the segment stay as they are. -/
theorem panelLatched_others (keyed : SegmentKeyed g r.2) (x : Nat × BitVec 8) :
    SegmentKeyed g (panelLatched g groups r x).2 ∧
      ∀ k, k ≠ x.1 → (panelLatched g groups r x).2.view g k = r.2.view g k := by
  rcases panelLatched_cases g groups r x with h | ⟨v, version, hv, h⟩ <;> rw [h]
  · exact ⟨keyed, fun _ _ => rfl⟩
  · obtain ⟨hg, ha⟩ := keyed x.1 v hv
    have others (k : Nat) (hk : k ≠ x.1) : (panelShows v version r).2.view g k = r.2.view g k :=
      panelShows_view_ne hg (by omega)
    refine ⟨fun k y hy => ?_, others⟩
    by_cases hk : k = x.1
    · obtain ⟨v', view, same, -⟩ := panelShows_view v version r
      rw [hg, ha, ← hk, hy] at view
      cases view
      exact ⟨same.segment.trans hg, same.address.trans (ha.trans hk.symm)⟩
    · rw [others k hk] at hy
      exact keyed k y hy

/-- R122: panels that the record does not list stay as they are. -/
theorem panelsLatched_others {l : List (Nat × BitVec 8)} {a : Nat} (keyed : SegmentKeyed g r.2)
    (ha : a ∉ l.map fun p => p.1) :
    SegmentKeyed g (l.foldl (panelLatched g groups) r).2 ∧
      (l.foldl (panelLatched g groups) r).2.view g a = r.2.view g a := by
  induction l generalizing r with
  | nil => exact ⟨keyed, rfl⟩
  | cons x l ih =>
    obtain ⟨hx, hl⟩ := not_or.mp (mt List.mem_cons.mpr ha)
    obtain ⟨still, others⟩ := panelLatched_others (groups := groups) keyed x
    obtain ⟨keyed', view⟩ := ih still hl
    exact ⟨keyed', view.trans (others a hx)⟩

theorem latchBroadcastRecord_eq {b : Book} {p : Ppu} {panels : List (Nat × BitVec 8)} {rest : List (Nat × PpuReport)}
    (h : nextOf g b.mail.sbcToPpu = some (.broadcast groups panels, rest)) :
    latchBroadcastRecord g b p = panels.foldl (panelLatched g groups) (b.reportTaken rest, p) := by
  rw [latchBroadcastRecord, onReport_eq h]
  rfl

/-- R122: a listed panel shows what it had staged just when the broadcast named its group. -/
theorem panelsLatched_view {panels : List (Nat × BitVec 8)} {a n : Nat} {v : PanelView} {version : Half}
    (keyed : SegmentKeyed g r.2) (nodup : (panels.map fun p => p.1).Nodup) (listed : (a, v.session) ∈ panels)
    (hv : r.2.view g a = some v) (hs : v.staged = some (version, n)) :
    ∃ v', (panels.foldl (panelLatched g groups) r).2.view g a = some v' ∧ (n ∈ groups → v'.shown = version) ∧
      (n ∉ groups → v' = v) := by
  obtain ⟨before, behind, rfl⟩ := List.append_of_mem listed
  have alone : a ∉ (before.map fun p => p.1) ∧ a ∉ behind.map fun p => p.1 := by
    simp only [List.map_append, List.map_cons, List.nodup_middle, List.nodup_cons, List.mem_append, not_or] at nodup
    exact nodup.1
  obtain ⟨keyed₁, view₁⟩ := panelsLatched_others (groups := groups) keyed alone.1
  obtain ⟨keyed₂, -⟩ := panelLatched_others (groups := groups) keyed₁ (a, v.session)
  obtain ⟨-, view₂⟩ := panelsLatched_others (groups := groups) keyed₂ alone.2
  rw [List.foldl_append, List.foldl_cons, view₂, panelLatched_named (view₁.trans hv) hs]
  by_cases hn : n ∈ groups
  · obtain ⟨hg, ha⟩ := keyed a v hv
    obtain ⟨v', view, -, shown⟩ := panelShows_view v version (before.foldl (panelLatched g groups) r)
    rw [hg, ha] at view
    exact ⟨v', by rw [if_pos hn, view], fun _ => shown, fun h => absurd hn h⟩
  · exact ⟨v, by rw [if_neg hn, view₁, hv], fun h => absurd h hn, fun _ => rfl⟩

end

/-- Settles O47: a claim by whether a panel is awaited, a wait's end by what it hands, a broadcast panel by panel. -/
theorem latchesWaitForTheirPanels : Obligations.LatchesWaitForTheirPanels := by
  refine ⟨fun _ _ _ _ hq => runs_latchGroups hq, fun _ _ _ _ hm hl => runs_latchStep hm hl,
    fun _ _ _ hw => runs_latchWaitExpiry hw,
    fun s g a n v groups panels rest version hm nodup listed hv _ _ hs keyed => ?_⟩
  obtain ⟨v', view, named, other⟩ := panelsLatched_view (r := (s.book.reportTaken rest, s.ppu)) (groups := groups) keyed
    nodup listed hv hs
  have hands : Hands (s.book.reportTaken rest, s.ppu)
      (panels.foldl (panelLatched g groups) (s.book.reportTaken rest, s.ppu)) :=
    List.foldlRecOn (motive := Hands _) _ _ (.refl _) fun _ h x _ => h.trans (panelLatched_hands g groups _ x)
  exact ⟨_, v', runs_onPpu (f := fun _ => latchBroadcastRecord g) rfl (latchBroadcastRecord_eq hm),
    (congrArg Mail.sbcToPpu hands.builds.mail).trans rfl, view, named, other⟩

end Sys2Proof.Machine

/-! SUPPORT. What a page shows (R112 to R114): the row of the table of display states that applies, and each field that
follows it, over the records of the page's rooms as the reference judges them. -/

namespace Sys2Proof.Machine

/-! ## The reference slot (R112) -/

theorem reference_coming {p : Ppu} {group n : Nat} (t : Ctu) (hl : p.isLatched group = true) (hc : p.coming = some n) :
    p.reference t group = slotOfBoundary (some n) := by
  simp only [Ppu.reference, hl, hc]

/-- R112: but for a LATCHED group whose pre-boundary has been taken, the reference is the current slot, or the slot of
the CTU's minute where R5 gives none inside the day. -/
theorem reference_current {p : Ppu} {group : Nat} (t : Ctu) (h : p.isLatched group = false ∨ p.coming = none) :
    p.reference t group =
      if t.slot = .beforeDay ∧ 360 ≤ t.minute then
        if t.minute < 1320 then .slot ((t.minute - 360) / 15) else .afterDay
      else t.slot := by
  unfold Ppu.reference
  split
  · next hl hc => rw [hl, hc] at h; simp at h
  · rfl

theorem number_eq_some {ref : CurSlot} {n : Nat} : ref.number = some n ↔ ref = .slot n := by
  cases ref <;> simp [CurSlot.number]

/-! ## The records judged (R112, R113) -/

theorem coversRef_iff {r : Record} {ref : CurSlot} : r.coversRef ref = true ↔ Covers r ref := by
  cases ref <;> simp [Record.coversRef, Covers, CurSlot.number]

theorem shuts_iff {r : Record} {ref : CurSlot} :
    r.shuts ref = true ↔ r.kind = .closure ∧ r.state = .confirmed ∧ Covers r ref := by
  simp [Record.shuts, coversRef_iff, and_assoc]

theorem awaits_iff {r : Record} {ref : CurSlot} :
    r.awaits ref = true ↔ r.kind = .meeting ∧ r.state = .awaitingCheckin ∧ Covers r ref := by
  simp [Record.awaits, coversRef_iff, and_assoc]

theorem fills_iff {r : Record} {ref : CurSlot} :
    r.fills ref = true ↔
      r.kind = .meeting ∧ (r.state = .checkedIn ∨ r.state = .inProgress) ∧ Covers r ref := by
  simp [Record.fills, coversRef_iff, and_assoc]

theorem occupies_iff {r : Record} {ref : CurSlot} :
    r.occupies ref = true ↔
      (r.kind = .closure ∧ r.state = .confirmed ∨ r.kind = .meeting ∧ r.state.started = true) ∧ Covers r ref := by
  simp only [Record.occupies, Bool.or_eq_true, Bool.and_eq_true, shuts_iff, coversRef_iff, beq_iff_eq]
  tauto

theorem follows_iff {r : Record} {ref : CurSlot} :
    r.follows ref = true ↔ r.kind = .meeting ∧ r.state = .confirmed ∧ ref.reaches r.start = false := by
  simp [Record.follows, and_assoc]

/-- R112, Projection: a CONFIRMED meeting that starts at or before the reference is judged as R47 would start it. -/
theorem judged_projected {p : Ppu} {ref : CurSlot} {q : Record}
    (h : q.kind = .meeting ∧ q.state = .confirmed ∧ ref.reaches q.start = true) :
    p.judged ref q =
      { q with
        state :=
          if q.check = .early then .checkedIn
          else if (p.rooms.find q.room).any (fun rm => rm.checkin) then .awaitingCheckin
          else .inProgress } := by
  unfold Ppu.judged Record.started
  rw [if_pos h]
  split
  · rfl
  · split <;> rfl

theorem judged_as_it_stands {p : Ppu} {ref : CurSlot} {q : Record}
    (h : ¬(q.kind = .meeting ∧ q.state = .confirmed ∧ ref.reaches q.start = true)) : p.judged ref q = q := if_neg h

theorem mem_candidates {p : Ppu} {t : Ctu} {b : Book} {h : Horizon} {x : Nat} {ref : CurSlot} {q : Record}
    (hq : q ∈ b.viewRecords .live h.today) (hr : q.room ∈ candidateRooms p.rooms x) :
    p.judged ref q ∈ (p.pageView t b h x ref).candidates :=
  List.mem_map.mpr ⟨q, List.mem_filter.mpr ⟨hq, by simpa using hr⟩, rfl⟩

/-! ## The display state (R113) -/

section

variable {v : PageView} {release : Option Nat}

/-- R113, rows 4 to 9: `DisplayRow v release d` when `d` is the display state of the first row that applies, with the
record that covers the reference. -/
inductive DisplayRow (v : PageView) (release : Option Nat) : Display × Option (Record × Option Label) → Prop
  | closed {r : Record} (mem : r ∈ v.candidates) (shuts : r.shuts v.reference = true) :
    DisplayRow v release (.closed, some (r, r.label))
  | awaits {r : Record} (unshut : ∀ q ∈ v.candidates, ¬q.shuts v.reference = true) (mem : r ∈ v.candidates)
    (awaits : r.awaits v.reference = true) : DisplayRow v release (.awaitingCheckin, some (r, r.label))
  | fills {r : Record} (unshut : ∀ q ∈ v.candidates, ¬q.shuts v.reference = true)
    (unawaited : ∀ q ∈ v.candidates, ¬q.awaits v.reference = true) (mem : r ∈ v.candidates)
    (fills : r.fills v.reference = true) : DisplayRow v release (.inUse, some (r, r.label))
  | occupies {r : Record} (unshut : ∀ q ∈ v.candidates, ¬q.shuts v.reference = true)
    (unawaited : ∀ q ∈ v.candidates, ¬q.awaits v.reference = true) (mem : r ∈ v.neighbours)
    (occupies : r.occupies v.reference = true) : DisplayRow v release (.inUse, some (r, none))
  | free (unshut : ∀ q ∈ v.candidates, ¬q.shuts v.reference = true)
    (unawaited : ∀ q ∈ v.candidates, ¬q.awaits v.reference = true)
    (unfilled : ∀ q ∈ v.candidates, ¬q.fills v.reference = true)
    (unoccupied : ∀ q ∈ v.neighbours, ¬q.occupies v.reference = true) :
    DisplayRow v release
      (if release.isSome ∧ release = v.reference.number then .released
        else if v.startsSoon then .startingSoon else .free, none)

theorem displayRow (v : PageView) (release : Option Nat) : DisplayRow v release (v.display release) := by
  unfold PageView.display
  split
  · next h =>
    exact .closed (List.mem_of_find?_eq_some h) (List.find?_some (p := fun r : Record => r.shuts v.reference) h)
  · next hs =>
    have unshut := List.find?_eq_none.mp hs
    split
    · next h =>
      exact .awaits unshut (List.mem_of_find?_eq_some h)
        (List.find?_some (p := fun r : Record => r.awaits v.reference) h)
    · next ha =>
      have unawaited := List.find?_eq_none.mp ha
      split
      · next h =>
        exact .fills unshut unawaited (List.mem_of_find?_eq_some h)
          (List.find?_some (p := fun r : Record => r.fills v.reference) h)
      · next hf =>
        split
        · next h =>
          exact .occupies unshut unawaited (List.mem_of_find?_eq_some h)
            (List.find?_some (p := fun r : Record => r.occupies v.reference) h)
        · next ho =>
          have free := DisplayRow.free (release := release) unshut unawaited
            (List.find?_eq_none.mp hf) (List.find?_eq_none.mp ho)
          split
          · next h => rwa [if_pos h] at free
          · next h =>
            rw [if_neg h] at free
            split
            · next hsoon => rwa [if_pos hsoon] at free
            · next hsoon => rwa [if_neg hsoon] at free

theorem releasedAt_iff : (release.isSome = true ∧ release = v.reference.number) ↔
    ∃ n, v.reference = .slot n ∧ release = some n := by
  cases hr : v.reference <;> cases release <;> simp [CurSlot.number, eq_comm]

theorem startsSoon_iff :
    v.startsSoon = true ↔
      ∃ r ∈ v.candidates, r.kind = .meeting ∧ r.state = .confirmed ∧
        (v.reference = .beforeDay ∧ r.start = 0 ∧ 345 ≤ v.minute ∨ ∃ n, v.reference = .slot n ∧ r.start = n + 1) := by
  unfold PageView.startsSoon
  cases v.reference <;> simp [and_assoc]

/-- R113: the row that applies is the first whose condition holds. -/
theorem DisplayRow.first {d : Display × Option (Record × Option Label)} (row : DisplayRow v release d)
    {closed awaits inUse released soon : Prop} (hc : closed ↔ ∃ r ∈ v.candidates, r.shuts v.reference = true)
    (ha : awaits ↔ ∃ r ∈ v.candidates, r.awaits v.reference = true)
    (hu : inUse ↔ (∃ r ∈ v.candidates, r.fills v.reference = true) ∨ ∃ r ∈ v.neighbours, r.occupies v.reference = true)
    (hr : released ↔ release.isSome = true ∧ release = v.reference.number) (hs : soon ↔ v.startsSoon = true) :
    (closed → d.1 = .closed) ∧ (¬closed → awaits → d.1 = .awaitingCheckin) ∧
      (¬closed → ¬awaits → inUse → d.1 = .inUse) ∧ (¬closed → ¬awaits → ¬inUse → released → d.1 = .released) ∧
      (¬closed → ¬awaits → ¬inUse → ¬released → soon → d.1 = .startingSoon) ∧
      (¬closed → ¬awaits → ¬inUse → ¬released → ¬soon → d.1 = .free) := by
  have notClosed (h : ∀ q ∈ v.candidates, ¬q.shuts v.reference = true) : ¬closed :=
    fun c => (hc.mp c).elim fun q hq => h q hq.1 hq.2
  have notAwaits (h : ∀ q ∈ v.candidates, ¬q.awaits v.reference = true) : ¬awaits :=
    fun c => (ha.mp c).elim fun q hq => h q hq.1 hq.2
  cases row with
  | closed mem shuts =>
    have first : closed := hc.mpr ⟨_, mem, shuts⟩
    simp [first]
  | awaits unshut mem awaits =>
    have second := ha.mpr ⟨_, mem, awaits⟩
    simp [notClosed unshut, second]
  | fills unshut unawaited mem fills =>
    have third := hu.mpr (.inl ⟨_, mem, fills⟩)
    simp [notClosed unshut, notAwaits unawaited, third]
  | occupies unshut unawaited mem occupies =>
    have third := hu.mpr (.inr ⟨_, mem, occupies⟩)
    simp [notClosed unshut, notAwaits unawaited, third]
  | free unshut unawaited unfilled unoccupied =>
    have notInUse : ¬inUse := by
      rw [hu]
      rintro (⟨q, mem, hq⟩ | ⟨q, mem, hq⟩)
      · exact unfilled q mem hq
      · exact unoccupied q mem hq
    by_cases ended : release.isSome = true ∧ release = v.reference.number
    · rw [if_pos ended]
      simp [notClosed unshut, notAwaits unawaited, notInUse, hr.mpr ended]
    · rw [if_neg ended]
      by_cases near : v.startsSoon = true
      · rw [if_pos near]
        simp [notClosed unshut, notAwaits unawaited, notInUse, mt hr.mp ended, hs.mpr near]
      · rw [if_neg near]
        simp [notClosed unshut, notAwaits unawaited, notInUse, mt hr.mp ended, mt hs.mp near]

/-- R114: a page that shows a covering record shows its end, and its label where it is a candidate's. -/
theorem display_covering :
    let d := v.display release
    (d.1 = .closed ∨ d.1 = .awaitingCheckin ∨ d.1 = .inUse →
      ∃ r, Covers r v.reference ∧ (d.2.map fun c => boundaryMinute (c.1.start + c.1.count)) =
          some (360 + 15 * (r.start + r.count)) ∧
        (r ∈ v.candidates ∧ d.2.bind (·.2) = r.label ∨ r ∈ v.neighbours ∧ d.2.bind (·.2) = none)) ∧
      (d.1.open = true → d.2 = none) := by
  intro d
  have row : DisplayRow v release d := displayRow v release
  generalize d = shown at row
  cases row with
  | closed mem shuts =>
    obtain ⟨-, -, covers⟩ := shuts_iff.mp shuts
    exact ⟨fun _ => ⟨_, covers, rfl, .inl ⟨mem, rfl⟩⟩, fun h => absurd h Bool.false_ne_true⟩
  | awaits unshut mem awaits =>
    obtain ⟨-, -, covers⟩ := awaits_iff.mp awaits
    exact ⟨fun _ => ⟨_, covers, rfl, .inl ⟨mem, rfl⟩⟩, fun h => absurd h Bool.false_ne_true⟩
  | fills unshut unawaited mem fills =>
    obtain ⟨-, -, covers⟩ := fills_iff.mp fills
    exact ⟨fun _ => ⟨_, covers, rfl, .inl ⟨mem, rfl⟩⟩, fun h => absurd h Bool.false_ne_true⟩
  | occupies unshut unawaited mem occupies =>
    obtain ⟨-, covers⟩ := occupies_iff.mp occupies
    exact ⟨fun _ => ⟨_, covers, rfl, .inr ⟨mem, rfl⟩⟩, fun h => absurd h Bool.false_ne_true⟩
  | free => exact ⟨by split <;> [skip; split] <;> simp, fun _ => rfl⟩

end

/-! ## The fields that follow it (R114) -/

/-- A list sorted by rank begins with an element of the lowest rank. -/
theorem sortBy_head {α : Type} {rank : α → Nat} {l : List α} {a : α} (h : (sortBy rank l).head? = some a) :
    a ∈ l ∧ ∀ b ∈ l, rank a ≤ rank b := by
  obtain ⟨tail, sorted⟩ := List.head?_eq_some_iff.mp h
  have rising := sortBy_rising rank l
  rw [sorted] at rising
  have mem (b : α) : b ∈ a :: tail ↔ b ∈ l := by rw [← sorted, mem_sortBy]
  refine ⟨(mem a).mp List.mem_cons_self, fun b hb => ?_⟩
  rcases List.mem_cons.mp ((mem b).mpr hb) with rfl | hb
  · exact Nat.le_refl _
  · exact List.rel_of_pairwise_cons rising hb

section

variable {v : PageView}

theorem mem_follows {r : Record} : r ∈ v.candidates.filter (fun r => r.follows v.reference) ↔
    r ∈ v.candidates ∧ r.kind = .meeting ∧ r.state = .confirmed ∧ v.reference.reaches r.start = false := by
  rw [List.mem_filter, follows_iff]

/-- R114: the next meeting is the earliest candidate CONFIRMED meeting after the reference. -/
theorem next_earliest {r : Record} (h : v.next = some r) :
    (r ∈ v.candidates ∧ r.kind = .meeting ∧ r.state = .confirmed ∧ v.reference.reaches r.start = false) ∧
      ∀ q, q ∈ v.candidates ∧ q.kind = .meeting ∧ q.state = .confirmed ∧ v.reference.reaches q.start = false →
        r.start ≤ q.start := by
  obtain ⟨mem, lowest⟩ := sortBy_head h
  exact ⟨mem_follows.mp mem, fun q hq => lowest q (mem_follows.mpr hq)⟩

theorem next_none_iff : v.next = none ↔
    ∀ r, ¬(r ∈ v.candidates ∧ r.kind = .meeting ∧ r.state = .confirmed ∧ v.reference.reaches r.start = false) := by
  unfold PageView.next
  rw [List.head?_eq_none_iff, List.eq_nil_iff_forall_not_mem]
  simp only [mem_sortBy, mem_follows]

theorem checkinOpen_iff {shown : Display} :
    v.checkinOpen shown = true ↔
      shown = .awaitingCheckin ∨
        ∃ r ∈ v.candidates, r.kind = .meeting ∧ r.state = .confirmed ∧ r.check = .none ∧
          360 + 15 * r.start ≤ v.minute + 10 := by
  simp only [PageView.checkinOpen, Bool.or_eq_true, List.any_eq_true, Bool.and_eq_true, beq_iff_eq, decide_eq_true_eq,
    and_assoc]
  rfl

theorem walkupAt_iff {p : Ppu} {t : Ctu} {b : Book} {d : Date} {x : Nat} {rm : Room} {ref : CurSlot} :
    p.walkupAt t b d x rm ref = true ↔
      rm.walkup = true ∧ ∃ n, ref = .slot n ∧
        (t.delivered n = true ∨ p.isLatched rm.group = true ∧ p.coming = some n) ∧ p.cellsFree b d x n = true := by
  cases ref <;> simp [Ppu.walkupAt, CurSlot.number, and_assoc]

theorem freeUntil_covered (h : ∃ n, v.reference = .slot n ∧ v.busyAt n = true) : v.freeUntil = none := by
  obtain ⟨n, hr, busy⟩ := h
  simp [PageView.freeUntil, hr, CurSlot.number, busy]

/-- R114: `n` is the first slot of the day after the reference that a record covers. -/
def PageView.FirstBusy (v : PageView) (n : Nat) : Prop :=
  n < 64 ∧ v.reference.reaches n = false ∧ v.busyAt n = true ∧
    ∀ k, k < n → v.reference.reaches k = true ∨ v.busyAt k = false

theorem freeUntil_uncovered (h : ∀ n, v.reference = .slot n → v.busyAt n = false) :
    (∀ n, v.FirstBusy n → v.freeUntil = some (360 + 15 * n)) ∧ ((∀ n, ¬v.FirstBusy n) → v.freeUntil = none) := by
  have free : ¬(v.reference.number.any v.busyAt = true) := by
    rw [Option.any_eq_true]
    rintro ⟨n, hn, busy⟩
    rw [h n (number_eq_some.mp hn)] at busy
    exact absurd busy (by decide)
  rw [PageView.freeUntil, if_neg free]
  have found (n : Nat) :
      ((List.range 64).find? fun n => !v.reference.reaches n && v.busyAt n) = some n ↔ v.FirstBusy n := by
    rw [List.find?_range_eq_some]
    simp only [Bool.and_eq_true, Bool.not_eq_true', List.mem_range, Bool.not_and, Bool.not_not, Bool.or_eq_true,
      PageView.FirstBusy]
    tauto
  refine ⟨fun n hn => ?_, fun none => ?_⟩
  · rw [show Config.slotsPerDay = 64 from rfl, (found n).mpr hn]
    rfl
  · rw [show Config.slotsPerDay = 64 from rfl,
      Option.eq_none_iff_forall_ne_some.mpr fun n hn => none n ((found n).mp hn)]
    rfl

end

/-! ## The content of a page (R113, R114) -/

section

variable {p : Ppu} {t : Ctu} {b : Book} {h : Horizon} {x : Nat} {rm : Room} {pg : Page} {ref : CurSlot}

theorem outOfService_iff {d : Date} :
    Ppu.outOfService b d x rm = true ↔ rm.bookable = false ∨ ∃ r, b.row x d = some r ∧ r.state = .quarantined := by
  simp [Ppu.outOfService, Option.any_eq_true]

theorem content_notReady (hh : p.horizon = none) : p.content t b x rm pg ref = .blank .notReady rm 0 := by
  simp only [Ppu.content, hh]

theorem content_dark (hh : p.horizon = some h) (dark : p.isDark rm.group = true ∧ p.darkPeriod = true) :
    p.content t b x rm pg ref = .blank .dark rm 0 := by
  simp [Ppu.content, hh, dark]

theorem content_outOfService (hh : p.horizon = some h) (lit : ¬(p.isDark rm.group = true ∧ p.darkPeriod = true))
    (out : Ppu.outOfService b h.today x rm = true) :
    p.content t b x rm pg ref = .blank .outOfService rm pg.overlay := by
  simp only [Ppu.content, hh, Bool.and_eq_true, if_neg lit, if_pos out]

theorem content_shown (hh : p.horizon = some h) (lit : ¬(p.isDark rm.group = true ∧ p.darkPeriod = true))
    (serving : ¬Ppu.outOfService b h.today x rm = true) :
    p.content t b x rm pg ref = p.shownContent t b h x rm pg ref := by
  simp only [Ppu.content, hh, Bool.and_eq_true, if_neg lit, if_neg serving]

/-- R113, R114: what a page shows in rows 4 to 9 of the table, field by field. -/
theorem shownContent_derived : PageDerived p t b h x rm pg ref (p.shownContent t b h x rm pg ref) where
  display := by
    refine (displayRow (p.pageView t b h x ref) pg.release).first ?_ ?_ ?_
      (releasedAt_iff (v := p.pageView t b h x ref)).symm startsSoon_iff.symm
    · simp only [shuts_iff]
      rfl
    · simp only [awaits_iff]
      rfl
    · simp only [fills_iff, occupies_iff]
      rfl
  covering := by
    obtain ⟨covered, uncovered⟩ := display_covering (v := p.pageView t b h x ref) (release := pg.release)
    refine ⟨covered, fun shown => ?_⟩
    simp only [Ppu.shownContent, uncovered shown]
    exact ⟨rfl, rfl⟩
  next := by
    intro later
    refine ⟨fun none => ?_, fun ⟨q, hq⟩ => ?_⟩
    · simp only [Ppu.shownContent, next_none_iff.mpr none]
      exact ⟨rfl, rfl⟩
    · cases hn : (p.pageView t b h x ref).next with
      | none => exact absurd hq (next_none_iff.mp hn q)
      | some r =>
        obtain ⟨first, earliest⟩ := next_earliest hn
        refine ⟨r, first, earliest, ?_⟩
        simp only [Ppu.shownContent, hn]
        exact ⟨rfl, rfl⟩
  walkup := by
    simp only [Ppu.shownContent, Bool.and_eq_true, walkupAt_iff]
  checkin := checkinOpen_iff
  freeUntil := by
    refine ⟨fun unoffered => ?_, fun shown free => ?_⟩
    · change
        (if ((p.pageView t b h x ref).display pg.release).1.open then (p.pageView t b h x ref).freeUntil
          else none) = none
      split
      · next shown => exact freeUntil_covered (unoffered.resolve_left fun h => Bool.false_ne_true (h.symm.trans shown))
      · rfl
    · have offered : (p.shownContent t b h x rm pg ref).freeUntil = (p.pageView t b h x ref).freeUntil := if_pos shown
      rw [offered]
      exact freeUntil_uncovered (v := p.pageView t b h x ref) free

end

end Sys2Proof.Machine

/-! PROOFS. The pages follow the changes of the book and the overlay claims of runs (R112 to R115, R118, R119). -/

namespace Sys2Proof

/-- Entries changed in place one after another, by a change that made twice is made once. -/
theorem Table.find_modifyAll {α : Type} {f : α → α} (hf : ∀ a, f (f a) = f a) (l : List Nat) (t : Table α) (k : Nat) :
    (l.foldl (fun t y => t.modify y f) t).find k = if k ∈ l then (t.find k).map f else t.find k := by
  induction l generalizing t with
  | nil => rfl
  | cons y l ih =>
    rw [List.foldl_cons, ih, Table.find_modify]
    by_cases hk : k = y
    · subst hk
      have twice : f ∘ f = f := funext hf
      simp [Option.map_map, twice]
    · simp [hk]

end Sys2Proof

namespace Sys2Proof.Machine

/-! ## Release marks (R118) -/

section

variable {p : Ppu} {t : Ctu} {n : BookingNews} {x k : Nat}

/-- R118: a page with its release mark set. -/
def Page.released (k : Nat) (g : Page) : Page := { g with release := some k }

theorem markReleased_eq (p : Ppu) (x k : Nat) :
    p.markReleased x k =
      { p with pages := (x :: p.neighbourRooms x).foldl (fun t y => t.modify y (Page.released k)) p.pages } := by
  unfold Ppu.markReleased
  generalize x :: p.neighbourRooms x = l
  induction l generalizing p with
  | nil => rfl
  | cons y l ih => exact ih { p with pages := p.pages.modify y (Page.released k) }

theorem markReleased_pages (p : Ppu) (x k y : Nat) :
    (p.markReleased x k).pages.find y =
      if y ∈ x :: p.neighbourRooms x then (p.pages.find y).map (Page.released k) else p.pages.find y := by
  rw [markReleased_eq]
  exact Table.find_modifyAll (f := Page.released k) (fun _ => rfl) _ _ _

theorem applied_grace (hk : n.kind = .releasedGrace) (hs : t.slot = .slot k) :
    p.applied t n = p.markReleased n.room k := by
  simp only [Ppu.applied, hk, hs, CurSlot.number]

theorem applied_other (hk : n.kind ≠ .releasedGrace) : p.applied t n = p := by
  unfold Ppu.applied
  split
  · next h _ => exact absurd h hk
  · rfl

theorem applied_cases (p : Ppu) (t : Ctu) (n : BookingNews) :
    p.applied t n = p ∨ ∃ k, p.applied t n = p.markReleased n.room k := by
  unfold Ppu.applied
  split
  · exact .inr ⟨_, rfl⟩
  · exact .inl rfl

/-- R118: a change's own effect is on release marks alone. -/
theorem applied_leaves (p : Ppu) (t : Ctu) (n : BookingNews) :
    p.applied t n = { p with pages := (p.applied t n).pages } ∧
      ∀ x pg, p.pages.find x = some pg →
        ∃ pg', (p.applied t n).pages.find x = some pg' ∧ pg'.content = pg.content ∧ pg'.version = pg.version := by
  rcases applied_cases p t n with h | ⟨k, h⟩ <;> rw [h]
  · exact ⟨rfl, fun x pg hpg => ⟨pg, hpg, rfl, rfl⟩⟩
  · refine ⟨by rw [markReleased_eq], fun x pg hpg => ?_⟩
    rw [markReleased_pages, hpg]
    split
    · exact ⟨_, rfl, rfl, rfl⟩
    · exact ⟨_, rfl, rfl, rfl⟩

end

/-! ## Changes of the book (R118) -/

/-- The PPU has taken a change handed by the BKE; `rest` is left. -/
def Book.newsTaken (b : Book) (rest : List PpuNews) : Book := b.withMail { b.mail with bkeToPpu := rest }

/-- R118: the pages with the change's own effect on them; only a change of today has one. -/
def Ppu.changeApplied (p : Ppu) (t : Ctu) (today : Date) (n : BookingNews) : Ppu :=
  if n.date = today then p.applied t n else p

section

variable {t : Ctu} {b : Book} {p : Ppu} {rest : List PpuNews}

theorem onPpuNews_eq {n : PpuNews} (h : b.mail.bkeToPpu = n :: rest)
    (f : PpuNews → Book → Ppu → Option (Book × Ppu)) :
    onPpuNews f b p = (f n (b.newsTaken rest) p).getD (b, p) := by
  simp only [onPpuNews, h, Book.newsTaken]

theorem ppuBookingChange_eq {n : BookingNews} {h : Horizon} (hm : b.mail.bkeToPpu = .change n :: rest)
    (hh : p.horizon = some h) :
    ppuBookingChange t b p =
      buildPages t n.cause (p.changed h.today n) (b.newsTaken rest, p.changeApplied t h.today n) := by
  rw [ppuBookingChange, onPpuNews_eq hm]
  simp only [Option.getD_some, takeChange, hh, Ppu.changeApplied]

theorem ppuRowStateChange_eq {room : Nat} (hm : b.mail.bkeToPpu = .rowState room :: rest) :
    ppuRowStateChange t b p = buildPages t .plain [room] (b.newsTaken rest, p) := by
  rw [ppuRowStateChange, onPpuNews_eq hm]
  rfl

theorem publishCompletion_eq {rooms : List Nat} (hm : b.mail.bkeToPpu = .published rooms :: rest) :
    publishCompletion t b p =
      latchIfAny (p.groupsOf rooms) (buildPages t .plain (rooms.flatMap p.affected) (b.newsTaken rest, p)) := by
  rw [publishCompletion, onPpuNews_eq hm]
  rfl

theorem changeApplied_ready {s : State} {h : Horizon} {n : BookingNews} :
    ReadyToBuild s (s.book.newsTaken rest, s.ppu.changeApplied s.ctu h.today n) := by
  unfold Ppu.changeApplied
  split
  · obtain ⟨ppu, pages⟩ := applied_leaves s.ppu s.ctu n
    exact ⟨by rw [ppu], by rw [ppu], by rw [ppu], rfl, pages⟩
  · exact .of_pages rfl rfl rfl rfl rfl

/-- R115: an item is staged in a LATCHED group unless the change came from the room's own panel. -/
theorem BookingNews.kindFor (n : BookingNews) (latched : Bool) (x : Nat) :
    n.cause.kindFor latched x = if latched = true ∧ n.panel ≠ some x then .stage else .display := by
  unfold BookingNews.cause
  cases latched <;> cases n.panel <;> simp [BuildCause.kindFor]

theorem mem_affected {x y : Nat} : x ∈ p.affected y ↔ Affects p y x := by
  unfold Ppu.affected Affects
  cases hr : p.rooms.find y with
  | none => simp
  | some rm => cases hk : rm.kind <;> simp [hk]

theorem mem_changed {today : Date} {n : BookingNews} {x : Nat} :
    x ∈ p.changed today n ↔
      (n.date = today ∧ Affects p n.room x) ∨ ∃ y, n.before = some (y, today) ∧ Affects p y x := by
  unfold Ppu.changed
  rw [List.mem_append, ← mem_affected]
  refine or_congr ?_ ?_
  · split <;> simp [*]
  · split
    · next y d hb =>
      by_cases hd : d = today
      · subst hd
        simp [hb, mem_affected]
      · simp [hb, hd]
    · next hb => simp [hb]

end

section

variable {s : State} {rest : List PpuNews}

/-- R118: a booking change. -/
theorem runs_ppuBookingChange {n : BookingNews} {h : Horizon} (hm : s.book.mail.bkeToPpu = .change n :: rest)
    (hh : s.ppu.horizon = some h) :
    ∃ t, Runs .ppuBookingChange s t ∧ t.book.mail.bkeToPpu = rest ∧
      (∀ x ∈ s.ppu.changed h.today n, PageBuilt s t x) ∧
      (n.kind = .releasedGrace → n.date = h.today → ∀ k, s.ctu.slot = .slot k →
        ∀ y, y = n.room ∨ y ∈ s.ppu.neighbourRooms n.room → ∀ pg, s.ppu.pages.find y = some pg →
          ∃ pg', t.ppu.pages.find y = some pg' ∧ pg'.release = some k) ∧
      (n.kind ≠ .releasedGrace ∨ n.date ≠ h.today → ∀ y pg, s.ppu.pages.find y = some pg →
        ∃ pg', t.ppu.pages.find y = some pg' ∧ pg'.release = pg.release) ∧
      ∀ v rm pg, s.ppu.views.entries = [(stationKey v.segment v.address, v)] → v.online = true →
        v.room ∈ s.ppu.changed h.today n → s.ppu.rooms.find v.room = some rm → s.ppu.pages.find v.room = some pg →
        ∃ pg', t.ppu.pages.find v.room = some pg' ∧
          (pg'.content ≠ pg.content →
            PageHanded s t v
              (if s.ppu.isLatched rm.group = true ∧ n.panel ≠ some v.room then .stage else .display) pg') := by
  obtain ⟨t, run, mail, -, done⟩ := runs_ppuBuilds (i := .ppuBookingChange) rfl (ppuBookingChange_eq hm hh)
  have ready : ReadyToBuild s (s.book.newsTaken rest, s.ppu.changeApplied s.ctu h.today n) := changeApplied_ready
  refine ⟨t, run, (congrArg Mail.bkeToPpu mail).trans rfl, fun x hx => done.pageBuilt ready hx,
    fun grace today k hs y hy pg hpg => ?_, fun other y pg hpg => ?_, fun v rm pg only online _ hrm hpg => ?_⟩
  · have marked : (s.ppu.changeApplied s.ctu h.today n).pages.find y = some (pg.released k) := by
      rw [Ppu.changeApplied, if_pos today, applied_grace grace hs, markReleased_pages,
        if_pos (List.mem_cons.mpr hy), hpg]
      rfl
    obtain ⟨pg', found, -, release⟩ := done.kept marked
    exact ⟨pg', found, release⟩
  · have unmarked : s.ppu.changeApplied s.ctu h.today n = s.ppu := by
      rcases other with kind | date
      · rw [Ppu.changeApplied, applied_other kind, ite_self]
      · exact if_neg date
    obtain ⟨pg', found, -, release⟩ := done.kept (pg := pg) (by rw [unmarked]; exact hpg)
    exact ⟨pg', found, release⟩
  · rw [← BookingNews.kindFor]
    exact done.pageHanded ready only online hrm hpg

/-- R118: today's live row of a room has changed state. -/
theorem runs_ppuRowStateChange {room : Nat} (hm : s.book.mail.bkeToPpu = .rowState room :: rest) :
    ∃ t, Runs .ppuRowStateChange s t ∧ t.book.mail.bkeToPpu = rest ∧ PageBuilt s t room := by
  obtain ⟨t, run, mail, -, done⟩ := runs_ppuBuilds (i := .ppuRowStateChange) rfl (ppuRowStateChange_eq hm)
  exact ⟨t, run, (congrArg Mail.bkeToPpu mail).trans rfl,
    done.pageBuilt (.of_pages rfl rfl rfl rfl rfl) List.mem_cons_self⟩

/-- R118: a publish completion. -/
theorem runs_publishCompletion {rooms : List Nat} (hm : s.book.mail.bkeToPpu = .published rooms :: rest) :
    ∃ t, Runs .publishCompletion s t ∧ t.book.mail.bkeToPpu = rest ∧
      (∀ y ∈ rooms, ∀ x ∈ s.ppu.affected y, PageBuilt s t x) ∧
      (s.ppu.groupsOf rooms = [] → t.ppu.waits = s.ppu.waits) ∧
      (s.ppu.groupsOf rooms ≠ [] → LatchClaimed s t (s.ppu.groupsOf rooms)) := by
  obtain ⟨t, m, run, mail, -, done, -, waits, claimed⟩ :=
    runs_ppuBuildsAndLatches (i := .publishCompletion) rfl (publishCompletion_eq hm) rfl rfl rfl
  exact ⟨t, run, (congrArg Mail.bkeToPpu mail).trans rfl,
    fun y hy x hx => done.pageBuilt (.of_pages rfl rfl rfl rfl rfl) (List.mem_flatMap.mpr ⟨y, hy, hx⟩), waits, claimed⟩

end

/-! ## Overlays (R119) -/

/-- R119: the overlay setting of a room's page, before its build. -/
def Ppu.overlaid (p : Ppu) (room message : Nat) : Ppu :=
  { p with pages := p.pages.modify room fun g => { g with overlay := message } }

section

variable {t : Ctu} {b : Book} {p : Ppu} {room : Nat} {rest : List PpuAction}

theorem showOverlay_eq {message : Nat} (hm : b.mail.squToPpu = .overlay room message :: rest) :
    showOverlay t b p = buildPages t .plain [room] (b.actionTaken rest, p.overlaid room message) := by
  rw [showOverlay, onPpuAction_eq hm]
  rfl

theorem clearOverlay_eq (hm : b.mail.squToPpu = .clearOverlay room :: rest) :
    clearOverlay t b p = buildPages t .plain [room] (b.actionTaken rest, p.overlaid room 0) := by
  rw [clearOverlay, onPpuAction_eq hm]
  rfl

theorem overlaid_pages {message : Nat} {pg : Page} (h : p.pages.find room = some pg) :
    (p.overlaid room message).pages.find room = some { pg with overlay := message } := by
  simp only [Ppu.overlaid, Table.find_modify, if_pos, h, Option.map_some]

theorem overlaid_pages_ne {message x : Nat} (h : x ≠ room) :
    (p.overlaid room message).pages.find x = p.pages.find x := by
  simp only [Ppu.overlaid, Table.find_modify, if_neg h]

theorem overlaid_ready {s : State} {message : Nat} :
    ReadyToBuild s (s.book.actionTaken rest, s.ppu.overlaid room message) := by
  refine ⟨rfl, rfl, rfl, rfl, fun x pg hpg => ?_⟩
  by_cases hx : x = room
  · subst hx
    exact ⟨_, overlaid_pages hpg, rfl, rfl⟩
  · exact ⟨pg, (overlaid_pages_ne hx).trans hpg, rfl, rfl⟩

end

section

variable {s : State} {room : Nat} {rest : List PpuAction}

/-- R119: SHOW_OVERLAY. -/
theorem runs_showOverlay {message : Nat} (hm : s.book.mail.squToPpu = .overlay room message :: rest) :
    ∃ t, Runs .showOverlay s t ∧ t.book.mail.squToPpu = rest ∧ PageBuilt s t room ∧
      (∀ pg, s.ppu.pages.find room = some pg →
        ∃ pg', t.ppu.pages.find room = some pg' ∧ pg'.overlay = message ∧
          ∀ v rm, s.ppu.views.entries = [(stationKey v.segment v.address, v)] → v.room = room → v.online = true →
            s.ppu.rooms.find room = some rm → pg'.content ≠ pg.content →
            PageHanded s t v (if s.ppu.isLatched rm.group then .stage else .display) pg') ∧
      ∀ x, x ≠ room → t.ppu.pages.find x = s.ppu.pages.find x := by
  obtain ⟨t, run, mail, -, done⟩ := runs_ppuBuilds (i := .showOverlay) rfl (showOverlay_eq hm)
  refine ⟨t, run, (congrArg Mail.squToPpu mail).trans rfl, done.pageBuilt overlaid_ready List.mem_cons_self,
    fun pg hpg => ?_, fun x hx => ?_⟩
  · obtain ⟨pg', found, overlay, -⟩ := done.kept (overlaid_pages hpg)
    refine ⟨pg', found, overlay, fun v rm only hv online hrm changed => ?_⟩
    subst hv
    obtain ⟨pg'', found', handed⟩ := done.pageHanded overlaid_ready only online hrm hpg
    cases found.symm.trans found'
    rw [← BuildCause.kindFor_plain]
    exact handed changed
  · rw [done.find, if_neg (by simpa using hx)]
    exact overlaid_pages_ne hx

/-- R119: CLEAR_OVERLAY. -/
theorem runs_clearOverlay (hm : s.book.mail.squToPpu = .clearOverlay room :: rest) :
    ∃ t, Runs .clearOverlay s t ∧ t.book.mail.squToPpu = rest ∧ PageBuilt s t room ∧
      ∀ pg, s.ppu.pages.find room = some pg → ∃ pg', t.ppu.pages.find room = some pg' ∧ pg'.overlay = 0 := by
  obtain ⟨t, run, mail, -, done⟩ := runs_ppuBuilds (i := .clearOverlay) rfl (clearOverlay_eq hm)
  refine ⟨t, run, (congrArg Mail.squToPpu mail).trans rfl, done.pageBuilt overlaid_ready List.mem_cons_self,
    fun pg hpg => ?_⟩
  obtain ⟨pg', found, overlay, -⟩ := done.kept (overlaid_pages hpg)
  exact ⟨pg', found, overlay⟩

end

/-! ## What a page is derived from (R112 to R114) -/

/-- R114: a page with nothing to show has none of the fields that follow the display state. -/
theorem blank_fieldless (d : Display) (rm : Room) (overlay : Nat) :
    let c := PageContent.blank d rm overlay
    c.endMinute = none ∧ c.label = none ∧ c.nextMinute = none ∧ c.nextLabel = none ∧ c.freeUntil = none ∧
      c.walkup = false ∧ c.checkinOpen = false :=
  ⟨rfl, rfl, rfl, rfl, rfl, rfl, rfl⟩

/-- R113, R114: rows 1 to 3 of the table, and what the rows behind them are derived from. -/
theorem content_first (p : Ppu) (t : Ctu) (b : Book) (x : Nat) (rm : Room) (pg : Page) (ref : CurSlot) :
    let c := p.content t b x rm pg ref
    let fieldless : Prop :=
      c.endMinute = none ∧ c.label = none ∧ c.nextMinute = none ∧ c.nextLabel = none ∧ c.freeUntil = none ∧
        c.walkup = false ∧ c.checkinOpen = false
    c.group = rm.group ∧ c.code = rm.code ∧
      (p.horizon = none → c.display = .notReady ∧ c.overlay = 0 ∧ fieldless) ∧
      ∀ h, p.horizon = some h →
        let dark := p.isDark rm.group = true ∧ p.darkPeriod = true
        let out := rm.bookable = false ∨ ∃ r, b.row x h.today = some r ∧ r.state = .quarantined
        (dark → c.display = .dark ∧ c.overlay = 0 ∧ fieldless) ∧
        (¬dark → c.overlay = pg.overlay) ∧
        (¬dark → out → c.display = .outOfService ∧ fieldless) ∧
        (¬dark → ¬out → PageDerived p t b h x rm pg ref c) := by
  intro c fieldless
  cases hh : p.horizon with
  | none =>
    have hc : c = .blank .notReady rm 0 := content_notReady hh
    clear_value c
    subst hc
    exact ⟨rfl, rfl, fun _ => ⟨rfl, rfl, blank_fieldless ..⟩, fun _ h => absurd h.symm (Option.some_ne_none _)⟩
  | some h =>
    by_cases dark : p.isDark rm.group = true ∧ p.darkPeriod = true
    · have hc : c = .blank .dark rm 0 := content_dark hh dark
      clear_value c
      subst hc
      exact ⟨rfl, rfl, fun h => absurd h (Option.some_ne_none _), fun _ _ =>
        ⟨fun _ => ⟨rfl, rfl, blank_fieldless ..⟩, fun lit => absurd dark lit, fun lit => absurd dark lit,
          fun lit => absurd dark lit⟩⟩
    · by_cases out : Ppu.outOfService b h.today x rm = true
      · have hc : c = .blank .outOfService rm pg.overlay := content_outOfService hh dark out
        clear_value c
        subst hc
        refine ⟨rfl, rfl, fun h => absurd h (Option.some_ne_none _), fun _ he => ?_⟩
        cases he
        exact ⟨fun h => absurd h dark, fun _ => rfl, fun _ _ => ⟨rfl, blank_fieldless ..⟩,
          fun _ serving => absurd (outOfService_iff.mp out) serving⟩
      · have hc : c = p.shownContent t b h x rm pg ref := content_shown hh dark out
        clear_value c
        subst hc
        refine ⟨rfl, rfl, fun h => absurd h (Option.some_ne_none _), fun _ he => ?_⟩
        cases he
        exact ⟨fun h => absurd h dark, fun _ => rfl, fun _ h => absurd (outOfService_iff.mpr h) out,
          fun _ _ => shownContent_derived⟩

/-- R112: the reference slot. -/
theorem reference_slot (p : Ppu) (t : Ctu) (group : Nat) :
    (∀ n, p.isLatched group = true → p.coming = some n →
      (n ≤ 63 → p.reference t group = .slot n) ∧ (n = 64 → p.reference t group = .afterDay)) ∧
    (p.isLatched group = false ∨ p.coming = none →
      (t.slot ≠ .beforeDay ∨ t.minute < 360 → p.reference t group = t.slot) ∧
      (t.slot = .beforeDay → 1320 ≤ t.minute → p.reference t group = .afterDay) ∧
      ∀ n, t.slot = .beforeDay → t.minute < 1320 → 360 + 15 * n ≤ t.minute → t.minute < 375 + 15 * n →
        p.reference t group = .slot n) := by
  refine ⟨fun n latched coming => ?_, fun current => ?_⟩
  · rw [reference_coming t latched coming]
    exact ⟨fun inside => if_pos inside, fun last => if_neg (by omega)⟩
  · rw [reference_current t current]
    refine ⟨fun given => if_neg fun ⟨before, inside⟩ => given.elim (absurd before) (by omega),
      fun before late => ?_, fun n before early lower upper => ?_⟩
    · rw [if_pos ⟨before, by omega⟩, if_neg (by omega)]
    · rw [if_pos ⟨before, by omega⟩, if_pos early]
      congr 1
      omega

/-- R112: a candidate room's live record of today, judged at the reference. -/
theorem candidate_judged (p : Ppu) (t : Ctu) (b : Book) (h : Horizon) (x : Nat) (ref : CurSlot) (q : Record)
    (hq : q ∈ b.viewRecords .live h.today) (hr : q.room ∈ candidateRooms p.rooms x) :
    ∃ r ∈ (p.pageView t b h x ref).candidates,
      r = { q with state := r.state } ∧
        (q.kind = .meeting ∧ q.state = .confirmed ∧ ref.reaches q.start = true →
          r.state =
            if q.check = .early then .checkedIn
            else if (p.rooms.find q.room).any (fun rm => rm.checkin) then .awaitingCheckin
            else .inProgress) ∧
        (¬(q.kind = .meeting ∧ q.state = .confirmed ∧ ref.reaches q.start = true) → r.state = q.state) := by
  refine ⟨_, mem_candidates hq hr, ?_⟩
  by_cases projected : q.kind = .meeting ∧ q.state = .confirmed ∧ ref.reaches q.start = true
  · rw [judged_projected projected]
    exact ⟨rfl, fun _ => rfl, fun h => absurd projected h⟩
  · rw [judged_as_it_stands projected]
    exact ⟨rfl, fun h => absurd h projected, fun _ => rfl⟩

/-- Settles O46: the changes by the pages that their claims build, a page's content by the row of R113 that applies. -/
theorem pagesFollowTheBookAndTheRuns : Obligations.PagesFollowTheBookAndTheRuns :=
  ⟨fun _ _ _ _ hm hh => runs_ppuBookingChange hm hh, fun _ _ _ hm => runs_ppuRowStateChange hm,
    fun _ _ _ hm => runs_publishCompletion hm, fun _ _ _ _ hm => runs_showOverlay hm,
    fun _ _ _ hm => runs_clearOverlay hm, content_first, candidate_judged, reference_slot,
    fun _ _ _ _ => mem_changed⟩

end Sys2Proof.Machine

/-! SUPPORT. The operations of the catering scheduler (R130, R138 to R142, R145): what each leaves of the book, one rule for
each, so that the proofs about its steps do not unfold them. -/

namespace Sys2Proof.Machine

/-! ## What the scheduler leaves of the book -/

/-- The operation works on the CSC's state alone; beside it, it offers tickets and calls to the SBC and posts notices. -/
structure CateringOnly (b b' : Book) : Prop where
  bke : b'.bke = b.bke
  bss : b'.bss = b.bss
  squ : b'.squ = b.squ
  cfs : b'.cfs = b.cfs
  mail : b'.mail = { b.mail with ticketOffers := b'.mail.ticketOffers, callOffers := b'.mail.callOffers }
  out : ∃ l, b'.hmp.out = b.hmp.out ++ l ∧ ∀ f ∈ l, f.isNotice = true

theorem CateringOnly.refl (b : Book) : CateringOnly b b := ⟨rfl, rfl, rfl, rfl, rfl, [], by simp, by simp⟩

theorem CateringOnly.trans {a b c : Book} (h : CateringOnly a b) (k : CateringOnly b c) : CateringOnly a c where
  bke := k.bke.trans h.bke
  bss := k.bss.trans h.bss
  squ := k.squ.trans h.squ
  cfs := k.cfs.trans h.cfs
  mail := by rw [k.mail, h.mail]
  out := by
    obtain ⟨l, hl, notices⟩ := h.out
    obtain ⟨m, hm, notices'⟩ := k.out
    exact ⟨l ++ m, by rw [hm, hl, List.append_assoc], fun f hf => (List.mem_append.mp hf).elim (notices f) (notices' f)⟩

theorem CateringOnly.foldl {α : Type} {f : Book → α → Book} (h : ∀ b a, CateringOnly b (f b a)) (l : List α) (b : Book) :
    CateringOnly b (l.foldl f b) := by
  induction l generalizing b with
  | nil => exact .refl b
  | cons a l ih => exact (h b a).trans (ih (f b a))

/-- Room codes are read in the BKE's directory. -/
theorem CateringOnly.code {b b' : Book} (h : CateringOnly b b') (x : Nat) : b'.code x = b.code x := by
  unfold Book.code
  rw [h.bke]

theorem withCsc_catering (b : Book) (c : Csc) : CateringOnly b (b.withCsc c) := ⟨rfl, rfl, rfl, rfl, rfl, [], by simp, by simp⟩

theorem post_catering (b : Book) (n : Notice) : CateringOnly b (b.post n) :=
  ⟨rfl, rfl, rfl, rfl, rfl, b.hmp.post_notices n⟩

/-- The operation works on the kitchens' lists and marks, and on what is offered and posted for them. -/
structure ListsOnly (b b' : Book) : Prop extends CateringOnly b b' where
  csc : b'.csc = { b.csc with kitchens := b'.csc.kitchens }

section

variable {b b' : Book} (h : ListsOnly b b')
include h

theorem ListsOnly.orders : b'.csc.orders = b.csc.orders := by rw [h.csc]

theorem ListsOnly.capacity : b'.csc.capacity = b.csc.capacity := by rw [h.csc]

theorem ListsOnly.guard : b'.csc.guard = b.csc.guard := by rw [h.csc]

end

theorem ListsOnly.refl (b : Book) : ListsOnly b b := ⟨.refl b, rfl⟩

theorem ListsOnly.trans {a b c : Book} (h : ListsOnly a b) (k : ListsOnly b c) : ListsOnly a c :=
  ⟨h.toCateringOnly.trans k.toCateringOnly, by rw [k.csc, h.csc]⟩

/-! ## Kitchens, tickets and calls -/

theorem modifyKitchen_lists (b : Book) (k : Nat) (f : Kitchen → Kitchen) : ListsOnly b (b.modifyKitchen k f) :=
  ⟨withCsc_catering _ _, rfl⟩

theorem modifyKitchen_other (b : Book) {j k : Nat} (h : j ≠ k) (f : Kitchen → Kitchen) :
    (b.modifyKitchen k f).csc.kitchen j = b.csc.kitchen j := by
  simp [Book.modifyKitchen, Csc.kitchen, Table.find_modify, h]

/-- R140: an offer is noted in the queue of offers alone. -/
theorem offerTicket_eq (b : Book) (k : Nat) :
    ∃ l, b.offerTicket k = b.withMail { b.mail with ticketOffers := l } ∧
      ∀ kit, b.csc.kitchen k = some kit → kit.online = true → kit.tickets ≠ [] → b.csc.ticketFree k = true → k ∈ l := by
  unfold Book.offerTicket
  cases hk : b.csc.kitchen k with
  | none => exact ⟨b.mail.ticketOffers, rfl, nofun⟩
  | some kit =>
    dsimp only
    split
    · exact ⟨_, rfl, fun _ _ _ _ _ => by simp⟩
    · next held =>
      refine ⟨b.mail.ticketOffers, rfl, fun x hx online work free => ?_⟩
      cases hx
      simpa [online, work, free] using held

theorem offerCall_eq (b : Book) (k : Nat) :
    ∃ l, b.offerCall k = b.withMail { b.mail with callOffers := l } ∧
      ∀ kit, b.csc.kitchen k = some kit → kit.online = true → kit.calls ≠ [] → kit.callOut = none → k ∈ l := by
  unfold Book.offerCall
  cases hk : b.csc.kitchen k with
  | none => exact ⟨b.mail.callOffers, rfl, nofun⟩
  | some kit =>
    dsimp only
    split
    · exact ⟨_, rfl, fun _ _ _ _ _ => by simp⟩
    · next held =>
      refine ⟨b.mail.callOffers, rfl, fun x hx online work free => ?_⟩
      cases hx
      simpa [online, work, free] using held

@[simp] theorem offerTicket_csc (b : Book) (k : Nat) : (b.offerTicket k).csc = b.csc := by
  obtain ⟨l, hl, -⟩ := offerTicket_eq b k
  rw [hl]
  rfl

@[simp] theorem offerTicket_hmp (b : Book) (k : Nat) : (b.offerTicket k).hmp = b.hmp := by
  obtain ⟨l, hl, -⟩ := offerTicket_eq b k
  rw [hl]
  rfl

@[simp] theorem offerCall_csc (b : Book) (k : Nat) : (b.offerCall k).csc = b.csc := by
  obtain ⟨l, hl, -⟩ := offerCall_eq b k
  rw [hl]
  rfl

@[simp] theorem offerCall_hmp (b : Book) (k : Nat) : (b.offerCall k).hmp = b.hmp := by
  obtain ⟨l, hl, -⟩ := offerCall_eq b k
  rw [hl]
  rfl

@[simp] theorem offerCall_ticketOffers (b : Book) (k : Nat) :
    (b.offerCall k).mail.ticketOffers = b.mail.ticketOffers := by
  obtain ⟨l, hl, -⟩ := offerCall_eq b k
  rw [hl]
  rfl

/-- R140: where its conditions hold the kitchen's ticket is on offer. -/
theorem offerTicket_offered {b : Book} {k : Nat} {kit : Kitchen} (hk : b.csc.kitchen k = some kit)
    (online : kit.online = true) (work : kit.tickets ≠ []) (free : b.csc.ticketFree k = true) :
    k ∈ (b.offerTicket k).mail.ticketOffers := by
  obtain ⟨l, hl, offered⟩ := offerTicket_eq b k
  rw [hl]
  exact offered kit hk online work free

/-- R141: where its conditions hold the kitchen's call is on offer. -/
theorem offerCall_offered {b : Book} {k : Nat} {kit : Kitchen} (hk : b.csc.kitchen k = some kit)
    (online : kit.online = true) (work : kit.calls ≠ []) (free : kit.callOut = none) :
    k ∈ (b.offerCall k).mail.callOffers := by
  obtain ⟨l, hl, offered⟩ := offerCall_eq b k
  rw [hl]
  exact offered kit hk online work free

theorem offerTicket_lists (b : Book) (k : Nat) : ListsOnly b (b.offerTicket k) := by
  obtain ⟨l, hl, -⟩ := offerTicket_eq b k
  rw [hl]
  exact ⟨⟨rfl, rfl, rfl, rfl, rfl, [], by simp, by simp⟩, rfl⟩

theorem offerCall_lists (b : Book) (k : Nat) : ListsOnly b (b.offerCall k) := by
  obtain ⟨l, hl, -⟩ := offerCall_eq b k
  rw [hl]
  exact ⟨⟨rfl, rfl, rfl, rfl, rfl, [], by simp, by simp⟩, rfl⟩

/-- R142: work that waits for a kitchen out of reach is told once. -/
theorem checkReach_told {b : Book} {k : Nat} {kit : Kitchen} (hk : b.csc.kitchen k = some kit) (offline : kit.online = false)
    (fresh : kit.unreachable = false) (work : kit.tickets ≠ [] ∨ kit.calls ≠ []) :
    b.checkReach k =
      (b.modifyKitchen k fun x => { x with unreachable := true }).post
        (.kitchenUnreachable k kit.terminal kit.known kit.tickets.length kit.calls.length) := by
  unfold Book.checkReach
  simp only [hk]
  exact if_pos (by rcases work with h | h <;> simp [offline, fresh, h])

theorem checkReach_lists (b : Book) (k : Nat) : ListsOnly b (b.checkReach k) := by
  unfold Book.checkReach
  split
  · split
    · exact (modifyKitchen_lists b k _).trans ⟨post_catering _ _, rfl⟩
    · exact .refl b
  · exact .refl b

/-- R142: the check sets no field of a kitchen but its mark. -/
theorem checkReach_kitchen {b : Book} {k : Nat} {kit : Kitchen} (hk : b.csc.kitchen k = some kit) :
    ∃ u, (b.checkReach k).csc.kitchen k = some { kit with unreachable := u } := by
  unfold Book.checkReach
  simp only [hk]
  split
  · exact ⟨true, modifyKitchen_kitchen hk _⟩
  · exact ⟨kit.unreachable, hk⟩

theorem joinTickets_lists (b : Book) (k id : Nat) : ListsOnly b (b.joinTickets k id) :=
  ((modifyKitchen_lists b k _).trans (checkReach_lists _ k)).trans (offerTicket_lists _ k)

/-- R140: an order that joins the list is on it. -/
theorem joinTickets_kitchen {b : Book} {k : Nat} {kit : Kitchen} (id : Nat) (hk : b.csc.kitchen k = some kit) :
    ∃ kit', (b.joinTickets k id).csc.kitchen k = some kit' ∧ id ∈ kit'.tickets := by
  obtain ⟨u, hu⟩ := checkReach_kitchen
    (modifyKitchen_kitchen hk fun x => { x with tickets := insertBy b.csc.ticketRank id x.tickets })
  exact ⟨_, (congrArg (·.kitchen k) (offerTicket_csc _ k)).trans hu, (mem_insertBy ..).mpr (.inl rfl)⟩

theorem joinCalls_lists (b : Book) (k : Nat) (c : Call) : ListsOnly b (b.joinCalls k c) := by
  unfold Book.joinCalls
  split
  · split
    · exact .refl b
    · exact ((modifyKitchen_lists b k _).trans (checkReach_lists _ k)).trans (offerCall_lists _ k)
  · exact .refl b

/-- R141: a call that joins the list is on it. -/
theorem joinCalls_kitchen {b : Book} {k : Nat} {kit : Kitchen} (c : Call) (hk : b.csc.kitchen k = some kit) :
    ∃ kit', (b.joinCalls k c).csc.kitchen k = some kit' ∧ c ∈ kit'.calls := by
  unfold Book.joinCalls
  simp only [hk]
  split
  · next listed => exact ⟨kit, hk, List.contains_iff_mem.mp listed⟩
  · obtain ⟨u, hu⟩ := checkReach_kitchen (modifyKitchen_kitchen hk fun x => { x with calls := x.calls ++ [c] })
    exact ⟨_, (congrArg (·.kitchen k) (offerCall_csc _ k)).trans hu, by simp⟩

/-! ## Orders -/

/-- R132: the orders' table of the book stays keyed. -/
theorem putOrder_keyed {b : Book} (h : OrdersKeyed b) (o : Order) : OrdersKeyed (b.putOrder o) := by
  intro k x hx
  rw [show (b.putOrder o).csc.orders.find k = _ from Table.find_put ..] at hx
  split at hx
  · next hk =>
    cases hx
    exact hk.symm
  · exact h k x hx

theorem putOrder_found (b : Book) (o : Order) : (b.putOrder o).csc.orders.find o.id = some o := Table.find_put_self ..

theorem putOrder_other (b : Book) {o : Order} {j : Nat} (h : j ≠ o.id) :
    (b.putOrder o).csc.orders.find j = b.csc.orders.find j := Table.find_put_ne _ _ _ _ h

theorem putOrder_catering (b : Book) (o : Order) : CateringOnly b (b.putOrder o) := withCsc_catering _ _

theorem postOrder_catering (b : Book) (o : Order) (old : Option OrderState) (cause : OrderCause) (mark : OrderMark) :
    CateringOnly b (b.postOrder o old cause mark) := post_catering _ _

theorem orderFor_found {c : Csc} {booking : Nat} {o : Order} (h : c.orders.find o.id = some o) (hb : o.booking = booking) :
    c.orderFor booking (some o.id) = some o := by
  simp [Csc.orderFor, h, hb, Option.filter]

/-! ## Capacity (R130) -/

theorem commit_find (c : Csc) (k : Nat) (d : Date) (w n x : Nat) :
    (c.commit k d w n).capacity.find x =
      (c.capacity.find x).map fun e => { e with committed := e.committed + if x = capKey k d w then n else 0 } := by
  refine (Table.find_modify ..).trans ?_
  split
  · next hx => rw [hx]
  · cases c.capacity.find x <;> rfl

theorem giveBack_find (c : Csc) (k : Nat) (d : Date) (w n x : Nat) :
    (c.giveBack k d w n).capacity.find x =
      (c.capacity.find x).map fun e => { e with committed := e.committed - if x = capKey k d w then n else 0 } := by
  refine (Table.find_modify ..).trans ?_
  split
  · next hx => rw [hx]
  · cases c.capacity.find x <;> rfl

/-- R130: covers committed to a window of an entry. -/
theorem commit_entry {c : Csc} {k : Nat} {d : Date} {w n : Nat} {e : CapEntry} (h : c.entry k d w = some e) :
    (c.commit k d w n).entry k d w = some { e with committed := e.committed + n } := by
  refine (commit_find c k d w n _).trans ?_
  rw [show c.capacity.find (capKey k d w) = some e from h, if_pos rfl]
  rfl

theorem remaining_entry {c : Csc} {k : Nat} {d : Date} {w : Nat} {e : CapEntry} (h : c.entry k d w = some e) :
    c.remaining k d w = e.capacity - e.committed := by
  simp [Csc.remaining, h]

/-- R131: covers are committed to no closed entry. -/
theorem commit_closed {c : Csc} {k : Nat} {d : Date} {w n j : Nat} {y : CapEntry} (fits : CoversFit c k d w n)
    (hy : c.capacity.find j = some y) (closed : y.closed = true) : (c.commit k d w n).capacity.find j = some y := by
  have elsewhere : j ≠ capKey k d w := fun h => fits.1 ⟨y, by rw [h] at hy; exact hy, closed⟩
  simp [commit_find, hy, elsewhere]

/-! ## The waitlist scan (R138) -/

/-- R138: what a scan can do. -/
structure Scanned (b b' : Book) : Prop extends CateringOnly b b' where
  guard : b'.csc.guard = b.csc.guard
  keyed : OrdersKeyed b → OrdersKeyed b'
  orders : OrdersKeyed b → ∀ j o, b.csc.orders.find j = some o → o.state ≠ .waitlisted → b'.csc.orders.find j = some o
  closed : ∀ j y, b.csc.capacity.find j = some y → y.closed = true → b'.csc.capacity.find j = some y

theorem Scanned.refl (b : Book) : Scanned b b := ⟨.refl b, rfl, id, fun _ _ _ h _ => h, fun _ _ h _ => h⟩

theorem Scanned.trans {a b c : Book} (h : Scanned a b) (k : Scanned b c) : Scanned a c where
  toCateringOnly := h.toCateringOnly.trans k.toCateringOnly
  guard := k.guard.trans h.guard
  keyed := fun ha => k.keyed (h.keyed ha)
  orders := fun ha j o ho hs => k.orders (h.keyed ha) j o (h.orders ha j o ho hs) hs
  closed := fun j y hy hc => k.closed j y (h.closed j y hy hc) hc

/-- R138: a visit of a scan confirms the order `o` of the waitlist. -/
def Book.scanConfirms (b : Book) (k id : Nat) (o : Order) : Book :=
  (((b.withCsc (b.csc.commit k o.date o.window o.covers)).putOrder { o with state := .confirmed }).leaveWaitlist k
    id).postOrder { o with state := .confirmed } (some .waitlisted) .scan

/-- R138: a visit confirms an order that waits and whose covers fit, and else changes nothing. -/
theorem scanOrder_confirms {b : Book} {k id : Nat} {o : Order} (ho : b.csc.orders.find id = some o)
    (hs : o.state = .waitlisted) (fits : CoversFit b.csc k o.date o.window o.covers) :
    b.scanOrder k id = b.scanConfirms k id o := by
  unfold Book.scanOrder
  simp only [ho, hs, fits_iff.mpr fits, and_self, if_true]
  rfl

theorem scanOrder_passes {b : Book} {k id : Nat} {o : Order} (ho : b.csc.orders.find id = some o)
    (unfit : o.state = .waitlisted → ¬CoversFit b.csc k o.date o.window o.covers) : b.scanOrder k id = b := by
  unfold Book.scanOrder
  simp only [ho]
  exact if_neg fun h => unfit h.1 (fits_iff.mp h.2)

theorem scanConfirms_catering (b : Book) (k id : Nat) (o : Order) : CateringOnly b (b.scanConfirms k id o) :=
  (((withCsc_catering _ _).trans (putOrder_catering _ _)).trans (modifyKitchen_lists _ _ _).toCateringOnly).trans
    (postOrder_catering _ _ _ _ _)

theorem scanOrder_scanned (b : Book) (k id : Nat) : Scanned b (b.scanOrder k id) := by
  cases ho : b.csc.orders.find id with
  | none =>
    simp only [Book.scanOrder, ho]
    exact .refl b
  | some o =>
    by_cases waits : o.state = .waitlisted ∧ CoversFit b.csc k o.date o.window o.covers
    · obtain ⟨hs, fits⟩ := waits
      rw [scanOrder_confirms ho hs fits]
      refine ⟨scanConfirms_catering .., rfl, fun hk => putOrder_keyed hk _, fun hk j x hx hn => ?_,
        fun j y hy hc => commit_closed fits hy hc⟩
      have apart : j ≠ o.id := by
        rintro rfl
        rw [← hk id o ho] at ho
        cases hx.symm.trans ho
        exact hn hs
      exact (putOrder_other (b.withCsc _) (o := { o with state := .confirmed }) apart).trans hx
    · rw [scanOrder_passes ho fun hs fits => waits ⟨hs, fits⟩]
      exact .refl b

theorem scanOrders_scanned (b : Book) (k : Nat) (l : List Nat) :
    Scanned b (l.foldl (fun b id => b.scanOrder k id) b) := by
  induction l generalizing b with
  | nil => exact .refl b
  | cons id l ih => exact (scanOrder_scanned b k id).trans (ih (b.scanOrder k id))

theorem scan_scanned (b : Book) (k : Nat) : Scanned b (b.scan k) := by
  unfold Book.scan Book.scanList
  split
  · exact .refl b
  · split
    · exact scanOrders_scanned b k _
    · exact .refl b

/-- R138: a scan of an empty waitlist. -/
theorem scan_idle {b : Book} {k : Nat} (h : NoWaiters b k) : b.scan k = b := by
  unfold Book.scan Book.scanList
  split
  · rfl
  · cases hk : b.csc.kitchen k with
    | none => rfl
    | some kit =>
      dsimp only
      rw [h kit hk]
      rfl

/-- R138, R196: a scan of a waitlist of one, at a kitchen that no commit guards. -/
theorem scan_single {b : Book} {k id : Nat} {kit : Kitchen} (hg : b.csc.guard.contains k = false)
    (hk : b.csc.kitchen k = some kit) (hl : kit.waitlist = [id]) : b.scan k = b.scanOrder k id := by
  simp only [Book.scan, Csc.guarded, hg, Bool.false_eq_true, if_false, Book.scanList, hk, hl, List.foldl_cons, List.foldl_nil]

/-! ## Changes of state -/

theorem dropWaiting_catering (b : Book) (o : Order) (st : OrderState) (cause : OrderCause) :
    CateringOnly b (b.dropWaiting o st cause) :=
  ((putOrder_catering _ _).trans (modifyKitchen_lists _ _ _).toCateringOnly).trans (postOrder_catering _ _ _ _ _)

/-- An order that has left WAITLISTED. -/
theorem dropWaiting_found (b : Book) (o : Order) (st : OrderState) (cause : OrderCause) :
    (b.dropWaiting o st cause).csc.orders.find o.id = some { o with state := st } :=
  putOrder_found b { o with state := st }

theorem dropWaiting_kitchen {b : Book} {o : Order} {kit : Kitchen} (st : OrderState) (cause : OrderCause)
    (hk : b.csc.kitchen o.kitchen = some kit) :
    (b.dropWaiting o st cause).csc.kitchen o.kitchen =
      some { kit with waitlist := kit.waitlist.filter fun i => i != o.id } :=
  modifyKitchen_kitchen (b := b.putOrder { o with state := st }) hk _

/-- R137, R145: a CONFIRMED order that has become CANCELLED, its covers returned, before the scan. -/
def Book.confirmedCancelled (b : Book) (o : Order) (cause : OrderCause) : Book :=
  ((b.withCsc (b.csc.giveBack o.kitchen o.date o.window o.covers)).putOrder { o with state := .cancelled }).postOrder
    { o with state := .cancelled } (some o.state) cause

theorem cancelConfirmed_eq (b : Book) (o : Order) (cause : OrderCause) :
    b.cancelConfirmed o cause = (b.confirmedCancelled o cause).scan o.kitchen := rfl

theorem confirmedCancelled_catering (b : Book) (o : Order) (cause : OrderCause) :
    CateringOnly b (b.confirmedCancelled o cause) :=
  ((withCsc_catering _ _).trans (putOrder_catering _ _)).trans (postOrder_catering _ _ _ _ _)

theorem cancelConfirmed_catering (b : Book) (o : Order) (cause : OrderCause) :
    CateringOnly b (b.cancelConfirmed o cause) :=
  (confirmedCancelled_catering b o cause).trans (scan_scanned _ _).toCateringOnly

theorem confirmedCancelled_keyed {b : Book} (h : OrdersKeyed b) (o : Order) (cause : OrderCause) :
    OrdersKeyed (b.confirmedCancelled o cause) := putOrder_keyed (b := b.withCsc _) h _

theorem cancelConfirmed_found {b : Book} (h : OrdersKeyed b) (o : Order) (cause : OrderCause) :
    (b.cancelConfirmed o cause).csc.orders.find o.id = some { o with state := .cancelled } :=
  (scan_scanned _ _).orders (confirmedCancelled_keyed h o cause) _ _
    (putOrder_found (b.withCsc _) { o with state := .cancelled }) nofun

/-- R143, R144, R145: the order after it has left LOCKED: a PENDING ticket is NONE. -/
def Order.unpended (o : Order) : Order := { o with ticket := if o.ticket = .pending then .none else o.ticket }

/-- R140: beside the order, its kitchen's list of tickets alone changes. -/
theorem unpend_eq (b : Book) (o : Order) :
    ∃ b', b.unpend o = (b', o.unpended) ∧ ListsOnly b b' ∧ b'.hmp = b.hmp := by
  unfold Book.unpend Order.unpended
  split
  · exact ⟨_, rfl, modifyKitchen_lists _ _ _, rfl⟩
  · exact ⟨b, rfl, .refl b, rfl⟩

/-- R143, R144: an order goes on to another state. -/
theorem advanceOrder_eq (b : Book) (o : Order) (st : OrderState) (cause : OrderCause) :
    ∃ b', ListsOnly b b' ∧ b'.hmp = b.hmp ∧
      b.advanceOrder o st cause =
        (b'.putOrder { o.unpended with state := st }).postOrder { o.unpended with state := st } (some o.state) cause := by
  obtain ⟨b', he, lists, hmp⟩ := unpend_eq b o
  exact ⟨b', lists, hmp, by simp only [Book.advanceOrder, he]⟩

theorem advanceOrder_catering (b : Book) (o : Order) (st : OrderState) (cause : OrderCause) :
    CateringOnly b (b.advanceOrder o st cause) := by
  obtain ⟨b', lists, -, he⟩ := advanceOrder_eq b o st cause
  rw [he]
  exact (lists.toCateringOnly.trans (putOrder_catering _ _)).trans (postOrder_catering _ _ _ _ _)

theorem advanceOrder_found (b : Book) (o : Order) (st : OrderState) (cause : OrderCause) :
    (b.advanceOrder o st cause).csc.orders.find o.id = some { o.unpended with state := st } := by
  obtain ⟨b', -, -, he⟩ := advanceOrder_eq b o st cause
  rw [he]
  exact putOrder_found b' { o.unpended with state := st }

theorem advanceOrder_hmp (b : Book) (o : Order) (st : OrderState) (cause : OrderCause) :
    (b.advanceOrder o st cause).hmp =
      b.hmp.post (.orderState o.id o.booking o.kitchen o.date o.slot (o.slot / 2) o.covers (some o.state) st cause .none) := by
  obtain ⟨b', -, hmp, he⟩ := advanceOrder_eq b o st cause
  rw [he, ← hmp]
  rfl

/-- R145: the order after a write-off. -/
def Order.writtenOff (o : Order) : Order :=
  { o.unpended with state := .writtenOff, voidOwed := o.voidOwed || o.ticket == .offered }

/-- R145: a write-off, and the call that voids a ticket already SENT. -/
theorem writeOff_eq (b : Book) (o : Order) (cause : OrderCause) :
    ∃ b', ListsOnly b b' ∧
      ListsOnly ((b'.putOrder o.writtenOff).postOrder o.writtenOff (some o.state) cause) (b.writeOff o cause) := by
  obtain ⟨b', he, lists, -⟩ := unpend_eq b o
  refine ⟨b', lists, ?_⟩
  simp only [Book.writeOff, he]
  split
  · exact joinCalls_lists _ _ _
  · exact .refl _

theorem writeOff_catering (b : Book) (o : Order) (cause : OrderCause) : CateringOnly b (b.writeOff o cause) := by
  obtain ⟨b', lists, void⟩ := writeOff_eq b o cause
  exact ((lists.toCateringOnly.trans (putOrder_catering _ _)).trans (postOrder_catering _ _ _ _ _)).trans void.toCateringOnly

theorem writeOff_found (b : Book) (o : Order) (cause : OrderCause) :
    (b.writeOff o cause).csc.orders.find o.id = some o.writtenOff := by
  obtain ⟨b', -, void⟩ := writeOff_eq b o cause
  rw [void.orders]
  exact putOrder_found b' o.writtenOff

end Sys2Proof.Machine


/-! PROOFS. The slot boundary at the CSC, and the scan over closed windows (R131, R138). -/

namespace Sys2Proof.Machine

/-- R131: the window `w` of the date is closed in every entry. -/
def closeWindow (d : Date) (w : Nat) (y : CapEntry) : CapEntry :=
  if y.date == d && y.window == w then { y with closed := true } else y

theorem closeWindow_closes {d : Date} {w : Nat} {y : CapEntry} (hd : y.date = d) (hw : y.window = w) :
    closeWindow d w y = { y with closed := true } := if_pos (by simp [hd, hw])

theorem closeWindow_leaves {d : Date} {w : Nat} {y : CapEntry} (h : y.date ≠ d ∨ y.window ≠ w) : closeWindow d w y = y :=
  if_neg (by simpa [imp_iff_not_or] using h)

theorem cscEvent_eq {b : Book} {e : TimeEvent} {rest : List TimeEvent} (h : b.mail.cscEvents = e :: rest)
    (f : TimeEvent → Book → Option Book) :
    b.cscEvent f = (f e (b.withMail { b.mail with cscEvents := rest })).getD b := by
  simp only [Book.cscEvent, h]

theorem cscSlotBoundary_closes {b : Book} {e : TimeEvent} {rest : List TimeEvent} {x : Nat}
    (h : b.mail.cscEvents = e :: rest) (hk : e.kind = boundaryEvent x) (hx : 2 ≤ x ∧ x % 2 = 0) :
    b.cscSlotBoundary =
      (b.withMail { b.mail with cscEvents := rest }).withCsc
        { b.csc with capacity := b.csc.capacity.mapValues fun _ => closeWindow e.date (x / 2 - 1) } := by
  simp only [Book.cscSlotBoundary, cscEvent_eq h, hk, boundaryEvent, closedWindow, if_pos hx, Option.getD_some]
  rfl

theorem cscSlotBoundary_none {b : Book} {e : TimeEvent} {rest : List TimeEvent} {x : Nat}
    (h : b.mail.cscEvents = e :: rest) (hk : e.kind = boundaryEvent x) (hx : ¬(2 ≤ x ∧ x % 2 = 0)) :
    b.cscSlotBoundary = b.withMail { b.mail with cscEvents := rest } := by
  simp only [Book.cscSlotBoundary, cscEvent_eq h, hk, boundaryEvent, closedWindow, if_neg hx, Option.getD_some]

/-- Settles O41: a scan by what its visits can do; a boundary by whether a window ends with it. -/
theorem boundaryClosesTheWindowThatEnded : Obligations.BoundaryClosesTheWindowThatEnded := by
  refine ⟨fun b k => (scan_scanned b k).closed, fun s e x rest hm hk => ⟨{ s with book := s.book.cscSlotBoundary }, rfl, ?_⟩⟩
  by_cases hx : 2 ≤ x ∧ x % 2 = 0
  · rw [cscSlotBoundary_closes hm hk hx]
    refine ⟨rfl, rfl, fun k y hy => ?_⟩
    have found : (s.book.csc.capacity.mapValues fun _ => closeWindow e.date (x / 2 - 1)).find k =
        some (closeWindow e.date (x / 2 - 1) y) := by simp [hy]
    refine ⟨fun _ _ hd hw => found.trans (congrArg some (closeWindow_closes hd hw)), fun other => ?_⟩
    rcases other with odd | first | other
    · omega
    · omega
    · exact found.trans (congrArg some (closeWindow_leaves other))
  · rw [cscSlotBoundary_none hm hk hx]
    exact ⟨rfl, rfl, fun k y hy => ⟨fun h2 heven => absurd ⟨h2, heven⟩ hx, fun _ => hy⟩⟩

end Sys2Proof.Machine


/-! PROOFS. What the SBC tells the CSC of tickets, calls, slots and terminals, and the pickup claims (R140 to R142, R148). -/

namespace Sys2Proof.Machine

/-- R124: the CSC has taken the reports of the SBC but for `rest`. -/
def Book.cscReportTaken (b : Book) (rest : List (Nat × CscReport)) : Book := b.withMail { b.mail with sbcToCsc := rest }

theorem cscReport_eq {b : Book} {g : Nat} {x : CscReport} {rest : List (Nat × CscReport)}
    (h : nextOf g b.mail.sbcToCsc = some (x, rest)) (f : CscReport → Book → Option Book) :
    b.cscReport g f = (f x (b.cscReportTaken rest)).getD b := by
  simp only [Book.cscReport, h, Book.cscReportTaken]

/-- What is done for a report leaves the reports that are still to be taken. -/
theorem CateringOnly.reports {b b' : Book} {rest : List (Nat × CscReport)} (h : CateringOnly (b.cscReportTaken rest) b') :
    b'.mail.sbcToCsc = rest := congrArg Mail.sbcToCsc h.mail

/-! ## Tickets (R140) -/

section

variable {b : Book} {k id : Nat} {o : Order}

theorem reported_found (h : b.csc.orders.find id = some o) : b.csc.reported id o.serial = some o := by
  simp [Csc.reported, h, Option.filter]

theorem ticketSent_catering (b : Book) (k id serial : Nat) : CateringOnly b (b.ticketSent k id serial) := by
  unfold Book.ticketSent
  split
  · exact .refl b
  · split
    · dsimp only
      split
      · exact (putOrder_catering _ _).trans (joinCalls_lists _ _ _).toCateringOnly
      · exact putOrder_catering _ _
    · exact .refl b

theorem ticketBack_catering (b : Book) (k id serial : Nat) : CateringOnly b (b.ticketBack k id serial) := by
  unfold Book.ticketBack
  split
  · exact .refl b
  · split
    · split
      · exact (putOrder_catering _ _).trans (joinTickets_lists _ _ _).toCateringOnly
      · exact putOrder_catering _ _
    · exact .refl b

/-- R140: what comes of a delivered ticket. -/
theorem ticketSent_eq (ho : b.csc.orders.find o.id = some o) (ht : o.ticket = .offered) :
    b.ticketSent o.kitchen o.id o.serial =
      if o.voidOwed then
        (b.putOrder { o with ticket := .sent, voidOwed := false }).joinCalls o.kitchen
          { kind := .void, order := o.id, serial := o.serial }
      else b.putOrder { o with ticket := .sent, voidOwed := false } := by
  unfold Book.ticketSent
  simp only [reported_found ho]
  exact if_pos ⟨ht, trivial⟩

/-- R140: what comes of a ticket that is handed back. -/
theorem ticketBack_eq (ho : b.csc.orders.find o.id = some o) (ht : o.ticket = .offered) :
    b.ticketBack o.kitchen o.id o.serial =
      if o.state = .locked then (b.putOrder { o with ticket := .pending }).joinTickets o.kitchen o.id
      else b.putOrder { o with ticket := .none, voidOwed := false } := by
  unfold Book.ticketBack
  simp only [reported_found ho]
  exact if_pos ⟨ht, trivial⟩

variable (ho : b.csc.orders.find id = some o) (hid : o.id = id) (hk : o.kitchen = k) (ht : o.ticket = .offered)
include ho hid hk ht

/-- R140: a delivered ticket is SENT, and the call that voids it joins the list where one is owed. -/
theorem ticketSent_found :
    (b.ticketSent k id o.serial).csc.orders.find id = some { o with ticket := .sent, voidOwed := false } ∧
      ∀ kit, b.csc.kitchen k = some kit → ∃ kit', (b.ticketSent k id o.serial).csc.kitchen k = some kit' ∧
        (o.voidOwed = true → { kind := .void, order := id, serial := o.serial } ∈ kit'.calls) ∧
        (o.voidOwed = false → kit'.calls = kit.calls) := by
  subst hid hk
  have put := putOrder_found b { o with ticket := .sent, voidOwed := false }
  rw [ticketSent_eq ho ht]
  by_cases owed : o.voidOwed = true
  · rw [if_pos owed, (joinCalls_lists _ _ _).orders]
    refine ⟨put, fun kit hkit => ?_⟩
    obtain ⟨kit', found, listed⟩ := joinCalls_kitchen (b := b.putOrder { o with ticket := .sent, voidOwed := false })
      { kind := .void, order := o.id, serial := o.serial } hkit
    exact ⟨kit', found, fun _ => listed, fun h => absurd (owed.symm.trans h) nofun⟩
  · rw [if_neg owed]
    exact ⟨put, fun kit hkit => ⟨kit, hkit, fun h => absurd h owed, fun _ => rfl⟩⟩

/-- R140: a ticket that comes back of an order that is LOCKED is PENDING again. -/
theorem ticketBack_locked (hs : o.state = .locked) :
    (b.ticketBack k id o.serial).csc.orders.find id = some { o with ticket := .pending } ∧
      ∀ kit, b.csc.kitchen k = some kit →
        ∃ kit', (b.ticketBack k id o.serial).csc.kitchen k = some kit' ∧ id ∈ kit'.tickets := by
  subst hid hk
  rw [ticketBack_eq ho ht, if_pos hs, (joinTickets_lists _ _ _).orders]
  exact ⟨putOrder_found b { o with ticket := .pending },
    fun kit hkit => joinTickets_kitchen (b := b.putOrder { o with ticket := .pending }) o.id hkit⟩

theorem ticketBack_other (hs : o.state ≠ .locked) :
    (b.ticketBack k id o.serial).csc.orders.find id = some { o with ticket := .none, voidOwed := false } := by
  subst hid hk
  rw [ticketBack_eq ho ht, if_neg hs]
  exact putOrder_found b { o with ticket := .none, voidOwed := false }

end

theorem ticketBack_removed {b : Book} {id serial : Nat} (k : Nat) (h : b.csc.reported id serial = none) :
    b.ticketBack k id serial = b := by
  simp only [Book.ticketBack, h]

/-! ## Calls (R141) -/

/-- R141: the terminal's call slot is free again. -/
def Book.callDone (b : Book) (k : Nat) : Book := b.modifyKitchen k fun x => { x with callOut := none }

theorem callBack_catering (b : Book) (k : Nat) (c : Call) : CateringOnly b (b.callBack k c) := by
  have done := modifyKitchen_lists b k fun x => { x with callOut := none }
  unfold Book.callBack
  dsimp only
  split
  · exact ((done.trans (modifyKitchen_lists _ _ _)).trans (checkReach_lists _ _)).toCateringOnly
  · exact done.toCateringOnly

/-- R141: a call that comes back is at the head of the list, once. -/
theorem callBack_kitchen {b : Book} {k : Nat} {kit : Kitchen} {c : Call} (hk : b.csc.kitchen k = some kit)
    (hr : (b.csc.reported c.order c.serial).isSome = true) :
    ∃ kit', (b.callBack k c).csc.kitchen k = some kit' ∧ kit'.calls = c :: kit.calls.filter (fun x => x != c) ∧
      kit'.callOut = none := by
  have same : ((b.callDone k).csc.reported c.order c.serial).isSome = true := hr
  have back := modifyKitchen_kitchen (b := b.callDone k) (modifyKitchen_kitchen hk _) fun x =>
    { x with calls := c :: x.calls.filter (· != c) }
  obtain ⟨u, hu⟩ := checkReach_kitchen back
  exact ⟨_, (congrArg (fun x : Book => x.csc.kitchen k) (if_pos same)).trans hu, rfl, rfl⟩

theorem callBack_removed {b : Book} {k : Nat} {c : Call} (hr : b.csc.reported c.order c.serial = none) :
    b.callBack k c = b.callDone k := by
  have same : ¬((b.callDone k).csc.reported c.order c.serial).isSome = true := by
    rw [show (b.callDone k).csc.reported c.order c.serial = none from hr]
    nofun
  exact if_neg same

/-! ## The link of a terminal (R142) -/

/-- R142: the kitchen of a terminal that is ONLINE with the session told. -/
def Kitchen.linked (x : Kitchen) (session : Option (BitVec 8)) : Kitchen :=
  { x with online := true, session := session.getD x.session, unreachable := false, known := some .online }

/-- R142: the kitchen of a terminal in another state, or of none. -/
def Kitchen.unlinked (x : Kitchen) (st : Option StationState) : Kitchen := { x with online := false, known := st }

theorem terminalLink_online (b : Book) (k : Nat) (session : Option (BitVec 8)) :
    b.terminalLink k session (some .online) =
      ((b.modifyKitchen k fun x => x.linked session).offerTicket k).offerCall k := rfl

theorem terminalLink_offline (b : Book) (k : Nat) (session : Option (BitVec 8)) {st : Option StationState}
    (h : st ≠ some .online) :
    b.terminalLink k session st = (b.modifyKitchen k fun x => x.unlinked st).checkReach k := if_neg h

/-- R142: what the CSC makes of a change of a terminal's link. -/
theorem terminalLink_spec {b : Book} {k : Nat} {kit : Kitchen} (hk : b.csc.kitchen k = some kit)
    (session : Option (BitVec 8)) (st : Option StationState) :
    ∃ kit', CateringOnly b (b.terminalLink k session st) ∧ (b.terminalLink k session st).csc.kitchen k = some kit' ∧
      (st = some .online →
        kit'.online = true ∧ kit'.session = session.getD kit.session ∧ kit'.unreachable = false ∧
          (b.terminalLink k session st).hmp = b.hmp ∧
          (kit.tickets ≠ [] → b.csc.ticketFree k = true → k ∈ (b.terminalLink k session st).mail.ticketOffers)) ∧
      (st ≠ some .online →
        kit'.online = false ∧
          (kit.unreachable = false → kit.tickets ≠ [] ∨ kit.calls ≠ [] →
            kit'.unreachable = true ∧
              (b.terminalLink k session st).hmp =
                b.hmp.post (.kitchenUnreachable k kit.terminal st kit.tickets.length kit.calls.length))) := by
  by_cases online : st = some .online
  · subst online
    have linked := modifyKitchen_kitchen hk fun x => x.linked session
    rw [terminalLink_online]
    refine ⟨kit.linked session,
      (((modifyKitchen_lists _ _ _).trans (offerTicket_lists _ _)).trans (offerCall_lists _ _)).toCateringOnly, ?_,
      fun _ => ⟨rfl, rfl, rfl, ?_, fun work free => ?_⟩, fun h => absurd rfl h⟩
    · rw [offerCall_csc, offerTicket_csc]
      exact linked
    · rw [offerCall_hmp, offerTicket_hmp]
      rfl
    · rw [offerCall_ticketOffers]
      exact offerTicket_offered linked rfl work free
  · have unlinked := modifyKitchen_kitchen hk fun x => x.unlinked st
    rw [terminalLink_offline b k session online]
    have lists := ((modifyKitchen_lists b k fun x => x.unlinked st).trans (checkReach_lists _ k)).toCateringOnly
    by_cases told : kit.unreachable = false ∧ (kit.tickets ≠ [] ∨ kit.calls ≠ [])
    · obtain ⟨fresh, work⟩ := told
      have reach := checkReach_told unlinked rfl fresh work
      refine ⟨{ kit.unlinked st with unreachable := true }, lists, ?_, fun h => absurd h online,
        fun _ => ⟨rfl, fun _ _ => ⟨rfl, ?_⟩⟩⟩
      · rw [reach]
        exact modifyKitchen_kitchen unlinked _
      · rw [reach]
        rfl
    · obtain ⟨u, hu⟩ := checkReach_kitchen unlinked
      exact ⟨_, lists, hu, fun h => absurd h online, fun _ => ⟨rfl, fun fresh work => absurd ⟨fresh, work⟩ told⟩⟩

/-! ## The reports as steps -/

section

variable {s : State} {g k id serial : Nat} {rest : List (Nat × CscReport)}

theorem ticketDelivered_eq {b : Book} (h : nextOf g b.mail.sbcToCsc = some (.ticketDelivered k id serial, rest)) :
    b.ticketDelivered g = ((b.cscReportTaken rest).ticketSent k id serial).offerTicket k := cscReport_eq h _

theorem ticketNotDelivered_eq {b : Book} (h : nextOf g b.mail.sbcToCsc = some (.ticketBack k id serial, rest)) :
    b.ticketNotDelivered g = ((b.cscReportTaken rest).ticketBack k id serial).offerTicket k := cscReport_eq h _

theorem callDelivered_eq {b : Book} {c : Call} (h : nextOf g b.mail.sbcToCsc = some (.callDelivered k c, rest)) :
    b.callDelivered g = ((b.cscReportTaken rest).callDone k).offerCall k := cscReport_eq h _

theorem callNotDelivered_eq {b : Book} {c : Call} (h : nextOf g b.mail.sbcToCsc = some (.callBack k c, rest)) :
    b.callNotDelivered g = ((b.cscReportTaken rest).callBack k c).offerCall k := cscReport_eq h _

theorem slotFree_eq {b : Book} {ticket : Bool} (h : nextOf g b.mail.sbcToCsc = some (.slotFree k ticket, rest)) :
    b.slotFree g = if ticket then (b.cscReportTaken rest).offerTicket k else (b.cscReportTaken rest).offerCall k :=
  cscReport_eq h _

theorem terminalLinkChange_eq {b : Book} {session : Option (BitVec 8)} {st : Option StationState}
    (h : nextOf g b.mail.sbcToCsc = some (.link k session st, rest)) :
    b.terminalLinkChange g = (b.cscReportTaken rest).terminalLink k session st := cscReport_eq h _

end

/-- R141: what the CSC makes of a pickup claim for an order's booking. -/
theorem pickupCall_spec {b : Book} {booking : Nat} {rest : List Nat} {o : Order} {kit : Kitchen}
    (hm : b.mail.squToCsc = booking :: rest) (ho : b.csc.orderOf booking = some o)
    (hk : b.csc.kitchen o.kitchen = some kit) :
    ∃ kit', b.pickupCall.mail.squToCsc = rest ∧ b.pickupCall.csc.orders = b.csc.orders ∧
      b.pickupCall.csc.kitchen o.kitchen = some kit' ∧
      (o.state = .delivered → { kind := .pickupCall, order := o.id, serial := o.serial } ∈ kit'.calls) ∧
      (o.state ≠ .delivered → kit' = kit) := by
  have found : (b.withMail { b.mail with squToCsc := rest }).csc.orderOf booking = some o := ho
  simp only [Book.pickupCall, hm, found]
  by_cases delivered : o.state = .delivered
  · have lists := joinCalls_lists (b.withMail { b.mail with squToCsc := rest }) o.kitchen
      { kind := .pickupCall, order := o.id, serial := o.serial }
    obtain ⟨kit', hkit', listed⟩ := joinCalls_kitchen (b := b.withMail { b.mail with squToCsc := rest })
      { kind := .pickupCall, order := o.id, serial := o.serial } hk
    rw [if_pos delivered]
    exact ⟨kit', congrArg Mail.squToCsc lists.mail, lists.orders, hkit', fun _ => listed, fun h => absurd delivered h⟩
  · rw [if_neg delivered]
    exact ⟨kit, rfl, rfl, hk, fun h => absurd h delivered, fun _ => rfl⟩

/-- Settles O43: each report by what the CSC does for it, behind which it offers what waits. -/
theorem ticketsCallsAndTerminalLinks : Obligations.TicketsCallsAndTerminalLinks := by
  refine ⟨fun s g k id rest o hm ho hid hk ht => ?_, fun s g k id rest o hm ho hid hk ht => ?_,
    fun s g k id serial rest hm hr => ?_, fun s g k c rest kit hm hk => ?_, fun s g k c rest kit hm hk hr => ?_,
    fun s g k c rest kit hm hk hr => ?_, fun s g k ticket rest kit hm hk online => ?_,
    fun s g k session st rest kit hm hk => ?_, fun s booking rest o kit hm ho hk => ?_⟩
  · refine ⟨{ s with book := s.book.ticketDelivered g }, rfl, ?_⟩
    rw [ticketDelivered_eq hm]
    dsimp only
    rw [offerTicket_csc]
    exact ⟨((ticketSent_catering _ _ _ _).trans (offerTicket_lists _ _).toCateringOnly).reports,
      ticketSent_found (b := s.book.cscReportTaken rest) ho hid hk ht⟩
  · refine ⟨{ s with book := s.book.ticketNotDelivered g }, rfl, ?_⟩
    rw [ticketNotDelivered_eq hm]
    dsimp only
    rw [offerTicket_csc]
    exact ⟨((ticketBack_catering _ _ _ _).trans (offerTicket_lists _ _).toCateringOnly).reports,
      ticketBack_locked (b := s.book.cscReportTaken rest) ho hid hk ht,
      ticketBack_other (b := s.book.cscReportTaken rest) ho hid hk ht⟩
  · refine ⟨{ s with book := s.book.ticketNotDelivered g }, rfl, ?_⟩
    rw [ticketNotDelivered_eq hm, ticketBack_removed (b := s.book.cscReportTaken rest) k hr]
    exact ⟨(offerTicket_lists _ _).reports, offerTicket_csc _ _⟩
  · refine ⟨{ s with book := s.book.callDelivered g }, rfl, ?_⟩
    rw [callDelivered_eq hm]
    dsimp only
    rw [offerCall_csc]
    exact ⟨((modifyKitchen_lists _ _ _).trans (offerCall_lists _ _)).reports, rfl,
      modifyKitchen_kitchen (b := s.book.cscReportTaken rest) hk _⟩
  · obtain ⟨kit', found, calls, out⟩ := callBack_kitchen (b := s.book.cscReportTaken rest) hk hr
    refine ⟨{ s with book := s.book.callNotDelivered g }, kit', rfl, ?_⟩
    rw [callNotDelivered_eq hm]
    dsimp only
    rw [offerCall_csc]
    exact ⟨((callBack_catering _ _ _).trans (offerCall_lists _ _).toCateringOnly).reports, found, calls, out⟩
  · refine ⟨{ s with book := s.book.callNotDelivered g }, rfl, ?_⟩
    rw [callNotDelivered_eq hm, callBack_removed (b := s.book.cscReportTaken rest) hr]
    dsimp only
    rw [offerCall_csc]
    exact ⟨((modifyKitchen_lists _ _ _).trans (offerCall_lists _ _)).reports,
      modifyKitchen_kitchen (b := s.book.cscReportTaken rest) hk _⟩
  · refine ⟨{ s with book := s.book.slotFree g }, rfl, ?_⟩
    rw [slotFree_eq hm]
    cases ticket with
    | true => exact ⟨(offerTicket_lists _ _).reports, offerTicket_csc _ _,
        fun _ work free => offerTicket_offered (b := s.book.cscReportTaken rest) hk online work free, nofun⟩
    | false => exact ⟨(offerCall_lists _ _).reports, offerCall_csc _ _, nofun,
        fun _ work free => offerCall_offered (b := s.book.cscReportTaken rest) hk online work free⟩
  · obtain ⟨kit', only, found, linked, unlinked⟩ := terminalLink_spec (b := s.book.cscReportTaken rest) hk session st
    refine ⟨{ s with book := s.book.terminalLinkChange g }, kit', rfl, ?_⟩
    rw [terminalLinkChange_eq hm]
    exact ⟨only.reports, found, linked, unlinked⟩
  · obtain ⟨kit', spec⟩ := pickupCall_spec hm ho hk
    exact ⟨{ s with book := s.book.pickupCall }, kit', rfl, spec⟩

end Sys2Proof.Machine


/-! SUPPORT. The terminal events, the cart arrivals and the booking changes at the CSC (R143 to R146), an equation for each
case. -/

namespace Sys2Proof.Machine

/-- The first that passes is taken from behind those that do not. -/
theorem takeFirst_behind {α : Type} {p : α → Bool} {l m : List α} {a : α} (hl : ∀ x ∈ l, p x = false) (ha : p a = true) :
    takeFirst p (l ++ a :: m) = some (a, l ++ m) := by
  induction l with
  | nil => simp [takeFirst, ha]
  | cons x l ih => simp [takeFirst, hl x List.mem_cons_self, ih fun y hy => hl y (List.mem_cons_of_mem x hy)]

/-! ## Terminal events (R143) -/

section

variable {b : Book} {g h k a id : Nat} {session : BitVec 8} {ev : StationEvent} {l m : List (Nat × CscReport)}

/-- R143: an event is next where only other reports of other segments stand before it. -/
theorem eventBefore_none {x : CscReport} (hm : b.mail.sbcToCsc = l ++ (g, x) :: m)
    (hl : ∀ e ∈ l, e.1 ≠ g ∧ e.2.isEvent = false) : b.mail.eventBefore g = false := by
  have before : b.mail.sbcToCsc.takeWhile (fun e => e.1 != g) = l := by
    rw [hm, List.takeWhile_append_of_pos fun e he => by simp [(hl e he).1]]
    simp
  simp only [Mail.eventBefore, before, List.any_eq_false]
  exact fun e he => by simp [(hl e he).2]

/-- R143: an event waits behind one of another segment that was handed before. -/
theorem eventBefore_other (hm : b.mail.sbcToCsc = l ++ (h, .event k a session ev) :: m) (hl : ∀ e ∈ l, e.1 ≠ g)
    (hne : h ≠ g) : b.mail.eventBefore g = true := by
  simp only [Mail.eventBefore, List.any_eq_true]
  refine ⟨(h, .event k a session ev), ?_, rfl⟩
  rw [hm, List.takeWhile_append_of_pos fun e he => by simp [hl e he]]
  simp [hne]

theorem terminalEvent_taken (hm : b.mail.sbcToCsc = l ++ (g, .event k a session ev) :: m)
    (hl : ∀ e ∈ l, e.1 ≠ g ∧ e.2.isEvent = false) :
    b.terminalEvent g = (b.cscReportTaken (l ++ m)).applyTerminalEvent k session ev := by
  have next : nextOf g b.mail.sbcToCsc = some (.event k a session ev, l ++ m) := by
    rw [nextOf, hm, takeFirst_behind (fun e he => by simp [(hl e he).1]) (by simp)]
    rfl
  simp only [Book.terminalEvent, eventBefore_none hm hl, Bool.false_eq_true, if_false, cscReport_eq next, Option.getD_some]

/-- R143: the event is counted as ignored. -/
def Book.ignores (b : Book) (k : Nat) : Book := b.modifyKitchen k fun x => { x with ignored := bump 65535 x.ignored }

section

variable {kit : Kitchen} {o : Order} (hk : b.csc.kitchen k = some kit) (he : eventOrder ev = some id)
include hk he

/-- R143: an event of the terminal's session for an order of its kitchen goes by the table. -/
theorem applyTerminalEvent_order (ho : b.csc.orders.find id = some o) (hs : kit.session = session) (hok : o.kitchen = k) :
    b.applyTerminalEvent k session ev =
      match eventTarget o.state ev with
      | some (_, st) => b.advanceOrder o st .terminal
      | none => b.ignores k := by
  simp only [Book.applyTerminalEvent, hk, he, Option.bind_some, ho, hs, hok, and_self, if_true]
  rfl

theorem applyTerminalEvent_goes {st : OrderState} (ho : b.csc.orders.find id = some o) (hs : kit.session = session)
    (hok : o.kitchen = k) (ht : eventTarget o.state ev = some (id, st)) :
    b.applyTerminalEvent k session ev = b.advanceOrder o st .terminal := by
  rw [applyTerminalEvent_order hk he ho hs hok, ht]

theorem applyTerminalEvent_stays (ho : b.csc.orders.find id = some o) (hs : kit.session = session)
    (hok : o.kitchen = k) (ht : eventTarget o.state ev = none) : b.applyTerminalEvent k session ev = b.ignores k := by
  rw [applyTerminalEvent_order hk he ho hs hok, ht]

/-- R143: an event of another session, or for what is no order of the kitchen, is ignored. -/
theorem applyTerminalEvent_ignored
    (hn : kit.session ≠ session ∨ b.csc.orders.find id = none ∨ ∃ o, b.csc.orders.find id = some o ∧ o.kitchen ≠ k) :
    b.applyTerminalEvent k session ev = b.ignores k := by
  simp only [Book.applyTerminalEvent, hk, he, Option.bind_some]
  cases ho : b.csc.orders.find id with
  | none => rfl
  | some o =>
    refine if_neg fun ⟨hs, hok⟩ => ?_
    rcases hn with hn | hn | ⟨x, hx, hn⟩
    · exact hn hs
    · exact nomatch ho.symm.trans hn
    · cases ho.symm.trans hx
      exact hn hok

end

theorem applyTerminalEvent_catering (b : Book) (k : Nat) (session : BitVec 8) (ev : StationEvent) :
    CateringOnly b (b.applyTerminalEvent k session ev) := by
  have ignored := (modifyKitchen_lists b k fun x => { x with ignored := bump 65535 x.ignored }).toCateringOnly
  unfold Book.applyTerminalEvent
  split
  · split
    · split
      · exact advanceOrder_catering _ _ _ _
      · exact ignored
    · exact ignored
  · exact ignored

end

/-! ## Cart arrivals (R144) -/

/-- R125, R144: the CSC has taken the claims of the PPU but for `rest`. -/
def Book.cartTaken (b : Book) (rest : List PanelClaim) : Book := b.withMail { b.mail with ppuToCsc := rest }

/-- R144: the outcome of the cart arrival at the head is handed to the PPU. -/
theorem cartArrived_eq {b : Book} {p : PanelClaim} {rest : List PanelClaim} {id : Nat} (hm : b.mail.ppuToCsc = p :: rest)
    (he : p.event = .cartArrived id) {b' : Book} {a : Answer} (ho : (b.cartTaken rest).cartOutcome p.room id = (b', a)) :
    b.cartArrived =
      b'.withMail
        { b'.mail with
          cscToPanel := b'.mail.cscToPanel ++
            [{ claim := p, status := a.status, detail := a.detail, subject := some id, placed := none }] } := by
  simp only [Book.cartArrived, hm, he, show (b.withMail { b.mail with ppuToCsc := rest }).cartOutcome p.room id = _ from ho]

section

variable {b : Book} {room id : Nat} {o : Order} (hh : b.csc.horizon ≠ none) (ho : b.csc.orders.find id = some o)
include hh ho

theorem cartOutcome_wrong (hr : b.rightRoom o room = false) :
    b.cartOutcome room id =
      (b.postOrder o (some o.state) .cart (.wrongRoom room (b.code room)), Answer.because .refused .room) := by
  simp [Book.cartOutcome, hh, ho, hr]

theorem cartOutcome_right (hr : b.rightRoom o room = true) :
    b.cartOutcome room id =
      match o.state with
      | .locked | .ticketed | .dispatched => (b.advanceOrder o .delivered .cart, Answer.because .ok .delivered)
      | .delivered => (b, Answer.because .ok .unchanged)
      | _ => (b, Answer.because .refused .state) := by
  cases hs : o.state <;> simp [Book.cartOutcome, hh, ho, hr, hs]

end

theorem cartOutcome_catering (b : Book) (room id : Nat) : CateringOnly b (b.cartOutcome room id).1 := by
  unfold Book.cartOutcome
  split
  · exact .refl b
  · split
    · exact .refl b
    · split
      · exact postOrder_catering _ _ _ _ _
      · split
        · exact advanceOrder_catering _ _ _ _
        · exact advanceOrder_catering _ _ _ _
        · exact advanceOrder_catering _ _ _ _
        · exact .refl b
        · exact .refl b

/-! ## Booking changes (R145, R146) -/

/-- R145 to R147: the order with its booking copy as a change leaves it. -/
def Order.told (o : Order) (c : CscChange) : Order := { o with copy := o.copy.after c, date := o.dateAfter c }

/-- R145: the order once its booking is cancelled, released or forgotten. -/
def Order.gone (o : Order) : Order :=
  match o.state with
  | .waitlisted | .confirmed => { o with state := .cancelled }
  | .locked | .ticketed | .dispatched => o.writtenOff
  | _ => o

theorem gone_copy (o : Order) : o.gone.copy = o.copy := by
  unfold Order.gone
  split <;> rfl

/-- R145: the table of what becomes of an order. -/
theorem gone_spec (o : Order) :
    (o.state = .waitlisted ∨ o.state = .confirmed → o.gone.state = .cancelled) ∧
      (o.state = .locked ∨ o.state = .ticketed ∨ o.state = .dispatched →
        o.gone.state = .writtenOff ∧ (o.ticket = .offered → o.gone.voidOwed = true) ∧
          (o.ticket = .pending → o.gone.ticket = .none)) ∧
      (o.state = .delivered ∨ o.state = .cleared ∨ o.state = .writtenOff → o.gone.state = o.state) := by
  refine ⟨fun hs => ?_, fun hs => ?_, fun hs => ?_⟩
  · rcases hs with hs | hs <;> simp only [Order.gone, hs]
  · have off : o.gone = o.writtenOff := by rcases hs with hs | hs | hs <;> simp only [Order.gone, hs]
    rw [off]
    exact ⟨rfl, fun ht => by simp [Order.writtenOff, ht], fun ht => if_pos ht⟩
  · have same : o.gone = o := by rcases hs with hs | hs | hs <;> simp only [Order.gone, hs]
    rw [same]

theorem bookingGone_catering (b : Book) (o : Order) (cause : OrderCause) : CateringOnly b (b.bookingGone o cause) := by
  unfold Book.bookingGone
  split
  · exact dropWaiting_catering _ _ _ _
  · exact cancelConfirmed_catering _ _ _
  · exact writeOff_catering _ _ _
  · exact writeOff_catering _ _ _
  · exact writeOff_catering _ _ _
  · exact .refl b

theorem bookingGone_found {b : Book} {o : Order} (hb : OrdersKeyed b) (ho : b.csc.orders.find o.id = some o)
    (cause : OrderCause) : (b.bookingGone o cause).csc.orders.find o.id = some o.gone := by
  cases hs : o.state <;> simp only [Book.bookingGone, Order.gone, hs]
  case waitlisted => exact dropWaiting_found _ _ _ _
  case confirmed => exact cancelConfirmed_found hb o cause
  case locked => exact writeOff_found _ _ _
  case ticketed => exact writeOff_found _ _ _
  case dispatched => exact writeOff_found _ _ _
  all_goals exact ho

section

variable {b : Book} {w : CscNews} {o : Order} (ho : b.csc.orderOf w.booking = some o)
include ho

theorem applyCscNews_ended {n : Nat} (h : w.change = .endedEarly n) :
    b.applyCscNews w = (b.putOrder (o.told w.change)).endedEarlyOrder (o.told w.change) := by
  obtain ⟨booking, change⟩ := w
  subst h
  simp only [Book.applyCscNews, ho]
  rfl

end

/-! ## An early end (R146) -/

/-- R146: the order once its meeting has ended early. -/
def Order.endedEarly (o : Order) : Order :=
  if o.slot < o.copy.start + o.copy.count then o
  else if o.state = .waitlisted ∨ o.state = .confirmed then { o with state := .cancelled } else o

theorem endedEarly_copy (o : Order) : o.endedEarly.copy = o.copy := by
  unfold Order.endedEarly
  split
  · rfl
  · split <;> rfl

section

variable {b : Book} {o : Order}

theorem endedEarlyOrder_kept
    (h : o.slot < o.copy.start + o.copy.count ∨ (o.state ≠ .waitlisted ∧ o.state ≠ .confirmed)) :
    b.endedEarlyOrder o = b ∧ o.endedEarly = o := by
  unfold Book.endedEarlyOrder Order.endedEarly
  by_cases inside : o.slot < o.copy.start + o.copy.count
  · simp only [if_pos inside, and_self]
  · obtain ⟨hw, hc⟩ := h.resolve_left inside
    simp only [if_neg inside, hw, hc, or_self, if_false, and_true]

variable (out : o.copy.start + o.copy.count ≤ o.slot)
include out

theorem endedEarlyOrder_waiting (hs : o.state = .waitlisted) :
    b.endedEarlyOrder o = b.dropWaiting o .cancelled .bookingEnd ∧ o.endedEarly = { o with state := .cancelled } := by
  simp [Book.endedEarlyOrder, Order.endedEarly, Nat.not_lt.mpr out, hs]

theorem endedEarlyOrder_confirmed (hs : o.state = .confirmed) :
    b.endedEarlyOrder o = b.cancelConfirmed o .bookingEnd ∧ o.endedEarly = { o with state := .cancelled } := by
  simp [Book.endedEarlyOrder, Order.endedEarly, Nat.not_lt.mpr out, hs]

end

/-- R146: the three ways an early end goes. -/
theorem endedEarly_cases (o : Order) :
    (o.slot < o.copy.start + o.copy.count ∨ (o.state ≠ .waitlisted ∧ o.state ≠ .confirmed)) ∨
      o.copy.start + o.copy.count ≤ o.slot ∧ (o.state = .waitlisted ∨ o.state = .confirmed) := by
  by_cases inside : o.slot < o.copy.start + o.copy.count
  · exact .inl (.inl inside)
  · by_cases live : o.state = .waitlisted ∨ o.state = .confirmed
    · exact .inr ⟨Nat.le_of_not_lt inside, live⟩
    · exact .inl (.inr (not_or.mp live))

theorem endedEarlyOrder_catering (b : Book) (o : Order) : CateringOnly b (b.endedEarlyOrder o) := by
  rcases endedEarly_cases o with kept | ⟨out, hs | hs⟩
  · rw [(endedEarlyOrder_kept kept).1]
    exact .refl b
  · rw [(endedEarlyOrder_waiting out hs).1]
    exact dropWaiting_catering _ _ _ _
  · rw [(endedEarlyOrder_confirmed out hs).1]
    exact cancelConfirmed_catering _ _ _

theorem endedEarlyOrder_found {b : Book} {o : Order} (hb : OrdersKeyed b) (ho : b.csc.orders.find o.id = some o) :
    (b.endedEarlyOrder o).csc.orders.find o.id = some o.endedEarly := by
  rcases endedEarly_cases o with kept | ⟨out, hs | hs⟩
  · obtain ⟨same, same'⟩ := endedEarlyOrder_kept (b := b) kept
    rw [same, same']
    exact ho
  · obtain ⟨he, ho'⟩ := endedEarlyOrder_waiting (b := b) out hs
    rw [he, ho']
    exact dropWaiting_found _ _ _ _
  · obtain ⟨he, ho'⟩ := endedEarlyOrder_confirmed (b := b) out hs
    rw [he, ho']
    exact cancelConfirmed_found hb o _

end Sys2Proof.Machine

/-! PROOFS. Terminal events, cart arrivals and booking changes at the CSC (R143 to R146). -/

namespace Sys2Proof.Machine

/-! ## Terminal events (R143) -/

section

variable {b : Book} {k id : Nat} {session : BitVec 8} {ev : StationEvent} {kit : Kitchen} {o : Order}

/-- R143: an order that goes on to another state by the terminal's event. -/
theorem advanceOrder_goesOn (b : Book) (o : Order) (st : OrderState) :
    let b' := b.advanceOrder o st .terminal
    ∃ o', b'.csc.orders.find o.id = some o' ∧ o'.state = st ∧
      o'.ticket = (if o.ticket = .pending then .none else o.ticket) ∧
      b'.hmp =
        b.hmp.post
          (.orderState o.id o.booking o.kitchen o.date o.slot (o.slot / 2) o.covers (some o.state) st .terminal .none) :=
  ⟨{ o.unpended with state := st }, advanceOrder_found b o st .terminal, rfl, rfl, advanceOrder_hmp b o st .terminal⟩

/-- R143: an ignored event is counted, and changes nothing else. -/
theorem ignores_spec (hk : b.csc.kitchen k = some kit) :
    (b.ignores k).csc.orders = b.csc.orders ∧ (b.ignores k).hmp = b.hmp ∧
      (b.ignores k).csc.kitchen k = some { kit with ignored := bump 65535 kit.ignored } :=
  ⟨rfl, rfl, modifyKitchen_kitchen hk _⟩

end

/-! ## Booking changes (R145, R146) -/

/-- R145 to R147: the CSC has taken the changes of the BKE but for `rest`. -/
def Book.cscNewsTaken (b : Book) (rest : List CscNews) : Book := b.withMail { b.mail with bkeToCsc := rest }

theorem cscBookingChange_eq {b : Book} {w : CscNews} {rest : List CscNews} (h : b.mail.bkeToCsc = w :: rest) :
    b.cscBookingChange = (b.cscNewsTaken rest).applyCscNews w := by
  simp only [Book.cscBookingChange, h]
  rfl

/-- R132: the order with its copy is in the table, which stays keyed. -/
theorem told_put {b : Book} (hb : OrdersKeyed b) (o : Order) (c : CscChange) :
    OrdersKeyed (b.putOrder (o.told c)) ∧ (b.putOrder (o.told c)).csc.orders.find (o.told c).id = some (o.told c) :=
  ⟨putOrder_keyed hb _, putOrder_found _ _⟩

/-- R145 to R147: the order of a booking once the CSC has taken a change of it. -/
def Order.afterNews (o : Order) (c : CscChange) : Order :=
  match c with
  | .cancelled | .released | .forgotten => (o.told c).gone
  | .endedEarly _ => (o.told c).endedEarly
  | _ => o.told c

theorem afterNews_gone {o : Order} {c : CscChange} (h : c = .cancelled ∨ c = .released ∨ c = .forgotten) :
    o.afterNews c = (o.told c).gone := by
  rcases h with rfl | rfl | rfl <;> rfl

theorem afterNews_copy (o : Order) (c : CscChange) : (o.afterNews c).copy = o.copy.after c := by
  unfold Order.afterNews
  split
  · exact gone_copy _
  · exact gone_copy _
  · exact gone_copy _
  · exact endedEarly_copy _
  · rfl

theorem applyCscNews_catering (b : Book) (w : CscNews) : CateringOnly b (b.applyCscNews w) := by
  unfold Book.applyCscNews
  split
  · exact .refl b
  · next o _ =>
    have told := putOrder_catering b (o.told w.change)
    split
    · exact told.trans (endedEarlyOrder_catering _ _)
    · exact told.trans (bookingGone_catering _ _ _)
    · exact told.trans (bookingGone_catering _ _ _)
    · exact told.trans (bookingGone_catering _ _ _)
    · exact told

/-- R145 to R147: what a change leaves of the booking's order. -/
theorem applyCscNews_found {b : Book} {booking : Nat} {o : Order} (hb : OrdersKeyed b)
    (ho : b.csc.orderOf booking = some o) (c : CscChange) :
    (b.applyCscNews { booking := booking, change := c }).csc.orders.find o.id = some (o.afterNews c) := by
  obtain ⟨keyed, found⟩ := told_put hb o c
  simp only [Book.applyCscNews, ho]
  cases c with
  | cancelled => exact bookingGone_found keyed found _
  | released => exact bookingGone_found keyed found _
  | forgotten => exact bookingGone_found keyed found _
  | endedEarly n => exact endedEarlyOrder_found keyed found
  | started st => exact found
  | extended n => exact found
  | moved room d start n => exact found

/-- R146: what an early end leaves of the booking's order, of the capacity and of what is posted. -/
theorem endedEarlyOrder_spec (b : Book) (o : Order) :
    let c := b.endedEarlyOrder o
    let ended (x : Option OrderState) : Notice :=
      .orderState o.id o.booking o.kitchen o.date o.slot (o.slot / 2) o.covers x .cancelled .bookingEnd .none
    (o.slot < o.copy.start + o.copy.count ∨ (o.state ≠ .waitlisted ∧ o.state ≠ .confirmed) →
      o.endedEarly = o ∧ c.csc.capacity = b.csc.capacity ∧ c.hmp = b.hmp) ∧
    (o.copy.start + o.copy.count ≤ o.slot → o.state = .waitlisted →
      o.endedEarly = { o with state := .cancelled } ∧ c.hmp = b.hmp.post (ended (some .waitlisted)) ∧
        ∀ kit, b.csc.kitchen o.kitchen = some kit →
          c.csc.kitchen o.kitchen = some { kit with waitlist := kit.waitlist.filter fun i => i != o.id }) ∧
    (o.copy.start + o.copy.count ≤ o.slot → o.state = .confirmed →
      o.endedEarly = { o with state := .cancelled } ∧
        (∃ more, c.hmp.out = (b.hmp.post (ended (some .confirmed))).out ++ more) ∧
        ∀ kit, b.csc.kitchen o.kitchen = some kit → kit.waitlist = [] →
          c.csc.capacity = (b.csc.giveBack o.kitchen o.date (o.slot / 2) o.covers).capacity) := by
  refine ⟨fun kept => ?_, fun out hs => ?_, fun out hs => ?_⟩
  · obtain ⟨same, same'⟩ := endedEarlyOrder_kept (b := b) kept
    rw [same]
    exact ⟨same', rfl, rfl⟩
  · obtain ⟨he, ho'⟩ := endedEarlyOrder_waiting (b := b) out hs
    rw [he]
    refine ⟨ho', ?_, fun kit hk => dropWaiting_kitchen _ _ hk⟩
    rw [← hs]
    rfl
  · obtain ⟨he, ho'⟩ := endedEarlyOrder_confirmed (b := b) out hs
    rw [he, cancelConfirmed_eq]
    refine ⟨ho', ?_, fun kit hk hl => ?_⟩
    · obtain ⟨more, hmore, -⟩ := (scan_scanned (b.confirmedCancelled o .bookingEnd) o.kitchen).out
      exact ⟨more, by rw [hmore, ← hs]; rfl⟩
    · rw [scan_idle fun x hx => by cases hk.symm.trans hx; exact hl]
      rfl

/-- Settles O44: an event by the table of its order's state, a cart by the room it stands in, a change by its kind. -/
theorem eventsCartsAndBookingEffects : Obligations.EventsCartsAndBookingEffects := by
  refine ⟨fun s g k a id session ev l m kit hm hl hk hev => ?_, fun s g h k a session ev l m hm hl hne => ?_,
    fun s p rest id o hm he hh ho hid => ?_, fun s w rest o hm ho hkeyed hfound => ?_⟩
  · refine ⟨{ s with book := s.book.terminalEvent g }, rfl, ?_⟩
    have named : eventOrder ev = some id := by rcases hev with rfl | rfl | rfl <;> rfl
    have ignored := ignores_spec (b := s.book.cscReportTaken (l ++ m)) hk
    have other := applyTerminalEvent_ignored (b := s.book.cscReportTaken (l ++ m)) (session := session) hk named
    rw [terminalEvent_taken hm hl]
    refine ⟨(applyTerminalEvent_catering _ _ _ _).reports, fun o hs ho hid hok => ?_, fun hs => ?_, fun hn => ?_,
      fun o ho hok => ?_⟩
    · subst hid hok
      have goes {st : OrderState} (ht : eventTarget o.state ev = some (o.id, st)) :
          (s.book.cscReportTaken (l ++ m)).applyTerminalEvent o.kitchen session ev =
            (s.book.cscReportTaken (l ++ m)).advanceOrder o st .terminal :=
        applyTerminalEvent_goes (b := s.book.cscReportTaken (l ++ m)) hk named ho hs rfl ht
      have stays (ht : eventTarget o.state ev = none) :
          (s.book.cscReportTaken (l ++ m)).applyTerminalEvent o.kitchen session ev =
            (s.book.cscReportTaken (l ++ m)).ignores o.kitchen :=
        applyTerminalEvent_stays (b := s.book.cscReportTaken (l ++ m)) hk named ho hs rfl ht
      refine ⟨fun h st => ?_, fun h st => ?_, fun h st => ?_, fun h st st' => ?_, fun h st => ?_, fun h st st' => ?_⟩
      · rw [goes (by rw [h]; exact if_pos st)]
        exact advanceOrder_goesOn _ _ _
      · rw [stays (by rw [h]; exact if_neg st)]
        exact ignored
      · rw [goes (by rw [h]; exact if_pos st)]
        exact advanceOrder_goesOn _ _ _
      · rw [stays (by rw [h]; exact if_neg (not_or.mpr ⟨st, st'⟩))]
        exact ignored
      · rw [goes (by rw [h]; exact if_pos st)]
        exact advanceOrder_goesOn _ _ _
      · rw [stays (by rw [h]; exact if_neg (not_or.mpr ⟨st, st'⟩))]
        exact ignored
    · rw [other (.inl hs)]
      exact ignored
    · rw [other (.inr (.inl hn))]
      exact ignored
    · rw [other (.inr (.inr ⟨o, ho, hok⟩))]
      exact ignored
  · have waits := eventBefore_other hm hl hne
    show Host.Outcome.next { s with book := s.book.terminalEvent g } = _
    rw [Book.terminalEvent, if_pos waits]
  · have hh' : (s.book.cartTaken rest).csc.horizon ≠ none := hh
    have ho' : (s.book.cartTaken rest).csc.orders.find id = some o := ho
    rcases hout : (s.book.cartTaken rest).cartOutcome p.room id with ⟨b', a⟩
    have only : CateringOnly (s.book.cartTaken rest) b' := by
      simpa only [hout] using cartOutcome_catering (s.book.cartTaken rest) p.room id
    have told : b'.mail.cscToPanel = s.book.mail.cscToPanel := by rw [only.mail]; rfl
    refine ⟨{ s with book := s.book.cartArrived }, rfl, ?_⟩
    rw [cartArrived_eq hm he hout]
    refine ⟨congrArg Mail.ppuToCsc only.mail, ?_⟩
    dsimp only [Book.withMail]
    rw [told]
    subst hid
    refine ⟨fun right hs => ?_, fun right hs => ?_, fun right h₁ h₂ h₃ h₄ => ?_, fun wrong => ?_⟩
    · have delivered := advanceOrder_found (s.book.cartTaken rest) o .delivered .cart
      rw [cartOutcome_right hh' ho' right] at hout
      rcases hs with hs | hs | hs <;> (rw [hs] at hout; cases hout; exact ⟨rfl, _, delivered, rfl⟩)
    · rw [cartOutcome_right hh' ho' right, hs] at hout
      cases hout
      exact ⟨rfl, rfl⟩
    · have other := cartOutcome_right hh' ho' right
      split at other
      · next hs => exact absurd hs h₁
      · next hs => exact absurd hs h₂
      · next hs => exact absurd hs h₃
      · next hs => exact absurd hs h₄
      · cases hout.symm.trans other
        exact ⟨rfl, rfl, rfl⟩
    · cases hout.symm.trans (cartOutcome_wrong hh' ho' wrong)
      exact ⟨rfl, rfl, rfl⟩
  · have ho' : (s.book.cscNewsTaken rest).csc.orderOf w.booking = some o := ho
    have only := applyCscNews_catering (s.book.cscNewsTaken rest) w
    have found := applyCscNews_found (b := s.book.cscNewsTaken rest) hkeyed ho' w.change
    refine ⟨{ s with book := s.book.cscBookingChange }, o.afterNews w.change, rfl, ?_⟩
    rw [cscBookingChange_eq hm]
    refine ⟨congrArg Mail.bkeToCsc only.mail, found, afterNews_copy _ _, fun h => ?_, fun st h => ?_, fun n h => ?_,
      fun n h => ?_⟩
    · rw [afterNews_gone h]
      exact gone_spec (o.told w.change)
    · rw [h]
      rfl
    · rw [h]
      rfl
    · rw [applyCscNews_ended ho' h, h]
      exact endedEarlyOrder_spec ((s.book.cscNewsTaken rest).putOrder (o.told (.endedEarly n))) (o.told (.endedEarly n))

end Sys2Proof.Machine

/-! SUPPORT. The capacity entries of the horizon (R130), the retirement of orders (R148) and the firing of cut-offs (R139). -/

namespace Sys2Proof

variable {α : Type}

/-- Of the values put one after another, the one its key has is found. -/
theorem Table.find_foldl_put {l : List (Nat × α)} {k : Nat} {a : α} (h : (k, a) ∈ l) (only : ∀ e ∈ l, e.1 = k → e.2 = a)
    (t : Table α) : (l.foldl (fun t e => t.put e.1 e.2) t).find k = some a := by
  induction l using List.reverseRecOn with
  | nil => exact absurd h List.not_mem_nil
  | append_singleton l e ih =>
    rw [List.foldl_append, List.foldl_cons, List.foldl_nil, Table.find_put]
    by_cases hk : k = e.1
    · rw [if_pos hk, only e (by simp) hk.symm]
    · rw [if_neg hk]
      refine ih ?_ fun x hx => only x (List.mem_append_left _ hx)
      rcases List.mem_append.mp h with h | h
      · exact h
      · exact absurd (congrArg Prod.fst (List.mem_singleton.mp h)) hk

/-- A canonical table lists the values it finds. -/
theorem Table.mem_values {t : Table α} (h : t.wf = true) (a : α) : a ∈ t.values ↔ ∃ k, t.find k = some a := by
  simp only [Table.values, List.mem_map, Prod.exists, exists_eq_right, Machine.Table.mem_entries h]

/-- What a table finds is one of its values. -/
theorem Table.find_mem_values {t : Table α} {k : Nat} {a : α} (h : t.find k = some a) : a ∈ t.values :=
  List.mem_map.mpr ⟨(k, a), Machine.findKey_mem h, rfl⟩

end Sys2Proof

namespace Sys2Proof.Machine

/-! ## New capacity entries (R130) -/

/-- The key of a capacity entry tells its kitchen, its date and its window. -/
theorem capKey_inj {k j v w : Nat} {d e : Date} (hd : d.valid = true) (he : e.valid = true) (hv : v < 32) (hw : w < 32)
    (h : capKey k d v = capKey j e w) : k = j ∧ d = e ∧ v = w := by
  have share : rowKey k d = rowKey j e := by
    unfold capKey at h
    unfold rowKey
    omega
  obtain ⟨hk, hde⟩ := rowKey_inj hd he share
  subst hk hde
  unfold capKey at h
  exact ⟨rfl, rfl, by omega⟩

/-- R130: the entry of a window of a kitchen's new day. -/
def newEntry (k : Nat) (kit : Kitchen) (d : Date) (past : Nat → Bool) (w : Nat) : CapEntry :=
  { kitchen := k, date := d, window := w, capacity := (kit.profile[w]?).getD 0, committed := 0, closed := past w }

theorem mem_newEntries {k : Nat} {kit : Kitchen} {d : Date} {past : Nat → Bool} {e : Nat × CapEntry} :
    e ∈ newEntries k kit d past ↔ ∃ w < 32, e = (capKey k d w, newEntry k kit d past w) := by
  simp only [newEntries, newEntry, List.mem_map, List.mem_range, eq_comm]

theorem addEntries_addEntries (c : Csc) (l m : List (Nat × CapEntry)) :
    (c.addEntries l).addEntries m = c.addEntries (l ++ m) := by
  simp only [Csc.addEntries, List.foldl_append]

@[simp] theorem addEntries_horizon (c : Csc) (l : List (Nat × CapEntry)) : (c.addEntries l).horizon = c.horizon := rfl

/-- Entries added list by list are added in one list. -/
theorem addEntries_foldl {β : Type} (f : β → List (Nat × CapEntry)) (l : List β) (c : Csc) :
    l.foldl (fun c x => c.addEntries (f x)) c = c.addEntries (l.flatMap f) := by
  induction l generalizing c with
  | nil => rfl
  | cons x l ih => rw [List.foldl_cons, ih, addEntries_addEntries, List.flatMap_cons]

/-- R130: the entries of the open dates of one kitchen. -/
def horizonEntries (h : Horizon) (t : Ctu) (k : Nat) (kit : Kitchen) : List (Nat × CapEntry) :=
  h.dates.flatMap fun d => newEntries k kit d fun w => d == h.today && windowPast t w

theorem openKitchen_eq {c : Csc} {h : Horizon} (hh : c.horizon = some h) (t : Ctu) (k : Nat) (kit : Kitchen) :
    c.openKitchen t k kit = c.addEntries (horizonEntries h t k kit) := by
  simp only [Csc.openKitchen, hh, addEntries_foldl, horizonEntries]

theorem openKitchens_eq {c : Csc} {h : Horizon} (hh : c.horizon = some h) (t : Ctu) (l : List (Nat × Kitchen)) :
    l.foldl (fun c p => c.openKitchen t p.1 p.2) c = c.addEntries (l.flatMap fun p => horizonEntries h t p.1 p.2) := by
  induction l generalizing c with
  | nil => rfl
  | cons p l ih =>
    have hh' : (c.addEntries (horizonEntries h t p.1 p.2)).horizon = some h := (addEntries_horizon _ _).trans hh
    rw [List.foldl_cons, openKitchen_eq hh, ih hh', addEntries_addEntries, List.flatMap_cons]

theorem addEntries_entry {c : Csc} {l : List (Nat × CapEntry)} {k w : Nat} {d : Date} {e : CapEntry}
    (h : (capKey k d w, e) ∈ l) (only : ∀ x ∈ l, x.1 = capKey k d w → x.2 = e) : (c.addEntries l).entry k d w = some e :=
  Table.find_foldl_put h only c.capacity

section

variable {b : Book} {e : TimeEvent} {rest : List TimeEvent} (hm : b.mail.cscEvents = e :: rest)
include hm

/-- R130: the CSC at a horizon open. -/
def Csc.horizonOpened (c : Csc) (h : Horizon) (m : Nat) (t : Ctu) : Csc :=
  { c with horizon := some h, minute := some m }.addEntries
    (c.kitchens.entries.flatMap fun p : Nat × Kitchen => horizonEntries h t p.1 p.2)

theorem cscHorizonOpen_eq {w : Weekday} {m : Nat} {slot : CurSlot} (hk : e.kind = .horizonOpen w m slot) (t : Ctu) :
    b.cscHorizonOpen t =
      (b.withMail { b.mail with cscEvents := rest }).withCsc
        (b.csc.horizonOpened { today := e.date, weekday := w } m t) := by
  simp only [Book.cscHorizonOpen, cscEvent_eq hm, hk, Option.getD_some]
  rw [openKitchens_eq rfl]
  rfl

/-- R130, R148: the CSC at a day open. -/
def Csc.dayOpened (c : Csc) (h : Horizon) (d : Date) : Csc :=
  { c with horizon := some h }.addEntries
    (c.kitchens.entries.flatMap fun p : Nat × Kitchen => newEntries p.1 p.2 d fun _ => false)

theorem cscDayOpen_eq {d : Date} {w : Weekday} (hk : e.kind = .dayOpen d w) :
    b.cscDayOpen =
      (b.withMail { b.mail with cscEvents := rest }).withCsc (b.csc.dayOpened (Horizon.dayOpened e.date w) d) := by
  simp only [Book.cscDayOpen, cscEvent_eq hm, hk, Option.getD_some]
  rw [addEntries_foldl fun p : Nat × Kitchen => newEntries p.1 p.2 d fun _ => false]
  rfl

end

section

variable {c : Csc} (wf : c.kitchens.wf = true) {k v : Nat} {kit : Kitchen} (hk : c.kitchens.find k = some kit) (hv : v < 32)
include wf hk hv

/-- R130: at a horizon open every window of a kitchen's open dates has an entry. -/
theorem horizonOpened_entry {h : Horizon} (valid : h.today.valid = true) (m : Nat) (t : Ctu) {j : Nat} (hj : j < 14) :
    (c.horizonOpened h m t).entry k (h.today.after j) v =
      some (newEntry k kit (h.today.after j) (fun w => h.today.after j == h.today && windowPast t w) v) := by
  refine addEntries_entry ?_ fun x hx hkey => ?_
  · simp only [horizonEntries, List.mem_flatMap, Horizon.dates_eq, List.mem_map, List.mem_range, mem_newEntries]
    exact ⟨(k, kit), (Table.mem_entries wf k kit).mpr hk, _, ⟨j, hj, rfl⟩, v, hv, rfl⟩
  · simp only [horizonEntries, List.mem_flatMap, Horizon.dates_eq, List.mem_map, List.mem_range, mem_newEntries] at hx
    obtain ⟨⟨k', kit'⟩, hkit, _, ⟨i, -, rfl⟩, w, hw, rfl⟩ := hx
    obtain ⟨rfl, hd, rfl⟩ := capKey_inj (Date.after_valid valid i) (Date.after_valid valid j) hw hv hkey
    cases ((Table.mem_entries wf k' kit').mp hkit).symm.trans hk
    simp only [hd]

/-- R130: at a day open every window of a kitchen's opened date has an entry. -/
theorem dayOpened_entry {d : Date} (valid : d.valid = true) (h : Horizon) :
    (c.dayOpened h d).entry k d v = some (newEntry k kit d (fun _ => false) v) := by
  refine addEntries_entry ?_ fun x hx hkey => ?_
  · simp only [List.mem_flatMap, mem_newEntries]
    exact ⟨(k, kit), (Table.mem_entries wf k kit).mpr hk, v, hv, rfl⟩
  · simp only [List.mem_flatMap, mem_newEntries] at hx
    obtain ⟨⟨k', kit'⟩, hkit, w, hw, rfl⟩ := hx
    obtain ⟨rfl, -, rfl⟩ := capKey_inj valid valid hw hv hkey
    cases ((Table.mem_entries wf k' kit').mp hkit).symm.trans hk
    rfl

end

/-! ## The retirement of a date (R148) -/

theorem retireOrder_orders (b : Book) (o : Order) : (b.retireOrder o).csc.orders = b.csc.orders.drop o.id := by
  unfold Book.retireOrder
  dsimp only
  split <;> rfl

theorem retireOrder_catering (b : Book) (o : Order) : CateringOnly b (b.retireOrder o) := by
  unfold Book.retireOrder
  dsimp only
  split
  · exact ((postOrder_catering _ _ _ _ _).trans (withCsc_catering _ _)).trans (modifyKitchen_lists _ _ _).toCateringOnly
  · exact (withCsc_catering _ _).trans (modifyKitchen_lists _ _ _).toCateringOnly

theorem retireOrders_orders (l : List Order) (b : Book) :
    (l.foldl Book.retireOrder b).csc.orders = b.csc.orders.dropAll (l.map (·.id)) := by
  induction l generalizing b with
  | nil => rfl
  | cons o l ih => rw [List.foldl_cons, ih, retireOrder_orders, List.map_cons, Table.dropAll, Table.dropAll, List.foldl_cons]

/-- R148: the orders of a date, which its retirement removes. -/
def Csc.ordersOf (c : Csc) (d : Date) : List Order := c.orders.values.filter fun o => o.date == d

/-- R148: an order stays where it is of another date. -/
theorem find_dropAll_ordersOf {b : Book} (hb : OrdersKeyed b) (wf : b.csc.orders.wf = true) (d : Date) (k : Nat)
    (o : Order) :
    (b.csc.orders.dropAll ((b.csc.ordersOf d).map (·.id))).find k = some o ↔
      b.csc.orders.find k = some o ∧ o.date ≠ d := by
  have listed (ho : b.csc.orders.find k = some o) : k ∈ (b.csc.ordersOf d).map (·.id) ↔ o.date = d := by
    simp only [Csc.ordersOf, List.mem_map, List.mem_filter, Table.mem_values wf, beq_iff_eq]
    constructor
    · rintro ⟨x, ⟨⟨j, hj⟩, hx⟩, hid⟩
      rw [(hb j x hj).symm.trans hid] at hj
      cases hj.symm.trans ho
      exact hx
    · exact fun hd => ⟨o, ⟨⟨k, ho⟩, hd⟩, hb k o ho⟩
  rw [Table.find_dropAll]
  constructor
  · intro h
    split at h
    · exact nomatch h
    · next out => exact ⟨h, fun hd => out ((listed h).mpr hd)⟩
  · rintro ⟨ho, hd⟩
    rw [if_neg fun hk => hd ((listed ho).mp hk), ho]

theorem cscDayRetire_eq {b : Book} {e : TimeEvent} {rest : List TimeEvent} (hm : b.mail.cscEvents = e :: rest)
    (hk : e.kind = .dayRetire) :
    ∃ b', CateringOnly (b.withMail { b.mail with cscEvents := rest }) b' ∧
      b'.csc.orders = b.csc.orders.dropAll ((b.csc.ordersOf e.date).map (·.id)) ∧
      b.cscDayRetire = b'.withCsc { b'.csc with capacity := b'.csc.capacity.keep fun x => x.date != e.date } := by
  refine ⟨(b.csc.ordersOf e.date).foldl Book.retireOrder (b.withMail { b.mail with cscEvents := rest }),
    CateringOnly.foldl retireOrder_catering _ _, retireOrders_orders _ _, ?_⟩
  simp only [Book.cscDayRetire, cscEvent_eq hm, hk, Option.getD_some]
  rfl

/-! ## Cut-offs (R139) -/

/-- R139: the order once its cut-off has fired. -/
def Order.afterCutOff (o : Order) : Order :=
  match o.state with
  | .confirmed => { o with fired := true, state := .locked, ticket := .pending }
  | .waitlisted => { o with fired := true, state := .declined }
  | _ => { o with fired := true }

theorem afterCutOff_confirmed {o : Order} (h : o.state = .confirmed) :
    o.afterCutOff = { o with fired := true, state := .locked, ticket := .pending } := by
  simp only [Order.afterCutOff, h]

theorem afterCutOff_waitlisted {o : Order} (h : o.state = .waitlisted) :
    o.afterCutOff = { o with fired := true, state := .declined } := by
  simp only [Order.afterCutOff, h]

theorem afterCutOff_spec (o : Order) :
    o.afterCutOff.id = o.id ∧ o.afterCutOff.date = o.date ∧ o.afterCutOff.cutOff = o.cutOff ∧ o.afterCutOff.fired = true := by
  unfold Order.afterCutOff
  split <;> exact ⟨rfl, rfl, rfl, rfl⟩

/-- R139: a CONFIRMED order at its cut-off, before its ticket joins the list. -/
def Book.lockOrder (b : Book) (o : Order) : Book :=
  (b.putOrder { o with fired := true, state := .locked, ticket := .pending }).postOrder
    { o with fired := true, state := .locked, ticket := .pending } (some .confirmed) .cutOff

section

variable {b : Book} {id : Nat} {o : Order} (ho : b.csc.orders.find id = some o)
include ho

theorem fireCutOff_confirmed (hs : o.state = .confirmed) :
    b.fireCutOff id = (b.lockOrder o).joinTickets o.kitchen o.id := by
  simp only [Book.fireCutOff, ho, hs]
  rfl

theorem fireCutOff_waitlisted (hs : o.state = .waitlisted) :
    b.fireCutOff id = b.dropWaiting { o with fired := true } .declined .cutOff := by
  simp only [Book.fireCutOff, ho, hs]

theorem fireCutOff_other (hc : o.state ≠ .confirmed) (hw : o.state ≠ .waitlisted) :
    b.fireCutOff id = b.putOrder { o with fired := true } ∧ o.afterCutOff = { o with fired := true } := by
  simp only [Book.fireCutOff, Order.afterCutOff, ho, and_self]

/-- R139: what a cut-off leaves of the orders, and that the CSC's minute stays. -/
theorem fireCutOff_orders :
    (b.fireCutOff id).csc.orders = b.csc.orders.put o.id o.afterCutOff ∧ (b.fireCutOff id).csc.minute = b.csc.minute ∧
      CateringOnly b (b.fireCutOff id) := by
  by_cases hc : o.state = .confirmed
  · have lists := joinTickets_lists (b.lockOrder o) o.kitchen o.id
    rw [fireCutOff_confirmed ho hc, lists.csc, afterCutOff_confirmed hc]
    exact ⟨rfl, rfl, ((putOrder_catering _ _).trans (postOrder_catering _ _ _ _ _)).trans lists.toCateringOnly⟩
  · by_cases hw : o.state = .waitlisted
    · rw [fireCutOff_waitlisted ho hw, afterCutOff_waitlisted hw]
      exact ⟨rfl, rfl, dropWaiting_catering _ _ _ _⟩
    · obtain ⟨he, ho'⟩ := fireCutOff_other ho hc hw
      rw [he, ho']
      exact ⟨rfl, rfl, putOrder_catering _ _⟩

end

/-- R139: what the cut-offs of the orders `l` can do. -/
structure CutOffsFired (l : List Nat) (b b' : Book) : Prop extends CateringOnly b b' where
  minute : b'.csc.minute = b.csc.minute
  keyed : OrdersKeyed b'
  orders : ∀ j o', b'.csc.orders.find j = some o' →
    ∃ o, b.csc.orders.find j = some o ∧ o'.date = o.date ∧ o'.cutOff = o.cutOff ∧ (o.fired = true ∨ j ∈ l → o'.fired = true)

theorem fireCutOff_fired {b : Book} (hb : OrdersKeyed b) (id : Nat) : CutOffsFired [id] b (b.fireCutOff id) := by
  cases ho : b.csc.orders.find id with
  | none =>
    simp only [Book.fireCutOff, ho]
    refine ⟨.refl b, rfl, hb, fun j o hj => ⟨o, hj, rfl, rfl, fun h => h.elim (fun h => h) fun h => ?_⟩⟩
    rw [List.mem_singleton.mp h, ho] at hj
    exact nomatch hj
  | some o =>
    obtain ⟨orders, minute, only⟩ := fireCutOff_orders ho
    obtain ⟨hid, hdate, hcut, hfired⟩ := afterCutOff_spec o
    have found (j : Nat) : (b.fireCutOff id).csc.orders.find j = if j = id then some o.afterCutOff else b.csc.orders.find j := by
      rw [orders, hb id o ho, Table.find_put]
    refine ⟨only, minute, fun j x hj => ?_, fun j x hj => ?_⟩
    · rw [found] at hj
      split at hj
      · next hji =>
        cases hj
        rw [hid, hb id o ho, hji]
      · exact hb j x hj
    · rw [found] at hj
      split at hj
      · next hji =>
        cases hj
        exact ⟨o, hji ▸ ho, hdate, hcut, fun _ => hfired⟩
      · next hji => exact ⟨x, hj, rfl, rfl, fun h => h.elim (fun h => h) fun h => absurd (List.mem_singleton.mp h) hji⟩

theorem fireCutOffs_fired (l : List Nat) {b : Book} (hb : OrdersKeyed b) :
    CutOffsFired l b (l.foldl Book.fireCutOff b) := by
  induction l generalizing b with
  | nil => exact ⟨.refl b, rfl, hb, fun j o hj => ⟨o, hj, rfl, rfl, fun h => h.elim id (absurd · List.not_mem_nil)⟩⟩
  | cons id l ih =>
    have one := fireCutOff_fired hb id
    have more := ih one.keyed
    refine ⟨one.toCateringOnly.trans more.toCateringOnly, more.minute.trans one.minute, more.keyed, fun j o hj => ?_⟩
    obtain ⟨x, hx, date, cut, fired⟩ := more.orders j o hj
    obtain ⟨y, hy, date', cut', fired'⟩ := one.orders j x hx
    refine ⟨y, hy, date.trans date', cut.trans cut', fun h => ?_⟩
    rcases h with h | h
    · exact fired (.inl (fired' (.inl h)))
    · rcases List.mem_cons.mp h with h | h
      · exact fired (.inl (fired' (.inr (List.mem_singleton.mpr h))))
      · exact fired (.inr h)

/-- R139: the orders whose cut-off falls due, in the order in which they fire. -/
def Csc.dueOrders (c : Csc) (d : Date) (m : Nat) : List Order :=
  sortBy (fun o => o.cutOff * 2048 + o.id)
    (c.orders.values.filter fun o => o.date == d && !o.fired && decide (o.cutOff ≤ m))

theorem mem_dueOrders {c : Csc} {d : Date} {m : Nat} {o : Order} :
    o ∈ c.dueOrders d m ↔ o ∈ c.orders.values ∧ o.date = d ∧ o.fired = false ∧ o.cutOff ≤ m := by
  simp [Csc.dueOrders, and_assoc]

/-- R139: cut-offs fire by cut-off minute, then by order id. -/
theorem dueOrders_rising {c : Csc} (hid : ∀ o ∈ c.orders.values, o.id ≤ 1023) (d : Date) (m : Nat) :
    (c.dueOrders d m).Pairwise fun x y => x.cutOff < y.cutOff ∨ x.cutOff = y.cutOff ∧ x.id ≤ y.id := by
  refine (sortBy_rising _ _).imp_of_mem fun {x y} hx hy hr => ?_
  have := hid x (mem_dueOrders.mp hx).1
  have := hid y (mem_dueOrders.mp hy).1
  omega

theorem cscMinute_eq {b : Book} {d : Date} {m : Nat} (h : b.mail.cscMinuteEvent = some (d, m)) :
    ∃ b', b' = (b.csc.dueCutOffs d m).foldl Book.fireCutOff (b.setCscMinute m) ∧
      b.cscMinute = b'.withMail { b'.mail with cscEvents := b'.mail.cscEvents.drop 1 } :=
  ⟨_, rfl, by simp only [Book.cscMinute, h]⟩

theorem cscMinuteEvent_head {b : Book} {e : TimeEvent} {m : Nat} {rest : List TimeEvent}
    (hm : b.mail.cscEvents = e :: rest) (hk : e.kind = .minute m) : b.mail.cscMinuteEvent = some (e.date, m) := by
  simp only [Mail.cscMinuteEvent, hm, hk]

theorem cutOff_eq {b : Book} {d : Date} {m id : Nat} {l : List Nat} (h : b.mail.cscMinuteEvent = some (d, m))
    (hl : b.csc.dueCutOffs d m = id :: l) : b.cutOff = (b.setCscMinute m).fireCutOff id := by
  simp only [Book.cutOff, h, hl]

end Sys2Proof.Machine

/-! PROOFS. The time events at the CSC, and the firing of cut-offs (R129, R130, R139, R148). -/

namespace Sys2Proof.Machine

/-- R139: at the end of a minute event every cut-off that had fallen due has fired. -/
theorem dueCutOffs_fired {b b' : Book} {d : Date} {m : Nat} (hb : OrdersKeyed b)
    (fired : CutOffsFired (b.csc.dueCutOffs d m) (b.setCscMinute m) b') {k : Nat} {o : Order}
    (ho : b'.csc.orders.find k = some o) (hd : o.date = d) (hc : o.cutOff ≤ m) : o.fired = true := by
  obtain ⟨x, hx, date, cut, goes⟩ := fired.orders k o ho
  have hx' : b.csc.orders.find k = some x := hx
  refine goes ?_
  by_cases hf : x.fired = true
  · exact .inl hf
  · have due : x ∈ b.csc.dueOrders d m :=
      mem_dueOrders.mpr ⟨Table.find_mem_values hx', date ▸ hd, Bool.not_eq_true _ ▸ hf, cut ▸ hc⟩
    exact .inr (List.mem_map.mpr ⟨x, due, hb k x hx'⟩)

/-- R139: where every cut-off of the date has fired, none falls due. -/
theorem dueCutOffs_nil {c : Csc} {d : Date} {m : Nat} (wf : c.orders.wf = true)
    (h : ∀ k o, c.orders.find k = some o → o.date = d → o.cutOff ≤ m → o.fired = true) : c.dueCutOffs d m = [] := by
  refine List.map_eq_nil_iff.mpr (List.eq_nil_iff_forall_not_mem.mpr fun o (ho : o ∈ c.dueOrders d m) => ?_)
  obtain ⟨hv, hd, hf, hc⟩ := mem_dueOrders.mp ho
  obtain ⟨k, hk⟩ := (Table.mem_values wf o).mp hv
  rw [h k o hk hd hc] at hf
  exact nomatch hf

/-- Settles O42: horizon and day open by the entries they add, day retire by what it drops, a minute by the cut-offs that
fall due, and one cut-off by its order's state. -/
theorem cateringTakesItsTimeEvents : Obligations.CateringTakesItsTimeEvents := by
  refine ⟨fun s e w m slot rest hm hk valid wf => ?_, fun s e rest hm hk hb wf => ?_,
    fun s e opened w rest hm hk valid wf => ?_, fun s e m rest hm hk hb => ?_, fun q d m hid => ?_,
    fun s d m id l o hev hl ho hid => ?_⟩
  · refine ⟨{ s with book := s.book.cscHorizonOpen s.ctu }, rfl, ?_⟩
    rw [cscHorizonOpen_eq hm hk]
    exact ⟨rfl, rfl, rfl, fun k kit j v hkit hj hv => horizonOpened_entry wf hkit hv valid m s.ctu hj⟩
  · obtain ⟨b', only, orders, he⟩ := cscDayRetire_eq hm hk
    refine ⟨{ s with book := s.book.cscDayRetire }, rfl, ?_⟩
    rw [he]
    refine ⟨congrArg Mail.cscEvents only.mail, fun k o => ?_, fun x hx => ?_⟩
    · rw [← find_dropAll_ordersOf hb wf, ← orders]
      rfl
    · simpa using (List.mem_filter.mp hx).2
  · refine ⟨{ s with book := s.book.cscDayOpen }, rfl, ?_⟩
    rw [cscDayOpen_eq hm hk]
    exact ⟨rfl, rfl, rfl, fun k kit v hkit hv => dayOpened_entry wf hkit hv valid _⟩
  · obtain ⟨b', hb', he⟩ := cscMinute_eq (cscMinuteEvent_head hm hk)
    have fired : CutOffsFired (s.book.csc.dueCutOffs e.date m) (s.book.setCscMinute m) b' := hb' ▸ fireCutOffs_fired _ hb
    refine ⟨{ s with book := s.book.cscMinute }, rfl, ?_⟩
    rw [he]
    refine ⟨?_, fired.minute, fun k o ho hd hc => dueCutOffs_fired hb fired ho hd hc, fun none wf => ?_⟩
    · have events : b'.mail.cscEvents = e :: rest := (congrArg Mail.cscEvents fired.mail).trans hm
      exact congrArg (List.drop 1) events
    · rw [hb', dueCutOffs_nil wf none]
      exact ⟨rfl, rfl⟩
  · exact ⟨q.dueOrders d m, rfl, fun o => mem_dueOrders, dueOrders_rising hid d m⟩
  · subst hid
    have ho' : (s.book.setCscMinute m).csc.orders.find o.id = some o := ho
    obtain ⟨orders, -, only⟩ := fireCutOff_orders ho'
    have found : ((s.book.setCscMinute m).fireCutOff o.id).csc.orders.find o.id = some o.afterCutOff := by
      rw [orders, Table.find_put_self]
    refine ⟨{ s with book := s.book.cutOff }, rfl, ?_⟩
    rw [cutOff_eq hev hl]
    have events := congrArg Mail.cscEvents only.mail
    refine ⟨events, fun hs => ?_, fun hs => ?_, fun hc hw => ?_⟩
    · refine ⟨found.trans (congrArg some (afterCutOff_confirmed hs)), ?_⟩
      rw [fireCutOff_confirmed ho' hs]
      obtain ⟨more, hmore, -⟩ := (joinTickets_lists ((s.book.setCscMinute m).lockOrder o) o.kitchen o.id).out
      exact ⟨fun kit hkit => joinTickets_kitchen (b := (s.book.setCscMinute m).lockOrder o) o.id hkit, more, hmore⟩
    · refine ⟨found.trans (congrArg some (afterCutOff_waitlisted hs)), ?_⟩
      rw [fireCutOff_waitlisted ho' hs]
      refine ⟨fun kit hkit => ⟨_, dropWaiting_kitchen (b := s.book.setCscMinute m) (o := { o with fired := true }) _ _ hkit,
        by simp⟩, ?_⟩
      rw [← hs]
      rfl
    · obtain ⟨he, ho''⟩ := fireCutOff_other ho' hc hw
      rw [← ho'', he]
      exact ⟨found ▸ congrArg (fun x : Book => x.csc.orders.find o.id) he.symm, rfl⟩

end Sys2Proof.Machine

/-! PROOFS. ORDER: the CSC's check, the placement claim at the BKE, and the consultation that decides it (R134, R135). -/

namespace Sys2Proof.Machine

/-! ## ORDER at the CSC -/

theorem orderCheck_unset {b : Book} (h : b.csc.horizon = none) (f : OrderFields) :
    b.orderCheck f = some (Answer.of .clockUnset) := by
  simp [Book.orderCheck, h, firstFail]

theorem orderCheck_passes {b : Book} {f : OrderFields} (h : b.csc.horizon ≠ none) (hb : f.booking ≠ 0)
    (hl : linesBad f.lines = false) (hs : f.slot.getD 0 ≤ 63) : b.orderCheck f = none := by
  have slot : (f.slot.any fun x => decide (63 < x)) = false := by
    cases hf : f.slot with
    | none => rfl
    | some x => simpa [hf] using hs
  have opened : b.csc.horizon.isNone = false := by simpa [Option.isSome_iff_ne_none] using h
  have named : (f.booking == 0) = false := by simpa using hb
  simp only [Book.orderCheck, opened, named, hl, slot, Bool.or_self, firstFail]

/-- R134: the claim that the CSC hands the BKE for a request. -/
def Book.placementHanded (b : Book) (c : Ctx) (f : OrderFields) : Book :=
  b.withMail { b.mail with cscToBke := b.mail.cscToBke ++ [{ ctx := c, fields := f }] }

section

variable {s : State} {c : Ctx} {f : OrderFields} {rest : List Handed} (hq : Asks s c (.order f) rest)
include hq

theorem runs_order_refused {a : Answer} (h : (s.book.withRequests rest).orderCheck f = some a) :
    Runs .order s { s with book := (s.book.withRequests rest).reply c a } := by
  show Host.Outcome.next { s with book := s.book.order } = _
  have served : s.book.order = (s.book.withRequests rest).reply c a := hq.serve (by simp only [h])
  rw [served]

theorem runs_order_handed (h : (s.book.withRequests rest).orderCheck f = none) :
    Runs .order s { s with book := (s.book.withRequests rest).placementHanded c f } := by
  show Host.Outcome.next { s with book := s.book.order } = _
  have served : s.book.order = (s.book.withRequests rest).placementHanded c f := hq.serve (by simp only [h]; rfl)
  rw [served]

end

/-! ## The placement claim at the BKE (R134) -/

/-- R134: what the BKE gives the CSC for the record `r`, of whose room `k` is the kitchen. -/
def consultationOf (f : OrderFields) (r : Record) (k : Nat) : Consultation :=
  { booking := r.id, kitchen := k, slot := f.slot.getD r.start, lines := f.lines, wait := f.wait
    copy := { date := r.date, room := r.room, start := r.start, count := r.count, state := some r.state
              label := r.label } }

/-- R134: the claim names a meeting to which the kitchen `k` may be asked to deliver. -/
structure Placeable (b : Book) (f : OrderFields) (n k : Nat) (r : Record) (rm : Room) : Prop where
  sound : StoreSound b
  held : HoldsLive b n r
  id : r.id = f.booking
  meeting : r.kind = .meeting
  state : r.state = .confirmed ∨ r.state.started = true
  room : b.room r.room = some rm
  kitchen : rm.kitchen = some k
  first : r.start ≤ f.slot.getD r.start
  last : f.slot.getD r.start < r.start + r.count

section

variable {b b' : Book} {f : OrderFields} {n k : Nat} {r : Record} {rm : Room} (h : Placeable b f n k r rm)
include h

theorem Placeable.checks : b.placementChecks f = .ok (b, n, r, consultationOf f r k) := by
  have passes :
      refuseIf b
        [closureRefusal r, (!(r.state == .confirmed || r.state.started), Answer.because .refused .state),
          (decide (f.slot.getD r.start < r.start) || decide (r.start + r.count ≤ f.slot.getD r.start),
            Answer.because .badRequest .slot)] = .ok () := by
    have hs : (r.state == .confirmed || r.state.started) = true := by simpa using h.state
    have first := Nat.not_lt.mpr h.first
    have last := Nat.not_le.mpr h.last
    simp [refuseIf, firstFail, closureRefusal_meeting h.meeting, hs, first, last]
  unfold Book.placementChecks
  simp only [← h.id, h.held.fetch h.sound, passes, h.room, Option.bind_some, h.kitchen]
  rfl

theorem Placeable.refused {a : Answer} (hc : b.consult (consultationOf f r k) = (b', a, none)) :
    b.placeOrder f = (b', a) := by
  simp only [Book.placeOrder, h.checks, hc]

theorem Placeable.placed {a : Answer} {id : Nat} (hc : b.consult (consultationOf f r k) = (b', a, some id)) :
    b.placeOrder f = (b'.putRecord n { r with order := some id }, a) := by
  simp only [Book.placeOrder, h.checks, hc]

end

/-! ## The consultation (R135) -/

/-- R135: the orders without the one that a placement replaces. -/
def Csc.kept (c : Csc) (old : Option Order) : Table Order := (old.map fun o => c.orders.drop o.id).getD c.orders

/-- R135: the book without the order that a placement replaces. -/
def Book.replacing (b : Book) (old : Option Order) : Book := b.withCsc { b.csc with orders := b.csc.kept old }

theorem kept_self {c : Csc} (o : Order) : (c.kept (some o)).find o.id = none := Table.find_drop_self ..

theorem kept_other {c : Csc} {old : Option Order} {j : Nat} (h : ∀ o, old = some o → j ≠ o.id) :
    (c.kept old).find j = c.orders.find j := by
  cases old with
  | none => rfl
  | some o => exact Table.find_drop_ne _ _ _ (h o rfl)

theorem replaceable_iff {st : OrderState} : st.replaceable = true ↔ st = .cancelled ∨ st = .declined := by
  simp [OrderState.replaceable]

section

variable {b : Book} {q : Consultation} {old : Option Order} (hold : b.csc.orderOf q.booking = old)
include hold

theorem consult_ordered {o : Order} (ho : old = some o) (hs : o.state.replaceable = false) :
    b.consult q = (b, Answer.because .inUse .ordered, none) := by
  simp [Book.consult, hold, ho, hs, firstFail]

variable (free : ∀ o, old = some o → o.state.replaceable = true)
include free

theorem consult_late (late : CutOffPassed b.csc q.kitchen q.copy.date q.slot) :
    b.consult q = (b, Answer.of .tooLate, none) := by
  have spare : (old.any fun o => !o.state.replaceable) = false := by
    cases old with
    | none => rfl
    | some o => simp [free o rfl]
  simp [Book.consult, hold, spare, cutOffPassed_iff.mpr late, firstFail]

/-- R135: a consultation that no check ends is decided on the book without the order to replace. -/
theorem consult_decides (early : ¬CutOffPassed b.csc q.kitchen q.copy.date q.slot)
    (places : old = none → b.csc.orders.size < 1023) (guard : b.csc.guard.contains q.kitchen = false) :
    b.consult q = b.decidePlacement (b.replacing old) q := by
  have timely : b.csc.cutOffPassed q.kitchen q.copy.date q.slot = false :=
    Bool.eq_false_iff.mpr (cutOffPassed_iff.not.mpr early)
  cases old with
  | none =>
    have size : decide (Config.maxOrders ≤ b.csc.orders.size) = false := decide_eq_false (Nat.not_le.mpr (places rfl))
    simp only [Book.consult, hold, timely, Csc.guarded, guard, size, firstFail, Option.any_none, Bool.false_and]
    rfl
  | some o =>
    simp only [Book.consult, hold, timely, Csc.guarded, guard, free o rfl, firstFail, Option.any_some, Bool.not_true,
      Bool.and_false]
    rfl

end

/-! ## The decision (R135) -/

/-- R132, R135: the book with the order of a consultation placed in the state `st`. -/
structure Places (b b' : Book) (q : Consultation) (st : OrderState) : Prop extends CateringOnly b b' where
  orders : b'.csc.orders = b.csc.orders.put b.csc.newOrderId (b.csc.placedOrder q st)
  last : b'.csc.lastOrder = b.csc.newOrderId
  hmp :
    b'.hmp =
      b.hmp.post
        (.orderState b.csc.newOrderId q.booking q.kitchen q.copy.date q.slot (q.slot / 2) (covers q.lines) none st .host
          .none)

/-- R135: the reply to a placement. -/
def placedAnswer (o : Order) (d : Detail) (left : Nat) : Answer :=
  { status := .ok, detail := d, data := .order (o.placedView left) }

section

variable {b : Book} {q : Consultation} {e : CapEntry} (he : b.csc.entry q.kitchen q.copy.date (q.slot / 2) = some e)

theorem placeConfirmed_places (b : Book) (q : Consultation) : Places b (b.placeConfirmed q).1 q .confirmed :=
  ⟨((withCsc_catering _ _).trans (putOrder_catering _ _)).trans (postOrder_catering _ _ _ _ _), rfl, rfl, rfl⟩

include he in
theorem placeConfirmed_entry :
    (b.placeConfirmed q).1.csc.entry q.kitchen q.copy.date (q.slot / 2) =
      some { e with committed := e.committed + covers q.lines } := commit_entry he

include he in
theorem placeConfirmed_eq :
    b.placeConfirmed q =
      ((b.placeConfirmed q).1,
        placedAnswer (b.csc.placedOrder q .confirmed) .confirmed (e.capacity - (e.committed + covers q.lines)),
        some b.csc.newOrderId) := by
  rw [← remaining_entry (placeConfirmed_entry he)]
  rfl

theorem placeWaiting_places (b : Book) (q : Consultation) : Places b (b.placeWaiting q).1 q .waitlisted :=
  ⟨(((withCsc_catering _ _).trans (putOrder_catering _ _)).trans (modifyKitchen_lists _ _ _).toCateringOnly).trans
      (postOrder_catering _ _ _ _ _), rfl, rfl, rfl⟩

theorem placeWaiting_kitchen {kit : Kitchen} (hk : b.csc.kitchen q.kitchen = some kit) :
    (b.placeWaiting q).1.csc.kitchen q.kitchen = some { kit with waitlist := kit.waitlist ++ [b.csc.newOrderId] } :=
  modifyKitchen_kitchen (b := b.withCsc _) hk _

include he in
theorem placeWaiting_eq :
    b.placeWaiting q =
      ((b.placeWaiting q).1, placedAnswer (b.csc.placedOrder q .waitlisted) .waiting (e.capacity - e.committed),
        some b.csc.newOrderId) := by
  rw [← remaining_entry he]
  rfl

end

section

variable {before b : Book} {q : Consultation}

theorem decidePlacement_confirmed (fits : CoversFit b.csc q.kitchen q.copy.date (q.slot / 2) (covers q.lines)) :
    before.decidePlacement b q = b.placeConfirmed q := if_pos (fits_iff.mpr fits)

variable (unfit : ¬CoversFit b.csc q.kitchen q.copy.date (q.slot / 2) (covers q.lines))
include unfit

theorem decidePlacement_full (hw : q.wait = false) :
    before.decidePlacement b q = (before, Answer.because .full .capacity, none) := by
  unfold Book.decidePlacement
  rw [if_neg (fits_iff.not.mpr unfit), if_neg (by simp [hw]), hw]
  rfl

variable {kit : Kitchen} (hk : b.csc.kitchen q.kitchen = some kit) (hw : q.wait = true)
include hk hw

theorem decidePlacement_waiting (hl : kit.waitlist.length < 16) :
    before.decidePlacement b q = b.placeWaiting q := by
  unfold Book.decidePlacement
  rw [if_neg (fits_iff.not.mpr unfit), if_pos (by simp [hw, hk, Config.maxWaitlist, hl])]

theorem decidePlacement_listFull (hl : 16 ≤ kit.waitlist.length) :
    before.decidePlacement b q = (before, Answer.because .full .waitlist, none) := by
  unfold Book.decidePlacement
  rw [if_neg (fits_iff.not.mpr unfit), if_neg (by simp [hw, hk, Config.maxWaitlist, Nat.not_lt.mpr hl]), hw]
  rfl

end

theorem decidePlacement_catering {before b : Book} (h : CateringOnly before b) (q : Consultation) :
    CateringOnly before (before.decidePlacement b q).1 := by
  unfold Book.decidePlacement
  dsimp only
  split
  · exact h.trans (placeConfirmed_places b q).toCateringOnly
  · split
    · exact h.trans (placeWaiting_places b q).toCateringOnly
    · exact .refl before

theorem consult_catering (b : Book) (q : Consultation) : CateringOnly b (b.consult q).1 := by
  unfold Book.consult
  dsimp only
  split
  · exact .refl b
  · split
    · exact decidePlacement_catering (withCsc_catering _ _) q
    · exact decidePlacement_catering (.refl b) q

/-- R130, R131: whether covers fit an entry that is not closed. -/
theorem coversFit_of_entry {c : Csc} {k : Nat} {d : Date} {w n : Nat} {e : CapEntry} (he : c.entry k d w = some e)
    (hc : e.closed = false) (hn : n + e.committed ≤ e.capacity) : CoversFit c k d w n := by
  refine ⟨?_, ?_⟩
  · rintro ⟨x, hx, closed⟩
    cases hx.symm.trans he
    exact nomatch hc.symm.trans closed
  · rw [remaining_entry he]
    omega

theorem coversFit_entry {c : Csc} {k : Nat} {d : Date} {w n : Nat} {e : CapEntry} (he : c.entry k d w = some e)
    (hc : e.closed = false) (hn : 1 ≤ n) : CoversFit c k d w n ↔ n + e.committed ≤ e.capacity := by
  refine ⟨fun fits => ?_, coversFit_of_entry he hc⟩
  have left := fits.2
  rw [remaining_entry he] at left
  omega

/-- R129: the cut-off minute at a kitchen that the CSC holds. -/
theorem cutOffMinute_kitchen {c : Csc} {k : Nat} {kit : Kitchen} (hk : c.kitchen k = some kit) (slot : Nat) :
    c.cutOffMinute k slot = 360 + 15 * slot - kit.cutOff := by
  unfold Csc.cutOffMinute
  rw [hk]
  rfl

/-! ## The claim as a step -/

/-- R134: the BKE has taken the placement claims but for `rest`. -/
def Book.placementTaken (b : Book) (rest : List PlacementClaim) : Book := b.withMail { b.mail with cscToBke := rest }

/-- The state after the placement claim `p`. -/
def State.afterPlacement (s : State) (p : PlacementClaim) (rest : List PlacementClaim) : State :=
  { s with book := (s.book.placementTaken rest).answer p.ctx fun b => b.placeOrder p.fields }

theorem runs_orderPlacementClaim {s : State} {p : PlacementClaim} {rest : List PlacementClaim}
    (h : s.book.mail.cscToBke = p :: rest) : Runs .orderPlacementClaim s (s.afterPlacement p rest) := by
  show Host.Outcome.next { s with book := s.book.orderPlacementClaim } = _
  rw [Book.orderPlacementClaim, h]
  rfl

section

variable {s : State} {p : PlacementClaim} {rest : List PlacementClaim} {b : Book} {a : Answer}
  (h : (s.book.placementTaken rest).placeOrder p.fields = (b, a))
include h

theorem afterPlacement_book : (s.afterPlacement p rest).book = b.reply p.ctx a := by
  simp only [State.afterPlacement, Book.answer, h]

theorem afterPlacement_csc : (s.afterPlacement p rest).book.csc = b.csc := by
  rw [afterPlacement_book h, Book.reply_csc]

theorem afterPlacement_bke : (s.afterPlacement p rest).book.bke = b.bke := by
  rw [afterPlacement_book h, Book.reply_bke]

theorem afterPlacement_mail : (s.afterPlacement p rest).book.mail = b.mail := by
  rw [afterPlacement_book h, Book.reply_mail]

theorem afterPlacement_out : ∃ more, (s.afterPlacement p rest).book.hmp.out = b.hmp.out ++ .reply p.ctx a :: more := by
  obtain ⟨more, hmore, -⟩ := (b.reply_after p.ctx a).out
  refine ⟨more, ?_⟩
  rw [afterPlacement_book h, hmore]
  simp [Hmp.postReply]

end

/-- R134: the claim is taken, whatever is made of it. -/
theorem afterPlacement_taken {s : State} {p : PlacementClaim} {rest : List PlacementClaim} {n k : Nat} {r : Record}
    {rm : Room} (h : Placeable (s.book.placementTaken rest) p.fields n k r rm) :
    (s.afterPlacement p rest).book.mail.cscToBke = rest := by
  have only := consult_catering (s.book.placementTaken rest) (consultationOf p.fields r k)
  rcases hc : (s.book.placementTaken rest).consult (consultationOf p.fields r k) with ⟨b, a, placed⟩
  rw [hc] at only
  cases placed with
  | none =>
    rw [afterPlacement_mail (h.refused hc)]
    exact congrArg Mail.cscToBke only.mail
  | some id =>
    have sound : StoreSound b := (congrArg Bss.errors only.bss).trans h.sound
    rw [afterPlacement_mail (h.placed hc), Book.putRecord_sound sound]
    exact congrArg Mail.cscToBke only.mail

/-- R134, R135: a refused placement is answered and changes nothing. -/
theorem afterPlacement_refused {s : State} {p : PlacementClaim} {rest : List PlacementClaim} {a : Answer}
    (h : (s.book.placementTaken rest).placeOrder p.fields = (s.book.placementTaken rest, a)) :
    (s.afterPlacement p rest).book.csc = s.book.csc ∧ (s.afterPlacement p rest).book.bke = s.book.bke ∧
      Replied s (s.afterPlacement p rest) p.ctx a := by
  have csc := afterPlacement_csc h
  have bke := afterPlacement_bke h
  exact ⟨csc, bke, Book.reply_replied s _ _ _ _ (afterPlacement_book h) rfl⟩

/-- R134, R135: the order `o` has been placed for the record `r` of slot `n`, in the place of `old`, and answered. -/
structure OrderPlaced (s t : State) (c : Ctx) (n : Nat) (r : Record) (old : Option Order) (o : Order) (d : Detail)
    (left : Nat) : Prop where
  found : t.book.csc.orders.find o.id = some o
  replaced : ∀ x, old = some x → x.id ≠ o.id → t.book.csc.orders.find x.id = none
  others : ∀ j, j ≠ o.id → (∀ x, old = some x → j ≠ x.id) → t.book.csc.orders.find j = s.book.csc.orders.find j
  last : t.book.csc.lastOrder = o.id
  record : t.book.slot n = some (.sound { r with order := some o.id })
  out :
    ∃ more, t.book.hmp.out =
      (s.book.hmp.post
          (.orderState o.id o.booking o.kitchen o.date o.slot (o.slot / 2) o.covers none o.state .host .none)).out ++
        .reply c (placedAnswer o d left) :: more

section

variable {s : State} {p : PlacementClaim} {rest : List PlacementClaim} {n k : Nat} {r : Record} {rm : Room}
  {old : Option Order} {st : OrderState} {d : Detail} {left : Nat} {b' : Book} {o : Order}

/-- R134, R135: a consultation that places an order, as the claim leaves it. -/
theorem afterPlacement_placed (h : Placeable (s.book.placementTaken rest) p.fields n k r rm)
    (places : Places ((s.book.placementTaken rest).replacing old) b' (consultationOf p.fields r k) st)
    (ho : o = ((s.book.placementTaken rest).replacing old).csc.placedOrder (consultationOf p.fields r k) st)
    (hc : (s.book.placementTaken rest).consult (consultationOf p.fields r k) = (b', placedAnswer o d left, some o.id)) :
    (s.afterPlacement p rest).book.csc = b'.csc ∧ OrderPlaced s (s.afterPlacement p rest) p.ctx n r old o d left := by
  have whole := h.placed hc
  have sound : StoreSound b' := (congrArg Bss.errors places.bss).trans h.sound
  have put := putRecord_only sound n { r with order := some o.id }
  have csc := (afterPlacement_csc whole).trans put.csc
  have orders : (s.afterPlacement p rest).book.csc.orders = (s.book.csc.kept old).put o.id o :=
    (congrArg Csc.orders csc).trans (ho ▸ places.orders)
  obtain ⟨more, hmore⟩ := afterPlacement_out whole
  refine ⟨csc, ?_, fun x hx hne => ?_, fun j hj hold => ?_, ?_, ?_, more, ?_⟩
  · rw [orders, Table.find_put_self]
  · rw [orders, Table.find_put_ne _ _ _ _ hne, hx, kept_self]
  · rw [orders, Table.find_put_ne _ _ _ _ hj, kept_other hold]
  · rw [csc, places.last, ho]
    rfl
  · rw [show (s.afterPlacement p rest).book.slot n = _ from
      congrArg (fun x : Bke => x.records.find n) (afterPlacement_bke whole)]
    exact putRecord_slot sound n _
  · rw [hmore, put.hmp, places.hmp, ho]
    rfl

end

/-- Settles O39: ORDER by its check; a placement claim by the consultation's checks, then by what fits. -/
theorem orderIsPlacedByTheBookEngine : Obligations.OrderIsPlacedByTheBookEngine := by
  refine ⟨fun s c f rest hq => ?_,
    fun s p rest n k r rm kit e old hm hs hh hid hmeet hst hrm hrk hkit hguard _ hold hfree hsize hfirst hlast hearly
      he hopen => ?_,
    fun s p rest n k r rm hm hs hh hid hmeet hst hrm hrk hfirst hlast => ?_⟩
  · cases hcheck : (s.book.withRequests rest).orderCheck f with
    | some a =>
      refine ⟨_, runs_order_refused hq hcheck, ?_, Book.reply_csc .., fun unset => ?_, fun hset hb hl hf => ?_⟩
      · rw [Book.reply_mail]
        rfl
      · cases hcheck.symm.trans (orderCheck_unset unset f)
        exact Book.reply_replied s _ _ c _ rfl rfl
      · exact nomatch hcheck.symm.trans (orderCheck_passes hset hb hl hf)
    | none =>
      refine ⟨_, runs_order_handed hq hcheck, rfl, rfl, fun unset => ?_, fun _ _ _ _ => ⟨rfl, rfl⟩⟩
      exact nomatch hcheck.symm.trans (orderCheck_unset unset f)
  · have place : Placeable (s.book.placementTaken rest) p.fields n k r rm :=
      ⟨hs, hh, hid, hmeet, hst, hrm, hrk, hfirst, hlast⟩
    have early : ¬CutOffPassed s.book.csc k r.date (p.fields.slot.getD r.start) := by
      rintro (late | ⟨x, hx, shut⟩)
      · exact nomatch hearly.symm.trans late
      · cases he.symm.trans hx
        exact nomatch hopen.symm.trans shut
    have free (o : Order) (ho : old = some o) : o.state.replaceable = true := replaceable_iff.mpr (hfree o ho)
    have decides := consult_decides (b := s.book.placementTaken rest) (q := consultationOf p.fields r k) hold free early
      hsize hguard
    have entry : ((s.book.placementTaken rest).replacing old).csc.entry k r.date (p.fields.slot.getD r.start / 2) =
        some e := he
    have kitchen : ((s.book.placementTaken rest).replacing old).csc.kitchen k = some kit := hkit
    have cut := cutOffMinute_kitchen hkit (p.fields.slot.getD r.start)
    refine ⟨s.afterPlacement p rest, runs_orderPlacementClaim hm, afterPlacement_taken place, fun hn => ?_,
      fun hn h1 hw hl => ?_, fun hn h1 hw hl => ?_, fun hn h1 hw => ?_⟩
    · have fits : CoversFit ((s.book.placementTaken rest).replacing old).csc k r.date (p.fields.slot.getD r.start / 2)
          (covers p.fields.lines) := coversFit_of_entry entry hopen hn
      rw [decidePlacement_confirmed (q := consultationOf p.fields r k) fits] at decides
      obtain ⟨csc, found, replaced, others, last, record, more, out⟩ :=
        afterPlacement_placed place (placeConfirmed_places _ _) rfl
          (decides.trans (placeConfirmed_eq (q := consultationOf p.fields r k) entry))
      refine ⟨⟨_, more, found, rfl, rfl, rfl, rfl, rfl, rfl, rfl, rfl, rfl, cut, rfl, replaced, others, last,
        record, out⟩, ?_⟩
      rw [csc]
      exact placeConfirmed_entry entry
    · have unfit := (coversFit_entry entry hopen h1).not.mpr hn
      rw [decidePlacement_waiting (q := consultationOf p.fields r k) unfit kitchen hw hl] at decides
      obtain ⟨csc, found, replaced, others, last, record, more, out⟩ :=
        afterPlacement_placed place (placeWaiting_places _ _) rfl
          (decides.trans (placeWaiting_eq (q := consultationOf p.fields r k) entry))
      refine ⟨⟨_, more, found, rfl, rfl, rfl, rfl, rfl, rfl, rfl, rfl, rfl, cut, rfl, replaced, others, last,
        record, out⟩, ?_⟩
      rw [csc]
      exact ⟨placeWaiting_kitchen kitchen, entry⟩
    · have unfit := (coversFit_entry entry hopen h1).not.mpr hn
      exact afterPlacement_refused (place.refused (decides.trans (decidePlacement_listFull unfit kitchen hw hl)))
    · have unfit := (coversFit_entry entry hopen h1).not.mpr hn
      exact afterPlacement_refused (place.refused (decides.trans (decidePlacement_full unfit hw)))
  · have place : Placeable (s.book.placementTaken rest) p.fields n k r rm :=
      ⟨hs, hh, hid, hmeet, hst, hrm, hrk, hfirst, hlast⟩
    refine ⟨s.afterPlacement p rest, runs_orderPlacementClaim hm, afterPlacement_taken place, fun o ho hc hd => ?_,
      fun hfree late => ?_⟩
    · have stands := Bool.eq_false_iff.mpr (replaceable_iff.not.mpr (not_or.mpr ⟨hc, hd⟩))
      exact afterPlacement_refused (place.refused (consult_ordered (q := consultationOf p.fields r k) ho rfl stands))
    · have free (o : Order) (ho : s.book.csc.orderOf r.id = some o) : o.state.replaceable = true :=
        replaceable_iff.mpr (hfree o ho)
      exact afterPlacement_refused (place.refused (consult_late (q := consultationOf p.fields r k) rfl free late))

end Sys2Proof.Machine

/-! SUPPORT. ORDER_CHANGE and ORDER_CANCEL: the branches of their meanings, and what they do to the capacity entries (R130,
R136, R137). -/

namespace Sys2Proof.Machine

/-! ## Covers moved (R130) -/

theorem coversMoved_both {s t : State} {k : Nat} {d : Date} {w back v taken : Nat}
    (h : t.book.csc.capacity = ((s.book.csc.giveBack k d w back).commit k d v taken).capacity) :
    CoversMoved s t k d w back v taken := by
  intro x
  rw [h, commit_find, giveBack_find, Option.map_map]
  rfl

theorem coversMoved_commit {s t : State} {k : Nat} {d : Date} {v taken : Nat} (w : Nat)
    (h : t.book.csc.capacity = (s.book.csc.commit k d v taken).capacity) : CoversMoved s t k d w 0 v taken := by
  intro x
  rw [h, commit_find]
  simp

theorem coversMoved_giveBack {s t : State} {k : Nat} {d : Date} {w back : Nat} (v : Nat)
    (h : t.book.csc.capacity = (s.book.csc.giveBack k d w back).capacity) : CoversMoved s t k d w back v 0 := by
  intro x
  rw [h, giveBack_find]
  simp

/-! ## ORDER_CHANGE (R136) -/

section

variable {c : Csc} {o : Order} {slot : Option Nat}

/-- R136: an order that an ORDER_CHANGE can change. -/
theorem changeable_state (live : o.state = .confirmed ∨ o.state = .waitlisted) :
    o.state.replaceable = false ∧ (!(o.state == .confirmed || o.state == .waitlisted)) = false := by
  rcases live with h | h <;> rw [h] <;> exact ⟨rfl, rfl⟩

theorem changeCheck_passes (live : o.state = .confirmed ∨ o.state = .waitlisted) (hg : c.guard.contains o.kitchen = false)
    (hs : ∀ x, slot = some x →
      o.copy.start ≤ x ∧ x < o.copy.start + o.copy.count ∧ ¬CutOffPassed c o.kitchen o.date x) :
    c.changeCheck o slot = none := by
  have inside : (slot.any fun x => decide (x < o.copy.start) || decide (o.copy.start + o.copy.count ≤ x)) = false := by
    cases slot with
    | none => rfl
    | some x =>
      obtain ⟨first, last, -⟩ := hs x rfl
      simp [Nat.not_lt.mpr first, Nat.not_le.mpr last]
  have timely : slot.any (c.cutOffPassed o.kitchen o.date) = false := by
    cases slot with
    | none => rfl
    | some x => exact Bool.eq_false_iff.mpr (cutOffPassed_iff.not.mpr (hs x rfl).2.2)
  obtain ⟨live', unlocked⟩ := changeable_state live
  simp only [Csc.changeCheck, live', unlocked, inside, timely, Csc.guarded, hg, firstFail]

theorem changeCheck_late {x : Nat} (live : o.state = .confirmed ∨ o.state = .waitlisted) (first : o.copy.start ≤ x)
    (last : x < o.copy.start + o.copy.count) (late : CutOffPassed c o.kitchen o.date x) :
    c.changeCheck o (some x) = some (Answer.of .tooLate) := by
  have inside : ((some x).any fun x => decide (x < o.copy.start) || decide (o.copy.start + o.copy.count ≤ x)) = false := by
    simp [Nat.not_lt.mpr first, Nat.not_le.mpr last]
  obtain ⟨live', unlocked⟩ := changeable_state live
  simp only [Csc.changeCheck, live', unlocked, inside, Option.any_some, cutOffPassed_iff.mpr late, firstFail]

end

/-- R136: an ORDER_CHANGE that passes the checks of its fields, with the order it names. -/
structure Changeable (b : Book) (id : Nat) (lines : Option (List OrderLine)) (slot : Option Nat) (o : Order) : Prop where
  horizon : b.csc.horizon ≠ none
  low : 1 ≤ id
  high : id ≤ 1023
  some : lines ≠ none ∨ slot ≠ none
  lines : lines.any linesBad = false
  found : b.csc.orders.find id = .some o

section

variable {b : Book} {id : Nat} {lines : Option (List OrderLine)} {slot : Option Nat} {o : Order}
  (h : Changeable b id lines slot o)
include h

/-- R136: what is done with the order goes by the checks against it. -/
theorem Changeable.decided :
    b.changeOrder id lines slot =
      ((b.csc.changeCheck o slot).map fun a => (b, a)).getD
        (if o.state = .confirmed then b.changeConfirmed o (b.csc.changedOrder o lines slot)
          else b.changeWaiting (b.csc.changedOrder o lines slot)) := by
  obtain ⟨hh, low, high, hs, hl, ho⟩ := h
  have opened : b.csc.horizon.isNone = false := by simpa [Option.isSome_iff_ne_none] using hh
  have range : (id == 0 || decide (1023 < id)) = false := by
    simp only [Bool.or_eq_false_iff, beq_eq_false_iff_ne, decide_eq_false_iff_not]
    omega
  have given : (lines.isNone && slot.isNone) = false := by
    simpa [imp_iff_not_or, Option.isSome_iff_ne_none] using hs
  simp only [Book.changeOrder, opened, range, given, hl, Bool.or_self, firstFail, ho]
  cases b.csc.changeCheck o slot <;> rfl

theorem Changeable.checked {a : Answer} (hc : b.csc.changeCheck o slot = .some a) : b.changeOrder id lines slot = (b, a) := by
  rw [h.decided, hc]
  rfl

theorem Changeable.passed (hc : b.csc.changeCheck o slot = none) :
    b.changeOrder id lines slot =
      if o.state = .confirmed then b.changeConfirmed o (b.csc.changedOrder o lines slot)
      else b.changeWaiting (b.csc.changedOrder o lines slot) := by
  rw [h.decided, hc]
  rfl

end

/-- R136: the book once a CONFIRMED order has taken its new fields, before the scan. -/
def Book.confirmedChanged (b : Book) (o n : Order) : Book :=
  (b.withCsc ((b.csc.giveBack o.kitchen o.date o.window o.covers).commit n.kitchen n.date n.window n.covers)).putOrder n

/-- R136: the book once a WAITLISTED order has been confirmed with its new fields. -/
def Book.waitingChanged (b : Book) (n : Order) : Book :=
  (((b.withCsc (b.csc.commit n.kitchen n.date n.window n.covers)).putOrder { n with state := .confirmed }).leaveWaitlist
    n.kitchen n.id).postOrder { n with state := .confirmed } (some .waitlisted) .host

theorem confirmedChanged_catering (b : Book) (o n : Order) : CateringOnly b (b.confirmedChanged o n) :=
  (withCsc_catering _ _).trans (putOrder_catering _ _)

theorem waitingChanged_catering (b : Book) (n : Order) : CateringOnly b (b.waitingChanged n) :=
  (((withCsc_catering _ _).trans (putOrder_catering _ _)).trans (modifyKitchen_lists _ _ _).toCateringOnly).trans
    (postOrder_catering _ _ _ _ _)

section

variable {b : Book} {o n : Order}

/-- R136, R138: a CONFIRMED order whose new covers fit; the waitlist is scanned where covers came free. -/
theorem changeConfirmed_fits
    (fits : CoversFit (b.csc.giveBack o.kitchen o.date o.window o.covers) n.kitchen n.date n.window n.covers) :
    ∃ b', Scanned (b.confirmedChanged o n) b' ∧ b.changeConfirmed o n = (b', b.changedReply n .confirmed) ∧
      (NoWaiters b o.kitchen ∨ (o.covers ≤ n.covers ∧ n.window = o.window) → b' = b.confirmedChanged o n) := by
  refine ⟨if n.covers < o.covers ∨ n.window ≠ o.window then (b.confirmedChanged o n).scan o.kitchen
    else b.confirmedChanged o n, ?_, if_pos (fits_iff.mpr fits), fun h => ?_⟩
  · split
    · exact scan_scanned _ _
    · exact .refl _
  · rcases h with idle | ⟨more, same⟩
    · rw [scan_idle (b := b.confirmedChanged o n) idle, ite_self]
    · rw [if_neg (not_or.mpr ⟨Nat.not_lt.mpr more, fun h => h same⟩)]

theorem changeConfirmed_unfit
    (unfit : ¬CoversFit (b.csc.giveBack o.kitchen o.date o.window o.covers) n.kitchen n.date n.window n.covers) :
    b.changeConfirmed o n = (b, Answer.because .full .capacity) := if_neg (fits_iff.not.mpr unfit)

theorem changeWaiting_fits (fits : CoversFit b.csc n.kitchen n.date n.window n.covers) :
    b.changeWaiting n = (b.waitingChanged n, b.changedReply { n with state := .confirmed } .confirmed) :=
  if_pos (fits_iff.mpr fits)

theorem changeWaiting_unfit (unfit : ¬CoversFit b.csc n.kitchen n.date n.window n.covers) :
    b.changeWaiting n = (b.putOrder n, b.changedReply n .waiting) := if_neg (fits_iff.not.mpr unfit)

end

theorem changeConfirmed_catering (b : Book) (o n : Order) : CateringOnly b (b.changeConfirmed o n).1 := by
  by_cases fits : CoversFit (b.csc.giveBack o.kitchen o.date o.window o.covers) n.kitchen n.date n.window n.covers
  · obtain ⟨b', scanned, he, -⟩ := changeConfirmed_fits fits
    rw [he]
    exact (confirmedChanged_catering _ _ _).trans scanned.toCateringOnly
  · rw [changeConfirmed_unfit fits]
    exact .refl b

theorem changeWaiting_catering (b : Book) (n : Order) : CateringOnly b (b.changeWaiting n).1 := by
  by_cases fits : CoversFit b.csc n.kitchen n.date n.window n.covers
  · rw [changeWaiting_fits fits]
    exact waitingChanged_catering _ _
  · rw [changeWaiting_unfit fits]
    exact putOrder_catering _ _

theorem changeOrder_catering (b : Book) (id : Nat) (lines : Option (List OrderLine)) (slot : Option Nat) :
    CateringOnly b (b.changeOrder id lines slot).1 := by
  unfold Book.changeOrder
  dsimp only
  split
  · exact .refl b
  · split
    · exact .refl b
    · split
      · exact .refl b
      · split
        · exact changeConfirmed_catering _ _ _
        · exact changeWaiting_catering _ _

/-! ## ORDER_CANCEL (R137) -/

section

variable {b : Book} {id : Nat} {o : Order} (hh : b.csc.horizon ≠ none) (low : 1 ≤ id) (high : id ≤ 1023)
  (ho : b.csc.orders.find id = some o)
include hh low high ho

theorem cancelOrder_waitlisted (hs : o.state = .waitlisted) :
    b.cancelOrder id = (b.dropWaiting o .cancelled .host, Answer.ok .none) := by
  simp only [Book.cancelOrder, orderById_found hh low high ho, hs]

theorem cancelOrder_confirmed (hs : o.state = .confirmed) :
    b.cancelOrder id = (b.cancelConfirmed o .host, Answer.ok .none) := by
  simp only [Book.cancelOrder, orderById_found hh low high ho, hs]

theorem cancelOrder_terminal (hs : o.state = .cancelled ∨ o.state = .declined) :
    b.cancelOrder id = (b, Answer.because .refused .terminal) := by
  rcases hs with hs | hs <;> simp only [Book.cancelOrder, orderById_found hh low high ho, hs]

theorem cancelOrder_late
    (hs : o.state = .locked ∨ o.state = .ticketed ∨ o.state = .dispatched ∨ o.state = .delivered ∨ o.state = .cleared ∨
      o.state = .writtenOff) : b.cancelOrder id = (b, Answer.of .tooLate) := by
  rcases hs with hs | hs | hs | hs | hs | hs <;> simp only [Book.cancelOrder, orderById_found hh low high ho, hs]

end

theorem cancelOrder_catering (b : Book) (id : Nat) : CateringOnly b (b.cancelOrder id).1 := by
  unfold Book.cancelOrder
  split
  · exact .refl b
  · split
    · exact dropWaiting_catering _ _ _ _
    · exact cancelConfirmed_catering _ _ _
    · exact .refl b
    · exact .refl b
    · exact .refl b

/-- R137, R138: a cancelled order's covers go to the one order that waits, where they fit. -/
theorem cancelConfirmed_single {b : Book} {o p : Order} {kit : Kitchen} (cause : OrderCause)
    (hg : b.csc.guard.contains o.kitchen = false) (hk : b.csc.kitchen o.kitchen = some kit) (hl : kit.waitlist = [p.id])
    (hne : p.id ≠ o.id) (hp : b.csc.orders.find p.id = some p) (hw : p.state = .waitlisted) :
    (CoversFit (b.csc.giveBack o.kitchen o.date o.window o.covers) o.kitchen p.date p.window p.covers →
      b.cancelConfirmed o cause = (b.confirmedCancelled o cause).scanConfirms o.kitchen p.id p) ∧
    (¬CoversFit (b.csc.giveBack o.kitchen o.date o.window o.covers) o.kitchen p.date p.window p.covers →
      b.cancelConfirmed o cause = b.confirmedCancelled o cause) := by
  have found : (b.confirmedCancelled o cause).csc.orders.find p.id = some p :=
    (putOrder_other (b.withCsc _) (o := { o with state := .cancelled }) hne).trans hp
  rw [cancelConfirmed_eq, scan_single (b := b.confirmedCancelled o cause) hg hk hl]
  exact ⟨fun fits => scanOrder_confirms found hw fits, fun unfit => scanOrder_passes found fun _ => unfit⟩

/-- R138: the one order that waited has left the list. -/
theorem scanConfirms_kitchen {b : Book} {k : Nat} {o : Order} {kit : Kitchen} (hk : b.csc.kitchen k = some kit)
    (hl : kit.waitlist = [o.id]) : (b.scanConfirms k o.id o).csc.kitchen k = some { kit with waitlist := [] } := by
  refine (modifyKitchen_kitchen
    (b := (b.withCsc (b.csc.commit k o.date o.window o.covers)).putOrder { o with state := .confirmed }) hk _).trans ?_
  simp [hl]

/-! ## The answers -/

section

variable {s : State} {c : Ctx} {rest : List Handed} {op : Book → Book × Answer} {b : Book} {a : Answer}
  (ho : op (s.book.withRequests rest) = (b, a))
include ho

theorem afterAnswer_csc : (s.afterAnswer rest c op).book.csc = b.csc := by
  obtain ⟨-, -, -, csc⟩ := s.afterAnswer_blocks rest c op
  rw [csc, ho]

/-- R136, R137: an answer behind the notices of the CSC. -/
theorem CateringOnly.repliedAfter (only : CateringOnly (s.book.withRequests rest) b) :
    RepliedAfter s (s.afterAnswer rest c op) c a :=
  s.afterAnswer_repliedAfter c (by rw [ho]) (by rw [ho]; exact only.out)

theorem afterAnswer_replied (hh : b.hmp = s.book.hmp) : Replied s (s.afterAnswer rest c op) c a :=
  (s.afterAnswer_answers c ho hh).2.2

end

/-- A request that is refused changes nothing of the CSC. -/
theorem afterAnswer_refused {s : State} {c : Ctx} {rest : List Handed} {op : Book → Book × Answer} {a : Answer}
    (ho : op (s.book.withRequests rest) = (s.book.withRequests rest, a)) :
    (s.afterAnswer rest c op).book.csc = s.book.csc ∧ Replied s (s.afterAnswer rest c op) c a := by
  have csc := afterAnswer_csc (c := c) ho
  exact ⟨csc, afterAnswer_replied ho rfl⟩

/-- The request is taken, and the BKE stays, whatever the CSC does. -/
theorem CateringOnly.taken {s : State} {c : Ctx} {rest : List Handed} {op : Book → Book × Answer}
    (only : CateringOnly (s.book.withRequests rest) (op (s.book.withRequests rest)).1) :
    (s.afterAnswer rest c op).book.mail.requests = rest ∧ (s.afterAnswer rest c op).book.bke = s.book.bke := by
  obtain ⟨bke, mail, -, -⟩ := s.afterAnswer_blocks rest c op
  rw [bke, mail]
  exact ⟨congrArg Mail.requests only.mail, only.bke⟩

end Sys2Proof.Machine

/-! PROOFS. ORDER_CHANGE and ORDER_CANCEL as steps (R136, R137). -/

namespace Sys2Proof.Machine

/-- The state after an ORDER_CHANGE. -/
def State.afterOrderChange (s : State) (rest : List Handed) (c : Ctx) (id : Nat) (lines : Option (List OrderLine))
    (slot : Option Nat) : State :=
  s.afterAnswer rest c fun b => b.changeOrder id lines slot

section

variable {s : State} {c : Ctx} {id : Nat} {lines : Option (List OrderLine)} {slot : Option Nat} {o n : Order}
  {rest : List Handed} (h : Changeable (s.book.withRequests rest) id lines slot o)
  (hid : o.id = id) (hn : n = s.book.csc.changedOrder o lines slot)
  (hc : (s.book.withRequests rest).csc.changeCheck o slot = none)
include h hid hn hc

/-- R136: the change of a CONFIRMED order. -/
theorem afterOrderChange_confirmed (hk : OrdersKeyed s.book) (hs : o.state = .confirmed)
    (fits : CoversFit (s.book.csc.giveBack o.kitchen o.date o.window o.covers) o.kitchen o.date n.window n.covers) :
    (s.afterOrderChange rest c id lines slot).book.csc.orders.find id = some n ∧
      RepliedAfter s (s.afterOrderChange rest c id lines slot) c (s.book.changedReply n .confirmed) ∧
      (NoWaiters s.book o.kitchen ∨ (o.covers ≤ n.covers ∧ n.window = o.window) →
        CoversMoved s (s.afterOrderChange rest c id lines slot) o.kitchen o.date o.window o.covers n.window n.covers) := by
  subst hid hn
  obtain ⟨b', scanned, he, idle⟩ := changeConfirmed_fits (b := s.book.withRequests rest) (o := o)
    (n := s.book.csc.changedOrder o lines slot) fits
  have op := (h.passed hc).trans ((if_pos hs).trans he)
  have keyed : OrdersKeyed ((s.book.withRequests rest).confirmedChanged o (s.book.csc.changedOrder o lines slot)) :=
    putOrder_keyed (b := (s.book.withRequests rest).withCsc _) hk _
  have csc : (s.afterOrderChange rest c o.id lines slot).book.csc = b'.csc := afterAnswer_csc op
  refine ⟨?_, ((confirmedChanged_catering _ _ _).trans scanned.toCateringOnly).repliedAfter op, fun hq => ?_⟩
  · rw [csc]
    exact scanned.orders keyed _ _ (putOrder_found _ (s.book.csc.changedOrder o lines slot))
      (by rw [show (s.book.csc.changedOrder o lines slot).state = o.state from rfl, hs]; nofun)
  · refine coversMoved_both ?_
    rw [csc, idle hq]
    rfl

/-- R136: the change of a WAITLISTED order. -/
theorem afterOrderChange_waitlisted (hs : o.state = .waitlisted) :
    (CoversFit s.book.csc o.kitchen o.date n.window n.covers →
      (s.afterOrderChange rest c id lines slot).book.csc.orders.find id = some { n with state := .confirmed } ∧
        RepliedAfter s (s.afterOrderChange rest c id lines slot) c
          (s.book.changedReply { n with state := .confirmed } .confirmed) ∧
        CoversMoved s (s.afterOrderChange rest c id lines slot) o.kitchen o.date o.window 0 n.window n.covers) ∧
    (¬CoversFit s.book.csc o.kitchen o.date n.window n.covers →
      (s.afterOrderChange rest c id lines slot).book.csc.orders.find id = some n ∧
        (s.afterOrderChange rest c id lines slot).book.csc.capacity = s.book.csc.capacity ∧
        Replied s (s.afterOrderChange rest c id lines slot) c (s.book.changedReply n .waiting)) := by
  subst hid hn
  have passed := (h.passed hc).trans (if_neg (by rw [hs]; nofun))
  refine ⟨fun fits => ?_, fun unfit => ?_⟩
  · have op := passed.trans (changeWaiting_fits (n := s.book.csc.changedOrder o lines slot) fits)
    have csc : (s.afterOrderChange rest c o.id lines slot).book.csc = _ := afterAnswer_csc op
    refine ⟨?_, (waitingChanged_catering _ _).repliedAfter op, coversMoved_commit _ ?_⟩
    · rw [csc]
      exact putOrder_found ((s.book.withRequests rest).withCsc _)
        { s.book.csc.changedOrder o lines slot with state := .confirmed }
    · rw [csc]
      rfl
  · have op := passed.trans (changeWaiting_unfit (n := s.book.csc.changedOrder o lines slot) unfit)
    have csc : (s.afterOrderChange rest c o.id lines slot).book.csc = _ := afterAnswer_csc op
    refine ⟨?_, ?_, afterAnswer_replied op rfl⟩
    · rw [csc]
      exact putOrder_found _ (s.book.csc.changedOrder o lines slot)
    · rw [csc]
      rfl

end

/-- R136: an ORDER_CHANGE of an order of any state. -/
theorem orderChange_spec {s : State} {c : Ctx} {id : Nat} {lines : Option (List OrderLine)} {slot : Option Nat}
    {rest : List Handed} (hq : Asks s c (.orderChange id lines slot) rest) :
    Runs .orderChange s (s.afterOrderChange rest c id lines slot) ∧
      (s.afterOrderChange rest c id lines slot).book.mail.requests = rest :=
  ⟨hq.runs_afterAnswer rfl rfl,
    (CateringOnly.taken (op := fun b => b.changeOrder id lines slot) (changeOrder_catering _ _ _ _)).1⟩

/-- The state after an ORDER_CANCEL. -/
def State.afterOrderCancel (s : State) (rest : List Handed) (c : Ctx) (id : Nat) : State :=
  s.afterAnswer rest c fun b => b.cancelOrder id

section

variable {s : State} {c : Ctx} {id : Nat} {o : Order} {rest : List Handed} (hh : s.book.csc.horizon ≠ none)
  (low : 1 ≤ id) (high : id ≤ 1023) (ho : s.book.csc.orders.find id = some o) (hid : o.id = id)
include hh low high ho hid

/-- R137: the cancel of a WAITLISTED order. -/
theorem afterOrderCancel_waitlisted (hs : o.state = .waitlisted) :
    (s.afterOrderCancel rest c id).book.csc.orders.find id = some { o with state := .cancelled } ∧
      RepliedAfter s (s.afterOrderCancel rest c id) c (Answer.ok .none) ∧
      (s.afterOrderCancel rest c id).book.csc.capacity = s.book.csc.capacity ∧
      ∀ kit, s.book.csc.kitchen o.kitchen = some kit →
        (s.afterOrderCancel rest c id).book.csc.kitchen o.kitchen =
          some { kit with waitlist := kit.waitlist.filter fun i => i != id } := by
  subst hid
  have op := cancelOrder_waitlisted (b := s.book.withRequests rest) hh low high ho hs
  have csc : (s.afterOrderCancel rest c o.id).book.csc = _ := afterAnswer_csc op
  refine ⟨?_, (dropWaiting_catering _ _ _ _).repliedAfter op, ?_, fun kit hk => ?_⟩
  · rw [csc]
    exact dropWaiting_found _ _ _ _
  · rw [csc]
    rfl
  · rw [csc]
    exact dropWaiting_kitchen (b := s.book.withRequests rest) _ _ hk

/-- R137, R138: the cancel of a CONFIRMED order. -/
theorem afterOrderCancel_confirmed (hkeyed : OrdersKeyed s.book) (hs : o.state = .confirmed) :
    (s.afterOrderCancel rest c id).book.csc = ((s.book.withRequests rest).cancelConfirmed o .host).csc ∧
      (s.afterOrderCancel rest c id).book.csc.orders.find id = some { o with state := .cancelled } ∧
      RepliedAfter s (s.afterOrderCancel rest c id) c (Answer.ok .none) := by
  subst hid
  have op := cancelOrder_confirmed (b := s.book.withRequests rest) hh low high ho hs
  have csc : (s.afterOrderCancel rest c o.id).book.csc = _ := afterAnswer_csc op
  refine ⟨csc, ?_, (cancelConfirmed_catering _ _ _).repliedAfter op⟩
  rw [csc]
  exact cancelConfirmed_found (b := s.book.withRequests rest) hkeyed o .host

end

section

variable {s t : State} {o : Order} {rest : List Handed}
  (csc : t.book.csc = ((s.book.withRequests rest).cancelConfirmed o .host).csc)
include csc

/-- R130, R137: without orders that wait the covers are returned, and no more. -/
theorem cancelled_idle (idle : NoWaiters s.book o.kitchen) :
    CoversMoved s t o.kitchen o.date o.window o.covers o.window 0 := by
  refine coversMoved_giveBack _ ?_
  rw [csc, cancelConfirmed_eq, scan_idle (b := (s.book.withRequests rest).confirmedCancelled o .host) idle]
  rfl

variable {kit : Kitchen} {p : Order} (hg : s.book.csc.guard.contains o.kitchen = false)
  (hk : s.book.csc.kitchen o.kitchen = some kit) (hl : kit.waitlist = [p.id]) (hne : p.id ≠ o.id)
  (hp : s.book.csc.orders.find p.id = some p) (hw : p.state = .waitlisted)
include hg hk hl hne hp hw

/-- R130, R138: the one order that waits is confirmed where its covers fit. -/
theorem cancelled_single_fits (hd : p.date = o.date)
    (fits : CoversFit (s.book.csc.giveBack o.kitchen o.date o.window o.covers) o.kitchen p.date p.window p.covers) :
    t.book.csc.orders.find p.id = some { p with state := .confirmed } ∧
      t.book.csc.kitchen o.kitchen = some { kit with waitlist := [] } ∧
      CoversMoved s t o.kitchen o.date o.window o.covers p.window p.covers := by
  obtain ⟨confirms, -⟩ := cancelConfirmed_single (b := s.book.withRequests rest) .host hg hk hl hne hp hw
  have capacity : t.book.csc.capacity =
      ((s.book.csc.giveBack o.kitchen o.date o.window o.covers).commit o.kitchen p.date p.window p.covers).capacity := by
    rw [csc, confirms fits]
    rfl
  rw [hd] at capacity
  refine ⟨?_, ?_, coversMoved_both capacity⟩ <;> rw [csc, confirms fits]
  · exact putOrder_found (((s.book.withRequests rest).confirmedCancelled o .host).withCsc _) { p with state := .confirmed }
  · exact scanConfirms_kitchen (b := (s.book.withRequests rest).confirmedCancelled o .host) hk hl

theorem cancelled_single_unfit
    (unfit : ¬CoversFit (s.book.csc.giveBack o.kitchen o.date o.window o.covers) o.kitchen p.date p.window p.covers) :
    t.book.csc.orders.find p.id = some p ∧ t.book.csc.kitchen o.kitchen = some kit ∧
      CoversMoved s t o.kitchen o.date o.window o.covers o.window 0 := by
  obtain ⟨-, passes⟩ := cancelConfirmed_single (b := s.book.withRequests rest) .host hg hk hl hne hp hw
  rw [csc, passes unfit]
  refine ⟨(putOrder_other ((s.book.withRequests rest).withCsc _) (o := { o with state := .cancelled }) hne).trans hp, hk,
    coversMoved_giveBack _ ?_⟩
  rw [csc, passes unfit]
  rfl

end

end Sys2Proof.Machine

/-! SUPPORT. MOVE of a meeting that has an order: its fit check (R147), the order's move, and the claim that goes on from there. -/

namespace Sys2Proof.Machine

/-! ## The fit check (R147) -/

theorem movedSlot_eq (o : Order) (old start count : Nat) :
    movedSlot o old start count = min (start + (o.slot - old)) (start + count - 1) := by
  unfold movedSlot
  dsimp only
  split <;> omega

section

variable {c : Csc} {o : Order}

theorem fitRefusal_terminal (hs : o.state = .cancelled ∨ o.state = .declined) (k : Option Nat) (d : Date) (slot : Nat) :
    c.fitRefusal o k d slot = none := by
  rcases hs with hs | hs <;> simp only [Csc.fitRefusal, hs]

theorem fitRefusal_late
    (hs : o.state = .locked ∨ o.state = .ticketed ∨ o.state = .dispatched ∨ o.state = .delivered ∨ o.state = .cleared ∨
      o.state = .writtenOff) (k : Option Nat) (d : Date) (slot : Nat) :
    c.fitRefusal o k d slot = some (Answer.of .tooLate) := by
  rcases hs with hs | hs | hs | hs | hs | hs <;> simp only [Csc.fitRefusal, hs]

/-- R147: the covers that the order itself holds in the window it moves to. -/
def Order.ownCovers (o : Order) (k : Nat) (d : Date) (w : Nat) : Nat :=
  if k = o.kitchen ∧ d = o.date ∧ w = o.window ∧ o.state = .confirmed then o.covers else 0

/-- R147: the remaining covers are too few for a CONFIRMED order. -/
def Csc.coversShort (c : Csc) (o : Order) (k : Nat) (d : Date) (slot : Nat) : Bool :=
  o.state == .confirmed && decide (c.remaining k d (slot / 2) + o.ownCovers k d (slot / 2) < o.covers)

/-- R147: the list of the new kitchen has no place for a WAITLISTED order. -/
def Kitchen.listShort (kit : Kitchen) (o : Order) (k : Nat) : Bool :=
  o.state == .waitlisted && k != o.kitchen && decide (16 ≤ kit.waitlist.length)

variable (live : o.state = .confirmed ∨ o.state = .waitlisted)
include live

theorem fitRefusal_noKitchen (d : Date) (slot : Nat) :
    c.fitRefusal o none d slot = some (Answer.because .full .catering) := by
  rcases live with hs | hs <;> simp only [Csc.fitRefusal, hs]

theorem fitRefusal_live {k : Nat} {kit : Kitchen} (hk : c.kitchen k = some kit) (d : Date) (slot : Nat) :
    c.fitRefusal o (some k) d slot =
      firstFail
        [(c.guard.contains k, Answer.because .busy .commit), (c.cutOffPassed k d slot, Answer.of .tooLate),
         (c.coversShort o k d slot, Answer.because .full .catering),
         (kit.listShort o k, Answer.because .full .catering)] := by
  have listed : ((c.kitchen k).map (·.waitlist.length)).getD Config.maxWaitlist = kit.waitlist.length := by
    rw [hk]
    rfl
  unfold Csc.fitRefusal
  rcases live with hs | hs <;> (simp only [hs, listed, Csc.coversShort, Kitchen.listShort, Order.ownCovers]; rfl)

variable {k : Nat} {kit : Kitchen} (hk : c.kitchen k = some kit) {d : Date} {slot : Nat}
include hk

theorem fitRefusal_guarded (hg : c.guard.contains k = true) :
    c.fitRefusal o (some k) d slot = some (Answer.because .busy .commit) := by
  simp only [fitRefusal_live live hk, hg, firstFail]

variable (hg : c.guard.contains k = false)
include hg

theorem fitRefusal_cutOff (late : CutOffPassed c k d slot) :
    c.fitRefusal o (some k) d slot = some (Answer.of .tooLate) := by
  simp only [fitRefusal_live live hk, hg, cutOffPassed_iff.mpr late, firstFail]

variable (early : ¬CutOffPassed c k d slot)
include early

theorem fitRefusal_short (h : c.coversShort o k d slot = true ∨ kit.listShort o k = true) :
    c.fitRefusal o (some k) d slot = some (Answer.because .full .catering) := by
  have timely := Bool.eq_false_iff.mpr (cutOffPassed_iff.not.mpr early)
  simp only [fitRefusal_live live hk, hg, timely, firstFail]
  cases hc : c.coversShort o k d slot with
  | true => rfl
  | false =>
    rw [h.resolve_left (by rw [hc]; nofun)]
    rfl

/-- R147: FIT. -/
theorem fitRefusal_fit (hc : c.coversShort o k d slot = false) (hl : kit.listShort o k = false) :
    c.fitRefusal o (some k) d slot = none := by
  have timely := Bool.eq_false_iff.mpr (cutOffPassed_iff.not.mpr early)
  simp only [fitRefusal_live live hk, hg, timely, hc, hl, firstFail]

end

section

variable {c : Csc} {o : Order} {k : Nat} {d : Date} {slot : Nat} {kit : Kitchen}

theorem coversShort_confirmed (hs : o.state = .confirmed) :
    c.coversShort o k d slot = true ↔
      c.remaining k d (slot / 2) +
        (if k = o.kitchen ∧ d = o.date ∧ slot / 2 = o.slot / 2 then o.covers else 0) < o.covers := by
  simp [Csc.coversShort, Order.ownCovers, hs, Order.window]

theorem coversShort_waitlisted (hs : o.state = .waitlisted) : c.coversShort o k d slot = false := by
  simp only [Csc.coversShort, hs]
  rfl

theorem listShort_waitlisted (hs : o.state = .waitlisted) :
    kit.listShort o k = true ↔ k ≠ o.kitchen ∧ 16 ≤ kit.waitlist.length := by
  simp [Kitchen.listShort, hs]

theorem listShort_confirmed (hs : o.state = .confirmed) : kit.listShort o k = false := by
  simp only [Kitchen.listShort, hs]
  rfl

end

/-! ## The order's move (R147) -/

/-- R147: the covers of a CONFIRMED order at its new place, before the scan. -/
def Book.confirmedMoved (b : Book) (o : Order) (k : Nat) (d : Date) (slot : Nat) : Book :=
  ((b.withCsc ((b.csc.giveBack o.kitchen o.date o.window o.covers).commit k d (slot / 2) o.covers)).putOrder
    (b.csc.movedOrder o k d slot)).postOrder (b.csc.movedOrder o k d slot) (some o.state) .move

/-- R147: a WAITLISTED order at the tail of its new kitchen's list. -/
def Book.relisted (b : Book) (o : Order) (k : Nat) : Book :=
  if k = o.kitchen then b
  else (b.leaveWaitlist o.kitchen o.id).modifyKitchen k fun x => { x with waitlist := x.waitlist ++ [o.id] }

/-- R147: a WAITLISTED order at its new place, before the scan. -/
def Book.waitingMoved (b : Book) (o : Order) (k : Nat) (d : Date) (slot : Nat) : Book :=
  ((b.putOrder (b.csc.movedOrder o k d slot)).relisted o k).postOrder (b.csc.movedOrder o k d slot) (some o.state) .move

theorem relisted_lists (b : Book) (o : Order) (k : Nat) : ListsOnly b (b.relisted o k) := by
  unfold Book.relisted
  split
  · exact .refl b
  · exact (modifyKitchen_lists _ _ _).trans (modifyKitchen_lists _ _ _)

/-- R147: the list of the new kitchen, where no other order waits. -/
theorem relisted_kitchen {b : Book} {o : Order} {k : Nat} {kit : Kitchen} (hk : b.csc.kitchen k = some kit)
    (alone : k = o.kitchen ∧ kit.waitlist = [o.id] ∨ k ≠ o.kitchen ∧ kit.waitlist = []) :
    ∃ kit', (b.relisted o k).csc.kitchen k = some kit' ∧ kit'.waitlist = [o.id] := by
  unfold Book.relisted
  rcases alone with ⟨same, hl⟩ | ⟨other, hl⟩
  · rw [if_pos same]
    exact ⟨kit, hk, hl⟩
  · rw [if_neg other]
    have kept : (b.leaveWaitlist o.kitchen o.id).csc.kitchen k = some kit := (modifyKitchen_other b other _).trans hk
    exact ⟨_, modifyKitchen_kitchen kept _, by simp [hl]⟩

section

variable {b : Book} {o : Order} {k : Nat} {d : Date} {slot : Nat}

theorem moveOrder_confirmed (hs : o.state = .confirmed) :
    b.moveOrder o k d slot = (b.confirmedMoved o k d slot).scan o.kitchen := by
  simp only [Book.moveOrder, hs]
  rw [← hs]
  rfl

theorem moveOrder_waitlisted (hs : o.state = .waitlisted) :
    b.moveOrder o k d slot = (b.waitingMoved o k d slot).scan k := by
  simp only [Book.moveOrder, hs, Book.waitingMoved, Book.relisted]

theorem moveOrder_terminal (hs : o.state = .cancelled ∨ o.state = .declined) : b.moveOrder o k d slot = b := by
  rcases hs with hs | hs <;> simp only [Book.moveOrder, hs]

end

theorem relisted_hmp (b : Book) (o : Order) (k : Nat) : (b.relisted o k).hmp = b.hmp := by
  unfold Book.relisted
  split <;> rfl

theorem confirmedMoved_catering (b : Book) (o : Order) (k : Nat) (d : Date) (slot : Nat) :
    CateringOnly b (b.confirmedMoved o k d slot) :=
  ((withCsc_catering _ _).trans (putOrder_catering _ _)).trans (postOrder_catering _ _ _ _ _)

theorem waitingMoved_catering (b : Book) (o : Order) (k : Nat) (d : Date) (slot : Nat) :
    CateringOnly b (b.waitingMoved o k d slot) :=
  ((putOrder_catering _ _).trans (relisted_lists _ _ _).toCateringOnly).trans (postOrder_catering _ _ _ _ _)

section

variable {b : Book} {o : Order} {k : Nat} {d : Date} {slot : Nat}

/-- R147, R151: the CSC alone works on the order, and posts its move before what the scan makes it post. -/
theorem moveOrder_live (live : o.state = .confirmed ∨ o.state = .waitlisted) :
    CateringOnly b (b.moveOrder o k d slot) ∧
      ∃ l, (b.moveOrder o k d slot).hmp.out =
        (b.hmp.post
          (.orderState o.id o.booking k d slot (slot / 2) o.covers (some o.state) o.state .move .none)).out ++ l := by
  rcases live with hs | hs
  · have scanned := scan_scanned (b.confirmedMoved o k d slot) o.kitchen
    obtain ⟨l, hl, -⟩ := scanned.out
    rw [moveOrder_confirmed hs]
    exact ⟨(confirmedMoved_catering _ _ _ _ _).trans scanned.toCateringOnly, l, hl⟩
  · have scanned := scan_scanned (b.waitingMoved o k d slot) k
    obtain ⟨l, hl, -⟩ := scanned.out
    rw [moveOrder_waitlisted hs]
    refine ⟨(waitingMoved_catering _ _ _ _ _).trans scanned.toCateringOnly, l, hl.trans ?_⟩
    rw [show b.hmp = _ from (relisted_hmp (b.putOrder (b.csc.movedOrder o k d slot)) o k).symm]
    rfl

/-- R147: a CONFIRMED order moved, and its covers where no order waits at its old kitchen. -/
theorem moveOrder_confirmed_spec (hb : OrdersKeyed b) (hs : o.state = .confirmed) :
    (b.moveOrder o k d slot).csc.orders.find o.id = some (b.csc.movedOrder o k d slot) ∧
      (NoWaiters b o.kitchen →
        (b.moveOrder o k d slot).csc.capacity =
          ((b.csc.giveBack o.kitchen o.date o.window o.covers).commit k d (slot / 2) o.covers).capacity) := by
  have keyed : OrdersKeyed (b.confirmedMoved o k d slot) := putOrder_keyed (b := b.withCsc _) hb _
  have stays : (b.csc.movedOrder o k d slot).state ≠ .waitlisted := by
    rw [show (b.csc.movedOrder o k d slot).state = o.state from rfl, hs]
    nofun
  rw [moveOrder_confirmed hs]
  refine ⟨(scan_scanned _ _).orders keyed _ _ (putOrder_found (b.withCsc _) (b.csc.movedOrder o k d slot)) stays,
    fun idle => ?_⟩
  rw [scan_idle (b := b.confirmedMoved o k d slot) idle]
  rfl

/-- R138, R147: a WAITLISTED order that waits alone at its new kitchen is confirmed there where its covers fit. -/
theorem moveOrder_waitlisted_spec {kit : Kitchen} (hs : o.state = .waitlisted) (hk : b.csc.kitchen k = some kit)
    (hg : b.csc.guard.contains k = false) (shut : ¬WindowShut b.csc k d (slot / 2))
    (alone : k = o.kitchen ∧ kit.waitlist = [o.id] ∨ k ≠ o.kitchen ∧ kit.waitlist = []) :
    (b.moveOrder o k d slot).csc.orders.find o.id =
      some
        (if o.covers ≤ b.csc.remaining k d (slot / 2) then { b.csc.movedOrder o k d slot with state := .confirmed }
          else b.csc.movedOrder o k d slot) := by
  have lists := relisted_lists (b.putOrder (b.csc.movedOrder o k d slot)) o k
  obtain ⟨kit', hk', hl'⟩ := relisted_kitchen (b := b.putOrder (b.csc.movedOrder o k d slot)) hk alone
  have guard : (b.waitingMoved o k d slot).csc.guard.contains k = false :=
    (congrArg (fun l : List Nat => l.contains k) lists.guard).trans hg
  have found : (b.waitingMoved o k d slot).csc.orders.find o.id = some (b.csc.movedOrder o k d slot) :=
    (congrArg (fun t : Table Order => t.find o.id) lists.orders).trans (putOrder_found b (b.csc.movedOrder o k d slot))
  have fits : CoversFit (b.waitingMoved o k d slot).csc k d (slot / 2) o.covers ↔
      o.covers ≤ b.csc.remaining k d (slot / 2) := by
    have capacity : (b.waitingMoved o k d slot).csc.capacity = b.csc.capacity := lists.capacity
    simp only [CoversFit, WindowShut, Csc.remaining, Csc.entry, capacity]
    exact ⟨fun h => h.2, fun h => ⟨shut, h⟩⟩
  rw [moveOrder_waitlisted hs, scan_single guard hk' hl']
  by_cases room : o.covers ≤ b.csc.remaining k d (slot / 2)
  · rw [if_pos room, scanOrder_confirms found hs (fits.mpr room)]
    exact putOrder_found ((b.waitingMoved o k d slot).withCsc _) { b.csc.movedOrder o k d slot with state := .confirmed }
  · rw [if_neg room, scanOrder_passes found fun _ fit => room (fits.mp fit)]
    exact found

end

/-! ## The claim (R45, R46, R147) -/

section

variable {b : Book} {r : Record} {rm : Room} {f : MoveFields} {o : Order} (ho : b.csc.orderFor r.id r.order = some o)
include ho

theorem tryFit_refuses {a : Answer}
    (h : b.csc.fitRefusal o rm.kitchen f.date (movedSlot o r.start f.start f.count) = some a) :
    b.tryFit r rm f = .error (b, a) := by
  simp only [Book.tryFit, ho, h]

theorem tryFit_moves {k : Nat} (hk : rm.kitchen = some k)
    (h : b.csc.fitRefusal o (some k) f.date (movedSlot o r.start f.start f.count) = none) :
    b.tryFit r rm f = .ok (b.moveOrder o k f.date (movedSlot o r.start f.start f.count)) := by
  simp only [Book.tryFit, ho, hk, h]

theorem tryFit_terminal (hs : o.state = .cancelled ∨ o.state = .declined) : b.tryFit r rm f = .ok b := by
  simp only [Book.tryFit, ho, fitRefusal_terminal hs]
  cases rm.kitchen with
  | none => rfl
  | some k => exact congrArg Except.ok (moveOrder_terminal hs)

end

theorem moveOrder_catering (b : Book) (o : Order) (k : Nat) (d : Date) (slot : Nat) :
    CateringOnly b (b.moveOrder o k d slot) := by
  by_cases live : o.state = .confirmed ∨ o.state = .waitlisted
  · exact (moveOrder_live live).1
  · obtain ⟨hc, hw⟩ := not_or.mp live
    simp only [Book.moveOrder]
    exact .refl b

/-- R147: the fit check refuses on the book as it was, or the CSC alone works on. -/
theorem tryFit_ends (b : Book) (r : Record) (rm : Room) (f : MoveFields) :
    (∃ a, b.tryFit r rm f = .error (b, a)) ∨ ∃ b', b.tryFit r rm f = .ok b' ∧ CateringOnly b b' := by
  unfold Book.tryFit
  split
  · exact .inr ⟨b, rfl, .refl b⟩
  · dsimp only
    split
    · exact .inl ⟨_, rfl⟩
    · split
      · exact .inr ⟨_, rfl, moveOrder_catering _ _ _ _ _⟩
      · exact .inr ⟨b, rfl, .refl b⟩

/-- R46: the MOVE from the fit check on. -/
def Book.moveFrom (t : Ctu) (n : Nat) (r : Record) (f : MoveFields) (rm : Room) (buf : Nat) (b : Book) : Book :=
  ((b.movedAnew n r (r.movedTo f buf)).moveRun n rm).startIfBegun t n

section

variable {s : State} {n : Nat} {r : Record} {f : MoveFields} {rm : Room} (h : MovePasses s n r f rm) (rest : List Handed)
include h

/-- R45: a MOVE that passes its checks goes on from what its order comes to. -/
theorem MovePasses.moveRequest :
    Book.moveRequest s.ctu f (s.book.withRequests rest) = (do
      let b ← (s.book.withRequests rest).tryFit r rm f
      let b := b.moveFrom s.ctu n r f rm (movedBuffer s.book f rm)
      return (b, Answer.ok (.placed (b.placed (r.movedTo f (movedBuffer s.book f rm))) ((b.soundAt n).bind (·.run))))) := by
  have hs : StoreSound (s.book.withRequests rest) := h.sound
  have test : (s.book.withRequests rest).tryConflict .live f.room f.date f.start f.count
      (clipBuffer (f.start + f.count) (s.book.squ.bufferOf rm)) (some r) = .ok (s.book.withRequests rest) :=
    tryConflict_passes hs h.free
  have runs : (r.state == .confirmed && ((s.book.withRequests rest).squ.ownRun r).isNone &&
      (s.book.withRequests rest).runsShort rm) = false := by
    simp only [Bool.and_eq_false_imp, Bool.and_eq_true, beq_iff_eq, Option.isNone_iff_eq_none, and_imp]
    exact h.runs
  rw [moveRequest_live (b := s.book.withRequests rest) f h.live, h.toMoveReaches.moveLive rest]
  simp only [test, runs, Book.tryReadLive_sound hs, refuseIf, firstFail, bind, Except.bind]
  rfl

theorem MovePasses.refused {a : Answer}
    (hf : (s.book.withRequests rest).tryFit r rm f = .error (s.book.withRequests rest, a)) :
    Book.moveRequest s.ctu f (s.book.withRequests rest) = .error (s.book.withRequests rest, a) := by
  rw [h.moveRequest rest, hf]
  rfl

end

end Sys2Proof.Machine

/-! PROOFS. Orders are changed and cancelled by the host, and follow the MOVE of their meeting (R136, R137, R147). -/

namespace Sys2Proof.Machine

/-! ## MOVE as a step (R147) -/

/-- The state after a MOVE. -/
def State.afterMove (s : State) (rest : List Handed) (c : Ctx) (f : MoveFields) : State :=
  s.afterClaim rest c (Book.moveRequest s.ctu f)

/-- R25: a MOVE that its order's fit check refuses. -/
theorem afterMove_refused {s : State} {n : Nat} {r : Record} {f : MoveFields} {rm : Room} (h : MovePasses s n r f rm)
    {rest : List Handed} (c : Ctx) {a : Answer}
    (hf : (s.book.withRequests rest).tryFit r rm f = .error (s.book.withRequests rest, a)) :
    (s.afterMove rest c f).book.mail.requests = rest ∧ (s.afterMove rest c f).book.slot n = some (.sound r) ∧
      (s.afterMove rest c f).book.csc = s.book.csc ∧
      (∀ x d, (s.afterMove rest c f).book.row x d = s.book.row x d) ∧ Replied s (s.afterMove rest c f) c a := by
  obtain ⟨unchanged, mail, replied⟩ : ClaimRefused s (s.afterMove rest c f) c rest a := .of_claim (h.refused rest hf) rfl
  obtain ⟨bke, rows⟩ := unchanged.bke
  refine ⟨congrArg Mail.requests mail, ?_, unchanged.csc, rows, replied⟩
  rw [Book.slot, bke]
  exact h.held.2.1

/-- R46, R147: the MOVE has been made behind what the CSC made of the order, which left the book `b`. -/
structure MovedBehind (s t : State) (c : Ctx) (rest : List Handed) (n : Nat) (r : Record) (f : MoveFields) (buf : Nat)
    (b : Book) : Prop where
  requests : t.book.mail.requests = rest
  moved :
    ∃ r' a, Moved s t n r r' f buf ∧ a.id = r.id ∧ a.room = f.room ∧ a.date = f.date ∧ a.start = f.start ∧
      a.count = f.count ∧ a.bufSlots = buf ∧ RepliedAfter s t c (Answer.ok (.placed a r'.run))
  csc : t.book.csc = b.csc
  out : ∃ l, t.book.hmp.out = b.hmp.out ++ l

theorem answered_out (s : State) (b : Book) (c : Ctx) (a : Answer) :
    ∃ more, (s.answered b c a).book.hmp.out = b.hmp.out ++ .reply c a :: more ∧ (c.mark ≠ .last → more = []) := by
  obtain ⟨more, hmore, last⟩ := ((b.bumpRows s.book.bke.rows).reply_after c a).out
  refine ⟨more, hmore.trans ?_, last⟩
  rw [← List.singleton_append, ← List.append_assoc]
  rfl

section

variable {s : State} {n : Nat} {r : Record} {f : MoveFields} {rm : Room} {rest : List Handed} {b : Book}
  (only : CateringOnly (s.book.withRequests rest) b)
include only

/-- R46: what a MOVE makes behind the CSC's work is what it makes without it. -/
theorem MoveMakes.moved_behind {b' : Book} {st : BState} {ck : CheckMark} {g x : Option Nat}
    (k : MoveMakes s.ctu b b' n r (r.movedTo f (movedBuffer s.book f rm)) rm st ck g x) (c : Ctx) (a : Answer) :
    Moved s (s.answered b' c a) n r ((r.movedTo f (movedBuffer s.book f rm)).reaching st ck g x) f
      (movedBuffer s.book f rm) := by
  have buffer : movedBuffer b f rm = movedBuffer s.book f rm := by
    unfold movedBuffer
    rw [only.squ]
    rfl
  have same : b.withRequests rest = b := by
    have taken : b.mail.requests = rest := congrArg Mail.requests only.mail
    rw [← taken]
    rfl
  have begun (x : Nat) : b.begun s.ctu f.date x = s.book.begun s.ctu f.date x := by
    unfold Book.begun Book.isToday
    rw [only.bke]
    rfl
  have answered : s.answered b' c a = { s with book := b }.answered b' c a := by
    unfold State.answered
    rw [only.bke]
    rfl
  have k' : MoveMakes { s with book := b }.ctu (({ s with book := b } : State).book.withRequests rest) b' n r
      (r.movedTo f (movedBuffer b f rm)) rm st ck g x := by
    rw [buffer, show ({ s with book := b } : State).book.withRequests rest = b from same]
    exact k
  obtain ⟨slot, id, place, kept, held, later, started⟩ := k'.moved (State.answered_taken { s with book := b } b' c a)
  rw [answered, ← buffer]
  exact ⟨slot, id, place, kept, fun hs => only.squ ▸ held hs, fun hs hb => later hs ((begun _).trans hb),
    fun hs hb => started hs ((begun _).trans hb)⟩

theorem MoveMakes.movedBehind {b' : Book} {st : BState} {ck : CheckMark} {g x : Option Nat}
    (k : MoveMakes s.ctu b b' n r (r.movedTo f (movedBuffer s.book f rm)) rm st ck g x) (c : Ctx) :
    MovedBehind s (s.answered b' c (Answer.ok (.placed (b'.placed (r.movedTo f (movedBuffer s.book f rm))) x))) c rest n r f
      (movedBuffer s.book f rm) b := by
  obtain ⟨more, hmore, last⟩ :=
    answered_out s b' c (Answer.ok (.placed (b'.placed (r.movedTo f (movedBuffer s.book f rm))) x))
  have out : b'.hmp.out = b.hmp.out := congrArg Hmp.out k.only.hmp
  obtain ⟨l, hl, notices⟩ := only.out
  refine ⟨?_, ⟨_, b'.placed (r.movedTo f (movedBuffer s.book f rm)), k.moved_behind only c _, rfl, rfl, rfl, rfl, rfl, rfl,
    l, more, ?_, notices, last⟩, (s.answered_taken b' c _).csc.trans k.only.csc, ?_⟩
  · rw [State.answered_mail]
    exact k.only.requests.trans (congrArg Mail.requests only.mail)
  · rw [hmore, out, hl]
    rfl
  · rw [hmore, out]
    exact ⟨_, rfl⟩

theorem MovePasses.movedBehind (h : MovePasses s n r f rm) (c : Ctx)
    (hf : (s.book.withRequests rest).tryFit r rm f = .ok b) :
    MovedBehind s (s.afterMove rest c f) c rest n r f (movedBuffer s.book f rm) b := by
  have sound : StoreSound b := (congrArg Bss.errors only.bss).trans h.sound
  have hst : (r.movedTo f (movedBuffer s.book f rm)).state = .held ∨
      (r.movedTo f (movedBuffer s.book f rm)).state = .confirmed := h.state.elim .inr fun e => .inl e.1
  obtain ⟨st, ck, g, x, k⟩ := movedAnew_makes sound n r (r.movedTo f (movedBuffer s.book f rm)) rm hst s.ctu
  have run : ((b.moveFrom s.ctu n r f rm (movedBuffer s.book f rm)).soundAt n).bind (·.run) = x := by
    simp only [Book.soundAt, show (b.moveFrom s.ctu n r f rm (movedBuffer s.book f rm)).slot n = _ from k.slot]
    rfl
  have behind := k.movedBehind only c
  rw [← run] at behind
  unfold State.afterMove State.afterClaim
  rw [h.moveRequest rest, hf]
  exact behind

end

theorem MovePasses.requests {s : State} {n : Nat} {r : Record} {f : MoveFields} {rm : Room} (h : MovePasses s n r f rm)
    (rest : List Handed) (c : Ctx) : (s.afterMove rest c f).book.mail.requests = rest := by
  rcases tryFit_ends (s.book.withRequests rest) r rm f with ⟨a, hf⟩ | ⟨b, hf, only⟩
  · exact (afterMove_refused h c hf).1
  · exact (h.movedBehind only c hf).requests

/-- R151: the notice of an order's move, where there is a place for it, is queued behind what was queued. -/
theorem notice_queued {h : Hmp} {n : Notice} {out l m : List OutFrame} (hr : h.restart ≠ .answered)
    (hp : h.noticesHeld < h.noticeRoom) (hl : out = (h.post n).out ++ l ++ m) : ∃ d, .notice d n ∈ out := by
  refine ⟨h.dropped, ?_⟩
  rw [hl, Hmp.post_queued h n hr hp]
  simp

/-- Settles O40: ORDER_CHANGE and ORDER_CANCEL by the order's state; a MOVE by its fit check, behind which the order and the
meeting stand at their new place. -/
theorem ordersAreChangedAndCancelled : Obligations.OrdersAreChangedAndCancelled := by
  refine ⟨fun s c id lines slot o rest hq hh low high hsome hlines hkeyed ho hg hslot => ?_,
    fun s c id x lines o rest hq hh low high hlines ho live first last late => ?_,
    fun s c id o rest hq hh low high hkeyed ho => ?_,
    fun s c n r f rest rm o hq h hr hkeyed ho hbooking hstart => ?_⟩
  · intro n back
    have change : Changeable (s.book.withRequests rest) id lines slot o := ⟨hh, low, high, hsome, hlines, ho⟩
    have hid : o.id = id := hkeyed id o ho
    have passes (live : o.state = .confirmed ∨ o.state = .waitlisted) :
        (s.book.withRequests rest).csc.changeCheck o slot = none := changeCheck_passes live hg hslot
    obtain ⟨runs, requests⟩ := orderChange_spec hq
    refine ⟨_, runs, requests, rfl, rfl, rfl, fun hs fits => ?_, fun hs unfit => ?_, fun hs fits => ?_, fun hs unfit => ?_⟩
    · exact afterOrderChange_confirmed change hid rfl (passes (.inl hs)) hkeyed hs fits
    · have op := (change.passed (passes (.inl hs))).trans ((if_pos hs).trans (changeConfirmed_unfit unfit))
      exact afterAnswer_refused op
    · exact (afterOrderChange_waitlisted change hid rfl (passes (.inr hs)) hs).1 fits
    · exact (afterOrderChange_waitlisted change hid rfl (passes (.inr hs)) hs).2 unfit
  · have change : Changeable (s.book.withRequests rest) id lines (some x) o := ⟨hh, low, high, .inr nofun, hlines, ho⟩
    obtain ⟨runs, requests⟩ := orderChange_spec hq
    have op := change.checked (changeCheck_late live first last late)
    exact ⟨_, runs, requests, afterAnswer_refused op⟩
  · have hid : o.id = id := hkeyed id o ho
    obtain ⟨requests, bke⟩ := CateringOnly.taken (s := s) (c := c) (op := fun b => b.cancelOrder id)
      (cancelOrder_catering (s.book.withRequests rest) id)
    refine ⟨s.afterOrderCancel rest c id, hq.runs_afterAnswer rfl rfl, requests, bke, fun hs => ?_, fun hs => ?_, fun hs => ?_,
      fun hs => ?_, fun hs => ?_⟩
    · rcases hs with hs | hs
      · obtain ⟨found, replied, -⟩ := afterOrderCancel_waitlisted (c := c) (rest := rest) hh low high ho hid hs
        exact ⟨found, replied⟩
      · exact (afterOrderCancel_confirmed hh low high ho hid hkeyed hs).2
    · exact (afterOrderCancel_waitlisted hh low high ho hid hs).2.2
    · obtain ⟨csc, -⟩ := afterOrderCancel_confirmed (c := c) (rest := rest) hh low high ho hid hkeyed hs
      exact ⟨cancelled_idle csc, fun kit p hg hk hl hne hp hw _ hd =>
        ⟨cancelled_single_fits csc hg hk hl (hid ▸ hne) hp hw hd, cancelled_single_unfit csc hg hk hl (hid ▸ hne) hp hw⟩⟩
    · have op := cancelOrder_terminal (b := s.book.withRequests rest) hh low high ho hs
      exact afterAnswer_refused op
    · have op := cancelOrder_late (b := s.book.withRequests rest) hh low high ho hs
      exact afterAnswer_refused op
  · intro buf slot
    have order : (s.book.withRequests rest).csc.orderFor r.id r.order = some o := by
      rw [hr]
      exact orderFor_found ho hbooking
    have hslot : movedSlot o r.start f.start f.count = slot := movedSlot_eq ..
    have refused {a : Answer} (hf : s.book.csc.fitRefusal o rm.kitchen f.date slot = some a) :=
      afterMove_refused h c (tryFit_refuses (b := s.book.withRequests rest) (f := f) order (hslot ▸ hf))
    have moves {k : Nat} (live : o.state = .confirmed ∨ o.state = .waitlisted) (hk : rm.kitchen = some k)
        (hf : s.book.csc.fitRefusal o (some k) f.date slot = none) :
        MovedBehind s (s.afterMove rest c f) c rest n r f (movedBuffer s.book f rm)
          ((s.book.withRequests rest).moveOrder o k f.date slot) := by
      have fit := tryFit_moves (b := s.book.withRequests rest) (f := f) order hk (hslot ▸ hf)
      rw [hslot] at fit
      exact h.movedBehind (moveOrder_live live).1 c fit
    refine ⟨s.afterMove rest c f, hq.runs_afterClaim rfl rfl, h.requests rest c, fun hs => ?_, fun hs => ?_,
      fun live => ⟨fun hk => ?_, fun k kit hk hkit => ⟨fun hg => ?_, fun hg late => ?_,
        fun hg early => ⟨fun hs short => ?_, fun hs hne full => ?_, fun hs fits => ?_, fun hs alone => ?_,
          fun hrestart hplace fits => ?_⟩⟩⟩⟩
    · have behind := h.movedBehind (.refl _) c (tryFit_terminal (b := s.book.withRequests rest) order hs)
      exact ⟨behind.moved, behind.csc⟩
    · exact (refused (fitRefusal_late hs _ _ _)).2
    · exact (refused (hk ▸ fitRefusal_noKitchen live _ _)).2
    · exact (refused (hk ▸ fitRefusal_guarded live hkit hg)).2
    · exact (refused (hk ▸ fitRefusal_cutOff live hkit hg late)).2
    · exact (refused (hk ▸ fitRefusal_short live hkit hg early (.inl ((coversShort_confirmed hs).mpr short)))).2
    · exact (refused (hk ▸ fitRefusal_short live hkit hg early (.inr ((listShort_waitlisted hs).mpr ⟨hne, full⟩)))).2
    · have fit := fitRefusal_fit live hkit hg early
        (Bool.eq_false_iff.mpr ((coversShort_confirmed hs).not.mpr (Nat.not_lt.mpr fits))) (listShort_confirmed hs)
      have behind := moves live hk fit
      obtain ⟨found, capacity⟩ := moveOrder_confirmed_spec (b := s.book.withRequests rest) (k := k) (d := f.date)
        (slot := slot) hkeyed hs
      refine ⟨behind.moved, ?_, fun before hbefore hl => ?_⟩
      · rw [behind.csc]
        exact found
      · rw [behind.csc]
        exact capacity fun x hx => by cases hbefore.symm.trans hx; exact hl
    · have room : kit.listShort o k = false := by
        refine Bool.eq_false_iff.mpr ((listShort_waitlisted hs).not.mpr ?_)
        rintro ⟨hne, full⟩
        rcases alone with ⟨same, -⟩ | ⟨-, hl⟩
        · exact hne same
        · simp [hl] at full
      have behind := moves live hk (fitRefusal_fit live hkit hg early (coversShort_waitlisted hs) room)
      have shut : ¬WindowShut s.book.csc k f.date (slot / 2) := fun shut => early (.inr shut)
      refine ⟨behind.moved, ?_⟩
      rw [behind.csc]
      exact moveOrder_waitlisted_spec (b := s.book.withRequests rest) hs hkit hg shut alone
    · have fit : s.book.csc.fitRefusal o (some k) f.date slot = none := by
        rcases fits with ⟨hs, fits⟩ | ⟨hs, room⟩
        · exact fitRefusal_fit live hkit hg early
            (Bool.eq_false_iff.mpr ((coversShort_confirmed hs).not.mpr (Nat.not_lt.mpr fits))) (listShort_confirmed hs)
        · refine fitRefusal_fit live hkit hg early (coversShort_waitlisted hs)
            (Bool.eq_false_iff.mpr ((listShort_waitlisted hs).not.mpr ?_))
          rintro ⟨hne, full⟩
          exact room.elim hne (Nat.not_lt.mpr full)
      obtain ⟨m, hm⟩ := (moves live hk fit).out
      obtain ⟨-, l, hl⟩ := moveOrder_live (b := s.book.withRequests rest) (k := k) (d := f.date) (slot := slot) live
      exact notice_queued hrestart hplace (hm.trans (congrArg (· ++ m) hl))

end Sys2Proof.Machine
